-- ==== Sys2Proof/Word.lean ====
section
/-!
DEFINITION. The words of the machine: bytes, 32-bit words, doublewords, code lines (64 bytes) and queue
entries (512 bytes), each a bit vector, little-endian where it meets memory (00 R2, R4).
-/

namespace Sys2Proof

/-- One byte. -/
abbrev Byte := BitVec 8
/-- A half, 16 bits (00 R4). -/
abbrev Half := BitVec 16
/-- A word, 32 bits (00 R4). -/
abbrev W32 := BitVec 32
/-- A doubleword, 64 bits (00 R4). -/
abbrev W64 := BitVec 64
/-- A line of code or memory, 64 bytes; byte i is bits 8i+7..8i. -/
abbrev Line := BitVec 512
/-- A queue entry, a frame vector or a tile row: 512 bytes, 128 lanes of 32 bits (02 R33, R39). -/
abbrev Entry := BitVec 4096

end Sys2Proof
end

