-- ==== Sys2Proof/Syntax.lean ====
section
/-!
DEFINITION. The instructions and events of spec/opcode_table.json, one constructor of `Instr` per row, with the
operand types they share. Raw encodings end here: register numbers, types, scopes and operand kinds are
constructors or fields of their exact width.
-/

namespace Sys2Proof

/-- The four sequencers (02 R27); the order is that of the engine codes of the link word (03 R52). -/
inductive Engine | ctl | lda | exe | sta
  deriving DecidableEq, Repr, Inhabited

/-- Scopes (00 R11). -/
inductive Scope | lane | core | quad | die | pkg | pod
  deriving DecidableEq, Repr, Inhabited

/-- Element types (04 R76). -/
inductive Ty | f32 | bf16 | f16 | e4m3 | e5m2 | mx8 | mx4 | q4o | sf8 | i32 | i16 | i8 | n32 | n16 | n8
  deriving DecidableEq, Repr, Inhabited

/-- Rounding modes (04 R77, 05 R110). -/
inductive Rnd | rne | rtz | rdn | rup | rna | rsr
  deriving DecidableEq, Repr, Inhabited

/-- Conditions of CMP and WAITV (04 R78). -/
inductive Cond | eq | ne | lt | ge | ltn | gen | tst | ntst
  deriving DecidableEq, Repr, Inhabited

/-- Conditions of VCMP (04 R89). -/
inductive VCond | eq | ne | lt | le | gt | ge | un | or
  deriving DecidableEq, Repr, Inhabited

/-- Operations of VRED and VSCAN (04 R89). -/
inductive RedOp | sum | max | min
  deriving DecidableEq, Repr, Inhabited

/-- Access widths of LD and ST (04 R79); ST accepts the first four. -/
inductive Width | n8 | n16 | n32 | w64 | i8 | i16 | i32
  deriving DecidableEq, Repr, Inhabited

/-- The ord and scope fields of the long LD form (04 R79). -/
inductive LdOrd | plain | acq (s : Scope) | sc (s : Scope)
  deriving DecidableEq, Repr, Inhabited

/-- The ord and scope fields of the long ST form (04 R79). -/
inductive StOrd | plain | rel (s : Scope) | sc (s : Scope)
  deriving DecidableEq, Repr, Inhabited

/-- The ord field of ATOM (04 R79). -/
inductive AtomOrd | relaxed | acq | rel | ar
  deriving DecidableEq, Repr, Inhabited

/-- Path classes (04 R80, 09 R203). -/
inductive PathClass | ld | st | cp | fb | bl
  deriving DecidableEq, Repr, Inhabited

/-- Queues (02 R33): codes 0-3 QA, 4-7 QV, 8 QW, 12-15 QS (04 R73). -/
inductive Queue | qa (i : BitVec 2) | qv (i : BitVec 2) | qw | qs (i : BitVec 2)
  deriving DecidableEq, Repr, Inhabited

/-- Queues that LDA fills: the queue position of LDQ, LDR, MLDR and TRD (04 R74). -/
inductive InQueue | qa (i : BitVec 2) | qv (i : BitVec 2) | qw
  deriving DecidableEq, Repr, Inhabited

/-- Directions of a frame vector (02 R38). -/
inductive Dir | h | v | d
  deriving DecidableEq, Repr, Inhabited

/-- A frame vector Zn.hk, Zn.vk or Zn.dk (02 R38). -/
structure FVec where
  reg : BitVec 3
  dir : Dir
  idx : BitVec 7
  deriving DecidableEq, Repr, Inhabited

/-- A vector source: h, v, d, a QV queue or a scalar broadcast (04 R74). -/
inductive VSrc | vec (f : FVec) | qv (i : BitVec 2) | bcast (g : BitVec 4)
  deriving DecidableEq, Repr, Inhabited

/-- A vector destination: h, v, d or a QS queue (04 R74). -/
inductive VDst | vec (f : FVec) | qs (i : BitVec 2)
  deriving DecidableEq, Repr, Inhabited

/-- What MZERO clears: a vector or a whole register (10 R234). -/
inductive ZTarget | vec (f : FVec) | whole (z : BitVec 3)
  deriving DecidableEq, Repr, Inhabited

/-- What VPUSH reads (18 R429). -/
inductive PushSrc | vec (f : FVec) | bcast (g : BitVec 4)
  deriving DecidableEq, Repr, Inhabited

/-- Endpoint kinds of the copy family other than the weight buffer (04 R90). -/
inductive EndKind | mem | tile
  deriving DecidableEq, Repr, Inhabited

/-- Reductions of COPYR (04 R90). -/
inductive Rop | add | max | min | cpadd
  deriving DecidableEq, Repr, Inhabited

/-- Control registers (04 R93). -/
inductive Csr
  | cfgPlace | cfgTask | cfgVd | clkRef | rngKey | rngCtrLo | rngCtrHi | arFlags | arTrap
  | trCause | trEpc | trVal | trFrom | trVec | trEng | exeOwn | vmS1root | vmAsid | vmS2root | vmVd
  deriving DecidableEq, Repr, Inhabited

/-- A general-register field, g0 to g31 of the executing sequencer (04 R72). -/
abbrev GReg := BitVec 5

/-- What an access finds: nothing amiss; at a home, a line failing its MAC, an uncorrectable word, or a failing tree node at
the given level (14 R311, R312); in on-chip storage that a copy reads, an uncorrectable error by structure and element
(12 R273). Chosen by the environment (log 17). -/
inductive Integ | ok | corrected | mac | ecc | tree (level : Nat) | sram (what el : Nat)
  deriving DecidableEq, Repr, Inhabited

/-- The functions a host request may name (15 R326): the firmware window of the PF, or the memory of VD n. -/
inductive HostWin | fw | vd (n : BitVec 8)
  deriving DecidableEq, Repr, Inhabited

/-- The messages that hosts carry between two modules (14 R322 to R325), as firmware reads them; how they lie in bytes is
not given (log 29). -/
inductive MigMsg
  | report (bs : List (BitVec 8))
  | block (ipa seq : Nat) (bs : List (BitVec 8))
  | frame (task : Nat) (landing : Bool) (block seq : Nat) (bs : List (BitVec 8))
  | manifest (bs : List (BitVec 8))
  | blob (bs : List (BitVec 8)) (key : BitVec 256)
  | resend
  | confirm (nd ns : BitVec 256) (sig : BitVec 512)
  | ack (nd ns : BitVec 256) (sig : BitVec 512)
  | lost (nd ns : BitVec 256) (sig : BitVec 512)
  deriving DecidableEq, Repr, Inhabited

/-- One constructor per row of spec/opcode_table.json. -/
inductive Instr
  -- control flow and guards
  | nop
  | grd (r : GReg) (b : BitVec 6) (sense : Bool) (span : BitVec 2)
  | br (delta : BitVec 20) (word : BitVec 4)
  | call (delta : BitVec 20) (word : BitVec 4)
  | jr (ra : GReg)
  | ret
  | loop (ra : GReg) (delta : BitVec 15) (word : BitVec 4)
  -- scalar arithmetic
  | add (rd ra rb : GReg) | sub (rd ra rb : GReg) | mul (rd ra rb : GReg) | mulh (rd ra rb : GReg)
  | mulhn (rd ra rb : GReg) | div (rd ra rb : GReg) | divn (rd ra rb : GReg) | rem (rd ra rb : GReg)
  | remn (rd ra rb : GReg) | and (rd ra rb : GReg) | or (rd ra rb : GReg) | xor (rd ra rb : GReg)
  | andn (rd ra rb : GReg) | shl (rd ra rb : GReg) | shr (rd ra rb : GReg) | sar (rd ra rb : GReg)
  | rotr (rd ra rb : GReg) | min (rd ra rb : GReg) | max (rd ra rb : GReg) | minn (rd ra rb : GReg)
  | maxn (rd ra rb : GReg)
  | cmp (rd ra rb : GReg) (c : Cond)
  | clz (rd ra : GReg) | ctz (rd ra : GReg) | popc (rd ra : GReg) | mov (rd ra : GReg)
  | addi (rd ra : GReg) (imm : BitVec 14) | andi (rd ra : GReg) (imm : BitVec 14)
  | ori (rd ra : GReg) (imm : BitVec 14) | xori (rd ra : GReg) (imm : BitVec 14)
  | shli (rd ra : GReg) (sh : BitVec 6) | shri (rd ra : GReg) (sh : BitVec 6) | sari (rd ra : GReg) (sh : BitVec 6)
  | movi (rd : GReg) (imm : BitVec 19)
  | movhi (rd : GReg) (hw : BitVec 2) (imm : BitVec 16)
  | bfx (rd ra : GReg) (lsb wm1 : BitVec 6) | bfi (rd ra : GReg) (lsb wm1 : BitVec 6)
  -- streams, tokens, counters, fences, barriers
  | fork (eng : Engine) (ra rb rc : GReg)
  | rdv
  | sigtImm (k : BitVec 3) (n : BitVec 8) | sigtReg (k : BitVec 3) (ra : GReg)
  | waittImm (k : BitVec 3) (n : BitVec 8) | waittReg (k : BitVec 3) (ra : GReg)
  | waitc (c : BitVec 4) (n : BitVec 12)
  | drain (mask : BitVec 4)
  | fence (s : Scope) | fenceAcq (s : Scope) | fenceRel (s : Scope)
  | fencex (s : Scope) (first second : PathClass)
  | bar (s : Scope) (id : BitVec 8)
  | waitv (rd ra rb : GReg) (c : Cond) (wide : Bool)
  | waitvPoll (uid : Nat)
  | yield
  | spawn (rd ra rb : GReg)
  | exit
  | trap (n : BitVec 5) (payload : BitVec 19)
  | tret
  | csrr (rd : GReg) (csr : Csr)
  | csrw (rd ra : GReg) (csr : Csr) | csrs (rd ra : GReg) (csr : Csr) | csrc (rd ra : GReg) (csr : Csr)
  | tlbiVa (s : Scope) (ra rb : GReg) | tlbiAsid (s : Scope) (rb : GReg) | tlbiVd (s : Scope)
  | tlbiIpa (s : Scope) (ra rb : GReg) | tlbiS2Vd (s : Scope) (rb : GReg)
  -- memory
  | ld (rt ra : GReg) (w : Width) (off : BitVec 11)
  | ldLong (rt ra : GReg) (w : Width) (ord : LdOrd) (off : BitVec 31)
  | st (rt ra : GReg) (w : Width) (off : BitVec 11)
  | stLong (rt ra : GReg) (w : Width) (ord : StOrd) (off : BitVec 31)
  | ldq (q : InQueue) (ra : GReg) (off : BitVec 7)
  | stq (q : BitVec 2) (ra : GReg) (off : BitVec 7)
  | atomSwap (rd ra rb : GReg) (s : Scope) (wide : Bool) (ord : AtomOrd)
  | atomCas (rd ra rb rc : GReg) (s : Scope) (wide : Bool) (ord : AtomOrd)
  | atomAdd (rd ra rb : GReg) (s : Scope) (wide : Bool) (ord : AtomOrd)
  | atomAnd (rd ra rb : GReg) (s : Scope) (wide : Bool) (ord : AtomOrd)
  | atomOr (rd ra rb : GReg) (s : Scope) (wide : Bool) (ord : AtomOrd)
  | atomXor (rd ra rb : GReg) (s : Scope) (wide : Bool) (ord : AtomOrd)
  | atomMin (rd ra rb : GReg) (s : Scope) (wide : Bool) (ord : AtomOrd)
  | atomMax (rd ra rb : GReg) (s : Scope) (wide : Bool) (ord : AtomOrd)
  | atomMinn (rd ra rb : GReg) (s : Scope) (wide : Bool) (ord : AtomOrd)
  | atomMaxn (rd ra rb : GReg) (s : Scope) (wide : Bool) (ord : AtomOrd)
  | atomFadd (rd ra rb : GReg) (s : Scope) (ord : AtomOrd)
  | ldr (q : InQueue) (ra : GReg) (cm1 : BitVec 4)
  | str (q : BitVec 2) (ra : GReg) (cm1 : BitVec 4)
  | mst (q : BitVec 2) (ra rb : GReg) (h : BitVec 8) (rc : GReg)
  | mldr (q : InQueue) (ra rb rc : GReg) (bf16 : Bool)
  | pref (ra : GReg) (off : BitVec 14) | prefTree (ra : GReg) (off : BitVec 14)
  -- bells, tiles, copies, musters, windows
  | bellset (rd ra rb rc : GReg) | bellclr (ra : GReg) | bellqry (rd ra : GReg)
  | talloc (h : BitVec 8) (rd ra : GReg) (len : BitVec 3) (lvl : Bool)
  | tfree (h : BitVec 8)
  | trd (h : BitVec 8) (ra : GReg) (off : BitVec 7) (q : InQueue)
  | twr (h : BitVec 8) (ra : GReg) (off : BitVec 7) (q : BitVec 2)
  | tzero (h : BitVec 8) (ra : GReg) (off : BitVec 7) (nm1 : BitVec 4)
  | tdraft (h : BitVec 8) (rd ra : GReg)
  | tcommit (h : BitVec 8) (rd ra : GReg)
  | nest (ch : BitVec 2) (level : BitVec 3) (ra rb rc : GReg)
  | nestEvent (ch : BitVec 2) (ra rb : GReg)
  | copy (ch : BitVec 2) (rd ra rb : GReg) (dk sk : EndKind) (ctr : BitVec 4)
  | copyw (ch : BitVec 2) (rd ra rb rc : GReg) (dk sk : EndKind) (ctr : BitVec 4)
  | copyg (ch : BitVec 2) (rd ra rb rc : GReg) (dk sk : EndKind) (ctr : BitVec 4)
  | copys (ch : BitVec 2) (rd ra rb rc : GReg) (dk sk : EndKind) (ctr : BitVec 4)
  | copyr (ch : BitVec 2) (rd ra rb : GReg) (dk sk : EndKind) (rop : Rop) (ty : Ty) (ctr : BitVec 4)
  | wbf (ch : BitVec 2) (rd ra rb : GReg) (sk : EndKind) (ctr : BitVec 4)
  | mjoin (rd ra rb : GReg) | mctb (ra rb rc : GReg) | mclose (rd ra rb : GReg)
  | wacq (ra : GReg) (s : Scope) | wrel (ra : GReg) (s : Scope)
  | rngadv (ra rb : GReg)
  -- matrix
  | wld (ty : Ty) (entry : BitVec 9)
  | mma (z : BitVec 3) (k : BitVec 7) (aty : Ty) (qa : BitVec 2) (ov : Bool)
  | mmat (z : BitVec 3) (k : BitVec 7) (aty : Ty) (qa : BitVec 2) (ov : Bool) (rg : BitVec 4) (off : BitVec 11)
  | mzero (t : ZTarget)
  -- vectors
  | vadd (fd : VDst) (fa fb : VSrc) (ty : Ty) (rnd : Rnd) | vsub (fd : VDst) (fa fb : VSrc) (ty : Ty) (rnd : Rnd)
  | vmul (fd : VDst) (fa fb : VSrc) (ty : Ty) (rnd : Rnd)
  | vmin (fd : VDst) (fa fb : VSrc) (ty : Ty) | vmax (fd : VDst) (fa fb : VSrc) (ty : Ty)
  | vand (fd : VDst) (fa fb : VSrc) (ty : Ty) | vor (fd : VDst) (fa fb : VSrc) (ty : Ty)
  | vxor (fd : VDst) (fa fb : VSrc) (ty : Ty)
  | vshl (fd : VDst) (fa fb : VSrc) (ty : Ty) | vshr (fd : VDst) (fa fb : VSrc) (ty : Ty)
  | vcmp (c : VCond) (fd : VDst) (fa fb : VSrc) (ty : Ty)
  | vabs (fd : VDst) (fa : VSrc) (ty : Ty) | vneg (fd : VDst) (fa : VSrc) (ty : Ty)
  | vnot (fd : VDst) (fa : VSrc) (ty : Ty) | vmov (fd : VDst) (fa : VSrc) (ty : Ty)
  | vexp (fd : VDst) (fa : VSrc) (ty : Ty) (rnd : Rnd) | vlog (fd : VDst) (fa : VSrc) (ty : Ty) (rnd : Rnd)
  | vrcp (fd : VDst) (fa : VSrc) (ty : Ty) (rnd : Rnd) | vrsq (fd : VDst) (fa : VSrc) (ty : Ty) (rnd : Rnd)
  | vsqrt (fd : VDst) (fa : VSrc) (ty : Ty) (rnd : Rnd) | vtanh (fd : VDst) (fa : VSrc) (ty : Ty) (rnd : Rnd)
  | vfma (fd : VDst) (fa fb fc : VSrc) (ty : Ty) (rnd : Rnd) | vfms (fd : VDst) (fa fb fc : VSrc) (ty : Ty) (rnd : Rnd)
  | vfnma (fd : VDst) (fa fb fc : VSrc) (ty : Ty) (rnd : Rnd)
  | vsel (fd : VDst) (fa fb fc : VSrc) (ty : Ty)
  | vcvt (fd : VDst) (fa : VSrc) (dst src : Ty) (rnd : Rnd)
  | vqnt (fd fa fb : FVec) (gq : BitVec 4) (ty : Ty) (rnd : Rnd)
  | vdq (fd : VDst) (fa fb : VSrc) (ty : Ty) (rnd : Rnd)
  | vred (op : RedOp) (fd : VDst) (fa : VSrc) (ty : Ty) (rnd : Rnd)
  | vscan (op : RedOp) (fd : VDst) (fa : VSrc) (ty : Ty) (rnd : Rnd)
  | vmaxi (fd : VDst) (fa : VSrc) (ty : Ty)
  | vperm (fd : VDst) (fa fb : VSrc)
  | vbcst (fd : VDst) (fa : VSrc) (lane : BitVec 7)
  | vlut (fd : VDst) (fa fb : VSrc) (ty : Ty) (rnd : Rnd)
  | selk (zi zv zs : BitVec 3) (gk : BitVec 4) (ty : Ty)
  | rngv (fd : VDst) (ty : Ty)
  | smpl (fd : VDst) (fa : VSrc) (gt : BitVec 4)
  | vpop (fd : FVec) (q : BitVec 2)
  | vpush (q : BitVec 2) (fa : PushSrc)
  -- events inside a core
  | delayLineLanding (uid : Nat) (eng : Engine)
  | mmaAccumulatorRead (uid : Nat)
  | wldPlaneSwitch (uid : Nat)
  | asyncResultLanding (acc : Nat)
  | queueEntryArrival (acc : Nat)
  | fillPortWrite (uid : Nat)
  | streamDeadlock (uid : Nat)
  -- homes
  | homeWriteApply (acc part : Nat) (i : Integ)
  | runawayWindowEnd (bell : Nat)
  | homeReadApply (acc part : Nat) (i : Integ)
  | subtreeRebuild (die first lines : Nat)
  | copyLineTransfer (copy unit : Nat) (i : Integ)
  | copyCompletion (copy : Nat)
  -- translation
  | tlbWalk (walk : Nat)
  | firstTouchPoolRefill (die vd : Nat)
  -- the drover
  | microsecondStep (die : Nat)
  | grazeWindowEnd (die : Nat)
  | droverDecision (die quad : Nat)
  | stopPointReached (uid : Nat) (eng : Engine)
  | forcedStop (uid : Nat) (eng : Engine)
  | slotSwitch (core : Nat)
  | taskPark (uid : Nat)
  | taskRestore (uid : Nat) (i : Integ)
  | heldTaskPark (uid : Nat)
  | taskStarving (uid : Nat)
  | partitionChange (module vd die : Nat) (mask : BitVec 36)
  | trapEntry (uid : Nat)
  | arith (uid : Nat)
  | correctedErrorFreeze (core : Nat)
  | freezeEnd (core : Nat)
  -- the fabric and musters
  | flitReplay (die port : Nat)
  | readRequest (pkt : Nat) (i : Integ)
  | readReply (pkt : Nat)
  | remoteWrite (pkt : Nat) (i : Integ)
  | writeAck (pkt : Nat)
  | atomicRequest (pkt : Nat) (i : Integ)
  | atomicReply (pkt : Nat)
  | multicastStore (pkt : Nat)
  | multicastAck (pkt : Nat)
  | contribution (pkt : Nat)
  | combineSlotTimeout (slot : Nat)
  | result (pkt : Nat)
  | musterJoin (pkt : Nat)
  | musterClose (pkt : Nat)
  | musterReply (pkt : Nat)
  | mctbSend (acc : Nat)
  | barrierArrival (pkt : Nat)
  | barrierRelease (pkt : Nat)
  | staleReport (pkt : Nat)
  -- the host, firmware commands, virtual devices
  | hostMemoryWrite (module : Nat) (w : HostWin) (addr : Nat) (data : List Byte)
  | hostMemoryRead (module : Nat) (w : HostWin) (addr len : Nat)
  | unsupportedRequest (module : Nat)
  | configure (module : Nat) | start (module : Nat) | stop (module : Nat)
  | vdStopped (module vd : Nat)
  | release (module : Nat) | importVd (module : Nat) | exportVd (module : Nat) | abort (module : Nat)
  | migIn (module : Nat) | migOut (module : Nat)
  | sealedBlob (module vd : Nat)
  | confirm (module vd : Nat) | releaseAck (module vd : Nat) | lostReply (module vd : Nat)
  | sealTimeout (module vd : Nat) | importTimeout (module vd : Nat) | commitTimeout (module vd : Nat)
  | measure (module : Nat) | activate (module : Nat) (ok : Bool) | power (module : Nat) | time (module : Nat)
  | dumpclr (module : Nat)
  | measureRequest (module vd : Nat)
  | wopen (module vd : Nat) | wgrant (module vd : Nat) | wclose (module vd : Nat)
  | stage2MappingChange (module vd ipa : Nat) (desc : BitVec 64)
  -- resets, bring-up, care
  | coldReset (module : Nat) | warmReset (module : Nat) | pfFlr (module : Nat) | vfFlr (module vf : Nat)
  | resetRelease (die : Nat)
  | testComplete (die : Nat) (pass : Bool) (up : BitVec 6)
  | arraySelfTestDone (die : Nat) (pass : Bool)
  | dmcWatchdogExpiry (die : Nat) | firmwareStateError (die : Nat) | powerRailFault (die : Nat)
  | thermalTrip (die : Nat) | thermalLimit (die : Nat) | thermalRecovery (die : Nat)
  | powerShareCheck (die mean demand : Nat)
  | healthRecordUpdate (die tmax pw : Nat)
  | marginMeasurement (die slack : Nat)
  | dailyMarginMean (die : Nat)
  | barrierCountLowered (vd gang : Nat) (s : Scope) (inst id : Nat)
  | routeReturn (die port : Nat)
  | configurationRequest (module fn : Nat)
  | malformedPacket (pkt : Nat)
  deriving DecidableEq, Repr, Inhabited

/-- What may happen next (log 4). `issue`: a sequencer of the task active on a core takes its next slot, or stalls;
`err` says whether a read it makes meets an uncorrectable SRAM error, by structure and element (12 R273).
`tick`: the reference clock of a die advances by one. `tilePort`: the tile store performs, for one sequencer, a row access
that is the oldest at its bank's port (09 R217). `badCommand`: firmware answers a command record it does not know (15 R329).
`damage`: a line of HBM is damaged (14 R311). `send`: a part of an access leaves for another die (13 R283, log 24). `resume`: what waits for
a route with no event of its own is tried again (13 R278). `event`: a row of the opcode table that is an event of the machine. -/
inductive Action
  | issue (core : Nat) (eng : Engine) (err : Option (Nat × Nat))
  | tick (die : Nat)
  | tilePort (uid : Nat) (eng : Engine)
  | badCommand (module : Nat)
  | damage (pa : Nat) (i : Integ)
  | send (access part : Nat)
  | resume
  | event (i : Instr)
  deriving DecidableEq, Repr, Inhabited

end Sys2Proof
end

