-- ==== Sys2Proof/Machine/Codes.lean ====
section
/-!
DEFINITION. The numeric codes of the shared field encodings (04 R73 to R93, 00 R11) and of the trap and record causes
(04 R100, 12 R275).
-/

namespace Sys2Proof

/-! ### Cause codes (12 R275) -/

def Cause.linkEngine : Nat := 0x000
def Cause.linkCount : Nat := 0x001
def Cause.linkStop : Nat := 0x002
def Cause.linkSplit : Nat := 0x003
def Cause.chainEnd : Nat := 0x004
def Cause.targetWord : Nat := 0x005
def Cause.targetPointer : Nat := 0x006
def Cause.opcUnassigned : Nat := 0x020
def Cause.fnUnassigned : Nat := 0x021
def Cause.engine : Nat := 0x022
def Cause.rsvdField : Nat := 0x023
def Cause.bundleSlot : Nat := 0x024
def Cause.typeMode : Nat := 0x025
def Cause.exeReg : Nat := 0x040
def Cause.guardSpan : Nat := 0x041
def Cause.unguardable : Nat := 0x042
def Cause.opndKind : Nat := 0x043
def Cause.immRange : Nat := 0x044
def Cause.atomAlign : Nat := 0x045
def Cause.tileHandle : Nat := 0x048
def Cause.tileRow : Nat := 0x049
def Cause.tileDraft : Nat := 0x04A
def Cause.mmaNoplane : Nat := 0x050
def Cause.mmaFormat : Nat := 0x051
def Cause.qRole : Nat := 0x060
def Cause.tokenCount : Nat := 0x061
def Cause.forkBusy : Nat := 0x062
def Cause.barNone : Nat := 0x063
def Cause.streamDeadlock : Nat := 0x064
def Cause.trVaRange : Nat := 0x080
def Cause.trS1Miss : Nat := 0x081
def Cause.trS2Miss : Nat := 0x082
def Cause.trS1Desc : Nat := 0x083
def Cause.trS2Desc : Nat := 0x084
def Cause.trPaRange : Nat := 0x085
def Cause.trFtEmpty : Nat := 0x086
def Cause.prRead : Nat := 0x0A0
def Cause.prWrite : Nat := 0x0A1
def Cause.prExec : Nat := 0x0A2
def Cause.prUser : Nat := 0x0A3
def Cause.prHostSo : Nat := 0x0A4
def Cause.intMac : Nat := 0x0C0
def Cause.intTree : Nat := 0x0C1
def Cause.fbUnreach : Nat := 0x0E0
def Cause.fbNack : Nat := 0x0E1
def Cause.fbGroup : Nat := 0x0E2
def Cause.muQuorum : Nat := 0x100
def Cause.muMember : Nat := 0x101
def Cause.muLag : Nat := 0x102
def Cause.muGroup : Nat := 0x103
def Cause.bellIndex : Nat := 0x120
def Cause.bellRunaway : Nat := 0x121
def Cause.bellMailbox : Nat := 0x122
def Cause.bellUnmapped : Nat := 0x123
def Cause.copyAlign : Nat := 0x140
def Cause.copyExtent : Nat := 0x141
def Cause.copyKind : Nat := 0x142
def Cause.copyParam : Nat := 0x143
def Cause.arith : Nat := 0x160
def Cause.priv : Nat := 0x180
def Cause.contextImage : Nat := 0x1A0
def Cause.doubleTrap : Nat := 0x1A1
def Cause.mcSram : Nat := 0x1C0
def Cause.mcHbm : Nat := 0x1C1
def Cause.mcFrame : Nat := 0x1C2
def Cause.software : Nat := 0x1E0

/-! ### Field codes -/

/-- Engine codes of the link word and of FORK (03 R52, 04 R83). -/
def Engine.code : Engine → Nat
  | .ctl => 0 | .lda => 1 | .exe => 2 | .sta => 3

def Engine.ofCode (n : Nat) : Engine :=
  match n with | 0 => .ctl | 1 => .lda | 2 => .exe | _ => .sta

/-- Scope codes (00 R11). -/
def Scope.code : Scope → Nat
  | .lane => 0 | .core => 1 | .quad => 2 | .die => 3 | .pkg => 4 | .pod => 5

def Scope.ofCode (n : Nat) : Option Scope :=
  match n with
  | 0 => some .lane | 1 => some .core | 2 => some .quad | 3 => some .die | 4 => some .pkg | 5 => some .pod | _ => none

/-- Type codes (04 R76). -/
def Ty.code : Ty → Nat
  | .f32 => 0 | .bf16 => 1 | .f16 => 2 | .e4m3 => 3 | .e5m2 => 4 | .mx8 => 5 | .mx4 => 6 | .q4o => 7 | .sf8 => 8
  | .i32 => 9 | .i16 => 10 | .i8 => 11 | .n32 => 12 | .n16 => 13 | .n8 => 14

def Ty.ofCode (n : Nat) : Option Ty :=
  match n with
  | 0 => some .f32 | 1 => some .bf16 | 2 => some .f16 | 3 => some .e4m3 | 4 => some .e5m2 | 5 => some .mx8
  | 6 => some .mx4 | 7 => some .q4o | 8 => some .sf8 | 9 => some .i32 | 10 => some .i16 | 11 => some .i8
  | 12 => some .n32 | 13 => some .n16 | 14 => some .n8 | _ => none

/-- Rounding codes (04 R77). -/
def Rnd.code : Rnd → Nat
  | .rne => 0 | .rtz => 1 | .rdn => 2 | .rup => 3 | .rna => 4 | .rsr => 5

def Rnd.ofCode (n : Nat) : Option Rnd :=
  match n with
  | 0 => some .rne | 1 => some .rtz | 2 => some .rdn | 3 => some .rup | 4 => some .rna | 5 => some .rsr | _ => none

/-- Condition codes (04 R78). -/
def Cond.code : Cond → Nat
  | .eq => 0 | .ne => 1 | .lt => 2 | .ge => 3 | .ltn => 4 | .gen => 5 | .tst => 6 | .ntst => 7

def Cond.ofCode (n : Nat) : Cond :=
  match n with
  | 0 => .eq | 1 => .ne | 2 => .lt | 3 => .ge | 4 => .ltn | 5 => .gen | 6 => .tst | _ => .ntst

/-- VCMP condition codes (04 R89). -/
def VCond.code : VCond → Nat
  | .eq => 0 | .ne => 1 | .lt => 2 | .le => 3 | .gt => 4 | .ge => 5 | .un => 6 | .or => 7

def VCond.ofCode (n : Nat) : VCond :=
  match n with
  | 0 => .eq | 1 => .ne | 2 => .lt | 3 => .le | 4 => .gt | 5 => .ge | 6 => .un | _ => .or

/-- VRED and VSCAN op codes (04 R89). -/
def RedOp.code : RedOp → Nat
  | .sum => 0 | .max => 1 | .min => 2

def RedOp.ofCode (n : Nat) : Option RedOp :=
  match n with | 0 => some .sum | 1 => some .max | 2 => some .min | _ => none

/-- Memory width codes (04 R79). -/
def Width.code : Width → Nat
  | .n8 => 0 | .n16 => 1 | .n32 => 2 | .w64 => 3 | .i8 => 4 | .i16 => 5 | .i32 => 6

def Width.ofCode (n : Nat) : Option Width :=
  match n with
  | 0 => some .n8 | 1 => some .n16 | 2 => some .n32 | 3 => some .w64 | 4 => some .i8 | 5 => some .i16
  | 6 => some .i32 | _ => none

/-- ATOM ord codes (04 R79). -/
def AtomOrd.code : AtomOrd → Nat
  | .relaxed => 0 | .acq => 1 | .rel => 2 | .ar => 3

def AtomOrd.ofCode (n : Nat) : AtomOrd :=
  match n with | 0 => .relaxed | 1 => .acq | 2 => .rel | _ => .ar

/-- FENCEX path-class codes (04 R80). -/
def PathClass.code : PathClass → Nat
  | .ld => 0 | .st => 1 | .cp => 2 | .fb => 3 | .bl => 4

def PathClass.ofCode (n : Nat) : Option PathClass :=
  match n with
  | 0 => some .ld | 1 => some .st | 2 => some .cp | 3 => some .fb | 4 => some .bl | _ => none

/-- Endpoint-kind codes of the copy family (04 R90). -/
def EndKind.code : EndKind → Nat
  | .mem => 0 | .tile => 1

/-- COPYR reductions (04 R90). -/
def Rop.code : Rop → Nat
  | .add => 0 | .max => 1 | .min => 2 | .cpadd => 3

def Rop.ofCode (n : Nat) : Option Rop :=
  match n with | 0 => some .add | 1 => some .max | 2 => some .min | 3 => some .cpadd | _ => none

/-- Directions of a frame operand field (04 R73). -/
def Dir.code : Dir → Nat
  | .h => 0 | .v => 1 | .d => 2

/-- Queue codes (04 R73). -/
def Queue.code : Queue → Nat
  | .qa i => i.toNat | .qv i => 4 + i.toNat | .qw => 8 | .qs i => 12 + i.toNat

def Queue.ofCode (n : Nat) : Option Queue :=
  if n < 4 then some (.qa (BitVec.ofNat 2 n))
  else if n < 8 then some (.qv (BitVec.ofNat 2 (n - 4)))
  else if n = 8 then some .qw
  else if n < 12 then none
  else if n < 16 then some (.qs (BitVec.ofNat 2 (n - 12)))
  else none

/-- Queues that LDA fills, as queues (04 R74). -/
def InQueue.queue : InQueue → Queue
  | .qa i => .qa i | .qv i => .qv i | .qw => .qw

/-- Control-register numbers (04 R93). -/
def Csr.code : Csr → Nat
  | .cfgPlace => 0x000 | .cfgTask => 0x001 | .cfgVd => 0x002 | .clkRef => 0x008
  | .rngKey => 0x010 | .rngCtrLo => 0x011 | .rngCtrHi => 0x012 | .arFlags => 0x018 | .arTrap => 0x019
  | .trCause => 0x100 | .trEpc => 0x101 | .trVal => 0x102 | .trFrom => 0x103 | .trVec => 0x104 | .trEng => 0x105
  | .exeOwn => 0x108 | .vmS1root => 0x110 | .vmAsid => 0x111 | .vmS2root => 0x200 | .vmVd => 0x201

def Csr.ofCode (n : Nat) : Option Csr :=
  match n with
  | 0x000 => some .cfgPlace | 0x001 => some .cfgTask | 0x002 => some .cfgVd | 0x008 => some .clkRef
  | 0x010 => some .rngKey | 0x011 => some .rngCtrLo | 0x012 => some .rngCtrHi | 0x018 => some .arFlags
  | 0x019 => some .arTrap | 0x100 => some .trCause | 0x101 => some .trEpc | 0x102 => some .trVal
  | 0x103 => some .trFrom | 0x104 => some .trVec | 0x105 => some .trEng | 0x108 => some .exeOwn
  | 0x110 => some .vmS1root | 0x111 => some .vmAsid | 0x200 => some .vmS2root | 0x201 => some .vmVd
  | _ => none

/-! ### Frame operand fields (04 R73) -/

/-- What a 12-bit frame operand field names. -/
inductive Opnd | vec (f : FVec) | queue (q : Queue) | bcast (g : BitVec 4)
  deriving DecidableEq, Repr

/-- The operand a field names; none for a reserved kind, a reserved queue code or nonzero bits [6:4] under
direction 11 (04 R73). -/
def Opnd.ofField (f : Nat) : Option Opnd :=
  match f / 128 % 4 with
  | 0 => some (.vec ⟨BitVec.ofNat 3 (f / 512), .h, BitVec.ofNat 7 (f % 128)⟩)
  | 1 => some (.vec ⟨BitVec.ofNat 3 (f / 512), .v, BitVec.ofNat 7 (f % 128)⟩)
  | 2 => some (.vec ⟨BitVec.ofNat 3 (f / 512), .d, BitVec.ofNat 7 (f % 128)⟩)
  | _ =>
    if f / 16 % 8 ≠ 0 then none
    else if f / 512 % 8 = 0 then (Queue.ofCode (f % 16)).map .queue
    else if f / 512 % 8 = 1 then some (.bcast (BitVec.ofNat 4 (f % 16)))
    else none

/-- The field of a frame vector. -/
def FVec.field (f : FVec) : Nat := f.reg.toNat * 512 + f.dir.code * 128 + f.idx.toNat

/-- The field of a queue. -/
def Queue.field (q : Queue) : Nat := 384 + q.code

/-- The field of a scalar broadcast. -/
def bcastField (g : BitVec 4) : Nat := 512 + 384 + g.toNat

def VSrc.field : VSrc → Nat
  | .vec f => f.field | .qv i => Queue.field (.qv i) | .bcast g => bcastField g

def VDst.field : VDst → Nat
  | .vec f => f.field | .qs i => Queue.field (.qs i)

def PushSrc.field : PushSrc → Nat
  | .vec f => f.field | .bcast g => bcastField g

/-- A vector source position accepts h, v, d, QV and a broadcast (04 R74). -/
def Opnd.vsrc? : Opnd → Option VSrc
  | .vec f => some (.vec f) | .queue (.qv i) => some (.qv i) | .bcast g => some (.bcast g) | _ => none

/-- A vector destination position accepts h, v, d and QS (04 R74). -/
def Opnd.vdst? : Opnd → Option VDst
  | .vec f => some (.vec f) | .queue (.qs i) => some (.qs i) | _ => none

def Opnd.fvec? : Opnd → Option FVec
  | .vec f => some f | _ => none

def Opnd.bcast? : Opnd → Option (BitVec 4)
  | .bcast g => some g | _ => none

def Opnd.push? : Opnd → Option PushSrc
  | .vec f => some (.vec f) | .bcast g => some (.bcast g) | _ => none

def Opnd.qv? : Opnd → Option (BitVec 2)
  | .queue (.qv i) => some i | _ => none

def Opnd.qs? : Opnd → Option (BitVec 2)
  | .queue (.qs i) => some i | _ => none

/-- The queue position of LDQ, LDR, MLDR and TRD (04 R74). -/
def Queue.in? : Queue → Option InQueue
  | .qa i => some (.qa i) | .qv i => some (.qv i) | .qw => some .qw | _ => none

def Opnd.in? : Opnd → Option InQueue
  | .queue q => q.in? | _ => none

end Sys2Proof
end

