-- ==== Sys2Proof/Machine/Checks.lean ====
section
/-!
DEFINITION. The checks of 04 R101 that depend only on an instruction and the executing engine: which engine accepts it,
which types and rounding modes it accepts, its register fields in EXE, its immediate ranges and its token-queue role.
-/

namespace Sys2Proof

/-! ### Engines (04 R97) -/

/-- The engines that accept a major opcode; none for an unassigned one (04 R97). -/
def majorEngines (major : Nat) : List Engine :=
  match major with
  | 0x01 | 0x02 | 0x03 | 0x07 | 0x10 | 0x11 | 0x12 | 0x13 | 0x14 | 0x15 | 0x16 | 0x17 | 0x18 | 0x19 | 0x1A | 0x1B
  | 0x21 | 0x22 | 0x23 | 0x2D => [.ctl, .lda, .exe, .sta]
  | 0x04 | 0x05 | 0x06 | 0x24 | 0x25 | 0x26 | 0x27 | 0x4F | 0x50 => [.ctl, .lda, .sta]
  | 0x20 | 0x28 | 0x2A | 0x2B | 0x2C | 0x2E | 0x2F | 0x30 | 0x40 | 0x41 | 0x42 | 0x43 | 0x44 | 0x48 | 0x49 | 0x4C
  | 0x4E | 0x51 => [.ctl]
  | 0x29 | 0x31 | 0x32 | 0x35 | 0x38 | 0x3B | 0x3C | 0x45 | 0x4A | 0x4B | 0x4D => [.lda]
  | 0x33 | 0x34 | 0x36 | 0x37 | 0x39 | 0x3A | 0x46 | 0x47 => [.sta]
  | 0x58 | 0x59 | 0x5A | 0x5B | 0x60 | 0x61 | 0x62 | 0x63 | 0x64 | 0x65 | 0x66 | 0x67 | 0x68 | 0x69 | 0x6A | 0x6B
  | 0x6C | 0x6D | 0x6E | 0x6F | 0x70 | 0x71 | 0x72 | 0x73 => [.exe]
  | _ => []

/-- The majors whose instructions take two words (04 R85). -/
def twoWord (major : Nat) : Bool :=
  match major with
  | 0x32 | 0x34 | 0x37 | 0x3A | 0x3B | 0x4B | 0x5A => true
  | 0x60 | 0x61 | 0x62 | 0x63 | 0x64 | 0x65 | 0x66 | 0x67 | 0x68 | 0x69 | 0x6A | 0x6B | 0x6C | 0x6D | 0x6E | 0x6F
  | 0x70 | 0x71 => true
  | _ => false

/-! ### Types and rounding modes (18 R413, 10 R229, R230, R236, 17 R379, 16 R360) -/

/-- f32, bf16 and f16. -/
def Ty.isWide : Ty → Bool
  | .f32 | .bf16 | .f16 => true
  | _ => false

/-- The six integer types. -/
def Ty.isInteger : Ty → Bool
  | .i32 | .i16 | .i8 | .n32 | .n16 | .n8 => true
  | _ => false

/-- The block types. -/
def Ty.isBlock : Ty → Bool
  | .mx8 | .mx4 | .q4o | .sf8 => true
  | _ => false

/-- VADD, VSUB, VMUL, and the sums of VRED and VSCAN. -/
def okArith (t : Ty) (r : Rnd) : Bool := t.isWide || (t.isInteger && r == .rne)

/-- VMIN, VMAX, VCMP, and the maxima and minima of VRED and VSCAN. -/
def okOrder (t : Ty) (r : Rnd) : Bool := (t.isWide || t.isInteger) && r == .rne

/-- VSHL and VSHR. -/
def okShift (t : Ty) (r : Rnd) : Bool := t.isInteger && r == .rne

/-- The bitwise operations, VMOV and VSEL: every type. -/
def okBitwise (_ : Ty) (r : Rnd) : Bool := r == .rne

/-- VABS and VNEG: no unsigned type. -/
def okSign (t : Ty) (r : Rnd) : Bool :=
  (match t with | .f32 | .bf16 | .f16 | .i32 | .i16 | .i8 => true | _ => false) && r == .rne

/-- The functions of V1 and the fused forms. -/
def okFloat (t : Ty) (_ : Rnd) : Bool := t.isWide

/-- A type of VCVT or VMAXI. -/
def okConv (t : Ty) : Bool :=
  match t with | .e4m3 | .e5m2 => true | _ => t.isWide || t.isInteger

/-- VMAXI. -/
def okMaxi (t : Ty) (r : Rnd) : Bool := okConv t && r == .rne

/-- VLUT. -/
def okLut (t : Ty) (r : Rnd) : Bool := t == .f32 || (t == .n32 && r == .rne)

/-- RNGV. -/
def okRngv (t : Ty) (r : Rnd) : Bool := (t == .f32 || t == .n32) && r == .rne

/-- SELK. -/
def okSelk (t : Ty) (r : Rnd) : Bool := (t == .f32 || t == .i32 || t == .n32) && r == .rne

/-- SMPL. -/
def okSmpl (t : Ty) (r : Rnd) : Bool := t == .f32 && r == .rne

/-- VRED and VSCAN, by operation. -/
def okRed (op : RedOp) (t : Ty) (r : Rnd) : Bool :=
  match op with | .sum => okArith t r | .max | .min => okOrder t r

/-- VCMP: the unordered conditions take no integer type (04 R89). -/
def okCmp (c : VCond) (t : Ty) (r : Rnd) : Bool :=
  okOrder t r && !(t.isInteger && (c == .un || c == .or))

/-- Latched formats, and the activation formats of MMA and MMAT (10 R229, R230). -/
def okPlane (t : Ty) : Bool :=
  match t with | .bf16 | .f16 | .e4m3 | .e5m2 | .mx8 | .mx4 | .q4o | .sf8 | .i8 => true | _ => false

/-- COPYR (16 R360). -/
def okCopyr (rop : Rop) (t : Ty) : Bool :=
  match rop with
  | .cpadd => t == .f32
  | _ => t == .f32 || t == .bf16 || t == .i32 || t == .n32

/-- Whether the type and rounding of an instruction are ones it accepts (18 R413). -/
def Instr.typesOk : Instr → Bool
  | .vadd _ _ _ t r | .vsub _ _ _ t r | .vmul _ _ _ t r => okArith t r
  | .vmin _ _ _ t | .vmax _ _ _ t => okOrder t .rne
  | .vshl _ _ _ t | .vshr _ _ _ t => okShift t .rne
  | .vcmp c _ _ _ t => okCmp c t .rne
  | .vabs _ _ t | .vneg _ _ t => okSign t .rne
  | .vexp _ _ t r | .vlog _ _ t r | .vrcp _ _ t r | .vrsq _ _ t r | .vsqrt _ _ t r | .vtanh _ _ t r => okFloat t r
  | .vfma _ _ _ _ t r | .vfms _ _ _ _ t r | .vfnma _ _ _ _ t r => okFloat t r
  | .vcvt _ _ d s _ => okConv d && okConv s
  | .vqnt _ _ _ _ t _ | .vdq _ _ _ t _ => t.isBlock
  | .vred op _ _ t r | .vscan op _ _ t r => okRed op t r
  | .vmaxi _ _ t => okMaxi t .rne
  | .vlut _ _ _ t r => okLut t r
  | .rngv _ t => okRngv t .rne
  | .selk _ _ _ _ t => okSelk t .rne
  | .wld t _ | .mma _ _ t _ _ | .mmat _ _ t _ _ _ _ => okPlane t
  | .copyr _ _ _ _ _ _ rop t _ => okCopyr rop t
  | _ => true

/-! ### Register fields (02 R28) -/

/-- The 5-bit register fields of an instruction that EXE can run. -/
def Instr.exeRegs : Instr → List GReg
  | .grd r _ _ _ => [r]
  | .loop a _ _ => [a]
  | .add d a b | .sub d a b | .mul d a b | .mulh d a b | .mulhn d a b | .div d a b | .divn d a b | .rem d a b
  | .remn d a b | .and d a b | .or d a b | .xor d a b | .andn d a b | .shl d a b | .shr d a b | .sar d a b
  | .rotr d a b | .min d a b | .max d a b | .minn d a b | .maxn d a b | .cmp d a b _ => [d, a, b]
  | .clz d a | .ctz d a | .popc d a | .mov d a => [d, a]
  | .addi d a _ | .andi d a _ | .ori d a _ | .xori d a _ | .shli d a _ | .shri d a _ | .sari d a _ => [d, a]
  | .movi d _ | .movhi d _ _ => [d]
  | .bfx d a _ _ | .bfi d a _ _ => [d, a]
  | .sigtReg _ a | .waittReg _ a => [a]
  | _ => []

/-! ### Ranges (04 R81, R83) and token-queue roles (02 R36, R37) -/

/-- Scopes 1 to 5 (04 R81). -/
def Scope.isFence (s : Scope) : Bool := s != .lane

/-- The barrier identifiers of a scope (04 R81); none for a scope BAR does not accept. -/
def barIds : Scope → Nat
  | .quad => 16 | .die => 64 | .pkg => 64 | .pod => 256 | _ => 0

/-- Whether the immediates of an instruction lie in the ranges of 04 R81 and R83. -/
def Instr.rangesOk : Instr → Bool
  | .bfx _ _ l w | .bfi _ _ l w => l.toNat + w.toNat + 1 ≤ 64
  | .fence s | .fenceAcq s | .fenceRel s | .fencex s _ _ => s.isFence
  | .bar s id => id.toNat < barIds s
  | .ldLong _ _ _ (.acq s) _ | .ldLong _ _ _ (.sc s) _ => s.isFence
  | .stLong _ _ _ (.rel s) _ | .stLong _ _ _ (.sc s) _ => s.isFence
  | .atomSwap _ _ _ s _ _ | .atomAdd _ _ _ s _ _ | .atomAnd _ _ _ s _ _ | .atomOr _ _ _ s _ _
  | .atomXor _ _ _ s _ _ | .atomMin _ _ _ s _ _ | .atomMax _ _ _ s _ _ | .atomMinn _ _ _ s _ _
  | .atomMaxn _ _ _ s _ _ => s.isFence
  | .atomCas _ _ _ _ s _ _ => s.isFence
  | .atomFadd _ _ _ s _ => s.isFence
  | .wacq _ s | .wrel _ s => s.isFence
  | .tlbiVa s _ _ | .tlbiAsid s _ | .tlbiVd s | .tlbiIpa s _ _ | .tlbiS2Vd s _ => s.isFence
  | _ => true

/-- The producers of a token queue (02 R36). -/
def tokenProducers (k : BitVec 3) : List Engine :=
  match k.toNat with
  | 0 | 1 | 2 => [.ctl] | 3 => [.lda] | 4 => [.exe] | 5 => [.sta] | 6 => [.exe] | _ => [.ctl, .lda, .exe, .sta]

/-- The consumer of a token queue (02 R36). -/
def tokenConsumer (k : BitVec 3) : Engine :=
  match k.toNat with
  | 0 => .lda | 1 => .exe | 2 => .sta | 3 => .exe | 4 => .sta | 5 => .lda | 6 => .lda | _ => .ctl

/-- The token-queue role check (02 R37). -/
def Instr.roleOk (e : Engine) : Instr → Bool
  | .sigtImm k _ | .sigtReg k _ => (tokenProducers k).contains e
  | .waittImm k _ | .waittReg k _ => tokenConsumer k == e
  | _ => true

/-- The checks 7 to 9 of 04 R101 that an instruction can fail, in their order, as a cause code. -/
def Instr.operandTrap (e : Engine) (i : Instr) : Option Nat :=
  if !i.typesOk then some Cause.typeMode
  else if e == .exe && i.exeRegs.any (fun r => 16 ≤ r.toNat) then some Cause.exeReg
  else if !i.rangesOk then some Cause.immRange
  else if !i.roleOk e then some Cause.qRole
  else none

end Sys2Proof
end

