-- ==== Sys2Proof/WellFormed.lean ====
section
/-!
DEFINITION. Which instructions are well formed for an engine: the engine accepts them, they have an encoding, and they
pass every operand check of 04 R101 that needs no state.
-/

namespace Sys2Proof

/-- Whether a row of the opcode table is an instruction of the instruction set, with an encoding, and not an event. -/
def Instr.engines : Instr → List Engine
  | .nop | .grd _ _ _ _ | .br _ _ | .loop _ _ _ => [.ctl, .lda, .exe, .sta]
  | .call _ _ | .jr _ | .ret => [.ctl, .lda, .sta]
  | .add _ _ _ | .sub _ _ _ | .mul _ _ _ | .mulh _ _ _ | .mulhn _ _ _ | .div _ _ _ | .divn _ _ _ | .rem _ _ _
  | .remn _ _ _ | .and _ _ _ | .or _ _ _ | .xor _ _ _ | .andn _ _ _ | .shl _ _ _ | .shr _ _ _ | .sar _ _ _
  | .rotr _ _ _ | .min _ _ _ | .max _ _ _ | .minn _ _ _ | .maxn _ _ _ | .cmp _ _ _ _ | .clz _ _ | .ctz _ _
  | .popc _ _ | .mov _ _ | .addi _ _ _ | .andi _ _ _ | .ori _ _ _ | .xori _ _ _ | .shli _ _ _ | .shri _ _ _
  | .sari _ _ _ | .movi _ _ | .movhi _ _ _ | .bfx _ _ _ _ | .bfi _ _ _ _ => [.ctl, .lda, .exe, .sta]
  | .rdv | .sigtImm _ _ | .sigtReg _ _ | .waittImm _ _ | .waittReg _ _ | .trap _ _ => [.ctl, .lda, .exe, .sta]
  | .waitc _ _ | .drain _ | .fence _ | .fenceAcq _ | .fenceRel _ | .fencex _ _ _ | .wacq _ _ | .wrel _ _ =>
    [.ctl, .lda, .sta]
  | .fork _ _ _ _ | .bar _ _ | .yield | .spawn _ _ _ | .exit | .tret | .csrr _ _ | .csrw _ _ _ | .csrs _ _ _
  | .csrc _ _ _ | .tlbiVa _ _ _ | .tlbiAsid _ _ | .tlbiVd _ | .tlbiIpa _ _ _ | .tlbiS2Vd _ _ | .bellset _ _ _ _
  | .bellclr _ | .bellqry _ _ | .talloc _ _ _ _ _ | .tfree _ | .tdraft _ _ _ | .tcommit _ _ _ | .mjoin _ _ _
  | .mclose _ _ _ | .rngadv _ _ => [.ctl]
  | .waitv _ _ _ _ _ | .ld _ _ _ _ | .ldLong _ _ _ _ _ | .ldq _ _ _ | .ldr _ _ _ | .mldr _ _ _ _ _ | .pref _ _
  | .prefTree _ _ | .trd _ _ _ _ | .nest _ _ _ _ _ | .nestEvent _ _ _ | .copy _ _ _ _ _ _ _ | .copyw _ _ _ _ _ _ _ _
  | .copyg _ _ _ _ _ _ _ _ | .copys _ _ _ _ _ _ _ _ | .copyr _ _ _ _ _ _ _ _ _ | .wbf _ _ _ _ _ _ | .mctb _ _ _ =>
    [.lda]
  | .st _ _ _ _ | .stLong _ _ _ _ _ | .stq _ _ _ | .atomSwap _ _ _ _ _ _ | .atomCas _ _ _ _ _ _ _
  | .atomAdd _ _ _ _ _ _ | .atomAnd _ _ _ _ _ _ | .atomOr _ _ _ _ _ _ | .atomXor _ _ _ _ _ _ | .atomMin _ _ _ _ _ _
  | .atomMax _ _ _ _ _ _ | .atomMinn _ _ _ _ _ _ | .atomMaxn _ _ _ _ _ _ | .atomFadd _ _ _ _ _ | .str _ _ _
  | .mst _ _ _ _ _ | .twr _ _ _ _ | .tzero _ _ _ _ => [.sta]
  | .wld _ _ | .mma _ _ _ _ _ | .mmat _ _ _ _ _ _ _ | .mzero _ | .vadd _ _ _ _ _ | .vsub _ _ _ _ _ | .vmul _ _ _ _ _
  | .vmin _ _ _ _ | .vmax _ _ _ _ | .vand _ _ _ _ | .vor _ _ _ _ | .vxor _ _ _ _ | .vshl _ _ _ _ | .vshr _ _ _ _
  | .vcmp _ _ _ _ _ | .vabs _ _ _ | .vneg _ _ _ | .vnot _ _ _ | .vmov _ _ _ | .vexp _ _ _ _ | .vlog _ _ _ _
  | .vrcp _ _ _ _ | .vrsq _ _ _ _ | .vsqrt _ _ _ _ | .vtanh _ _ _ _ | .vfma _ _ _ _ _ _ | .vfms _ _ _ _ _ _
  | .vfnma _ _ _ _ _ _ | .vsel _ _ _ _ _ | .vcvt _ _ _ _ _ | .vqnt _ _ _ _ _ _ | .vdq _ _ _ _ _ | .vred _ _ _ _ _
  | .vscan _ _ _ _ _ | .vmaxi _ _ _ | .vperm _ _ _ | .vbcst _ _ _ | .vlut _ _ _ _ _ | .selk _ _ _ _ _ | .rngv _ _
  | .smpl _ _ _ | .vpop _ _ | .vpush _ _ => [.exe]
  | _ => []

/-- The values of the syntax that no encoding has: FORK of CTL (04 R83), NEST levels 6 and 7 of the stride form
(11 R240), signed widths of ST (04 R79), a whole register named twice by SELK (10 R236). -/
def Instr.encodable : Instr → Bool
  | .fork e _ _ _ => e != .ctl
  | .nest _ l _ _ _ => l.toNat < 6
  | .st _ _ w _ | .stLong _ _ w _ _ => (match w with | .n8 | .n16 | .n32 | .w64 => true | _ => false)
  | .selk zi zv _ _ _ => zi != zv
  | _ => true

/-- An instruction that engine e can be given and that no check of 04 R101 refuses. -/
def Instr.wf (e : Engine) (i : Instr) : Bool :=
  i.engines.contains e && i.encodable && i.operandTrap e == none

end Sys2Proof
end

