-- ==== Sys2Proof/Decode.lean ====
section
/-!
DEFINITION. From bits to instructions and back, from the tables of 04. `readInstr` reads the fields of one instruction
and fails with the cause code of the first check of 04 R101 that the encoding fails; `decode` adds the checks on the
operands; `encode` writes the words of an instruction.
-/

namespace Sys2Proof

/-! ### Fields -/

/-- Bits h down to l of a word. -/
def fld (w h l : Nat) : Nat := w / 2 ^ l % 2 ^ (h + 1 - l)

/-- The n bits of a word from bit l upward. -/
def fb (n w l : Nat) : BitVec n := BitVec.ofNat n (w / 2 ^ l)

/-- Go on if the condition holds, else fail with the cause. -/
def need {α : Type} (b : Bool) (cause : Nat) (k : Except Nat α) : Except Nat α :=
  if b then k else .error cause

/-- Go on with the value if there is one, else fail with the cause. -/
def needSome {α β : Type} (o : Option α) (cause : Nat) (k : α → Except Nat β) : Except Nat β :=
  match o with
  | some a => k a
  | none => .error cause

/-- Go on if the field holds 0, else fail with RSVD_FIELD. -/
def zeros {α : Type} (w h l : Nat) (k : Except Nat α) : Except Nat α := need (fld w h l == 0) Cause.rsvdField k

/-! ### Scalar formats -/

/-- ALU family, major 0x10 (04 R86). -/
def readAlu (w : Nat) : Except Nat Instr :=
  let d := fb 5 w 19
  let a := fb 5 w 14
  let b := fb 5 w 9
  let three (i : Instr) : Except Nat Instr := zeros w 8 6 (.ok i)
  let two (i : Instr) : Except Nat Instr := zeros w 13 9 (zeros w 8 6 (.ok i))
  match fld w 5 0 with
  | 0x00 => three (.add d a b) | 0x01 => three (.sub d a b) | 0x02 => three (.mul d a b)
  | 0x03 => three (.mulh d a b) | 0x04 => three (.mulhn d a b) | 0x05 => three (.div d a b)
  | 0x06 => three (.divn d a b) | 0x07 => three (.rem d a b) | 0x08 => three (.remn d a b)
  | 0x09 => three (.and d a b) | 0x0A => three (.or d a b) | 0x0B => three (.xor d a b)
  | 0x0C => three (.andn d a b) | 0x0D => three (.shl d a b) | 0x0E => three (.shr d a b)
  | 0x0F => three (.sar d a b) | 0x10 => three (.rotr d a b) | 0x11 => three (.min d a b)
  | 0x12 => three (.max d a b) | 0x13 => three (.minn d a b) | 0x14 => three (.maxn d a b)
  | 0x15 => .ok (.cmp d a b (Cond.ofCode (fld w 8 6)))
  | 0x16 => two (.clz d a) | 0x17 => two (.ctz d a) | 0x18 => two (.popc d a) | 0x19 => two (.mov d a)
  | _ => .error Cause.fnUnassigned

/-- Majors 0x01 to 0x1B other than the ALU family (04 R82, R83). -/
def readScalar (maj w : Nat) : Except Nat Instr :=
  let d := fb 5 w 19
  let a := fb 5 w 14
  match maj with
  | 0x01 => zeros w 23 0 (.ok .nop)
  | 0x02 => zeros w 9 0 (.ok (.grd d (fb 6 w 13) (fld w 12 12 == 1) (fb 2 w 10)))
  | 0x03 => .ok (.br (fb 20 w 4) (fb 4 w 0))
  | 0x04 => .ok (.call (fb 20 w 4) (fb 4 w 0))
  | 0x05 => zeros w 23 19 (zeros w 13 0 (.ok (.jr a)))
  | 0x06 => zeros w 23 0 (.ok .ret)
  | 0x07 => .ok (.loop d (fb 15 w 4) (fb 4 w 0))
  | 0x11 => .ok (.addi d a (fb 14 w 0))
  | 0x12 => .ok (.andi d a (fb 14 w 0))
  | 0x13 => .ok (.ori d a (fb 14 w 0))
  | 0x14 => .ok (.xori d a (fb 14 w 0))
  | 0x15 => zeros w 13 6 (.ok (.shli d a (fb 6 w 0)))
  | 0x16 => zeros w 13 6 (.ok (.shri d a (fb 6 w 0)))
  | 0x17 => zeros w 13 6 (.ok (.sari d a (fb 6 w 0)))
  | 0x18 => .ok (.movi d (fb 19 w 0))
  | 0x19 => zeros w 18 18 (.ok (.movhi d (fb 2 w 16) (fb 16 w 0)))
  | 0x1A => zeros w 1 0 (.ok (.bfx d a (fb 6 w 8) (fb 6 w 2)))
  | _ => zeros w 1 0 (.ok (.bfi d a (fb 6 w 8) (fb 6 w 2)))

/-! ### Task, fence and system formats -/

/-- Go on with the scope of a field, RSVD_FIELD for codes 6 and 7 (00 R11). -/
def scopeAt (w h l : Nat) (k : Scope → Except Nat Instr) : Except Nat Instr :=
  needSome (Scope.ofCode (fld w h l)) Cause.rsvdField k

/-- SIGT and WAITT: the count from the immediate (m = 0) or a register (m = 1) (04 R83). -/
def readToken (w : Nat) (imm : BitVec 3 → BitVec 8 → Instr) (reg : BitVec 3 → GReg → Instr) : Except Nat Instr :=
  zeros w 6 0 (
    if fld w 20 20 = 0 then zeros w 11 7 (.ok (imm (fb 3 w 21) (fb 8 w 12)))
    else zeros w 19 12 (.ok (reg (fb 3 w 21) (fb 5 w 7))))

/-- FENCE kinds (04 R80). -/
def readFence (w : Nat) : Except Nat Instr :=
  zeros w 18 0 (scopeAt w 23 21 fun s =>
    match fld w 20 19 with
    | 0 => .ok (.fence s) | 1 => .ok (.fenceAcq s) | 2 => .ok (.fenceRel s) | _ => .error Cause.rsvdField)

/-- FENCEX (04 R80). -/
def readFencex (w : Nat) : Except Nat Instr :=
  zeros w 14 0 (scopeAt w 23 21 fun s =>
    needSome (PathClass.ofCode (fld w 20 18)) Cause.rsvdField fun p =>
    needSome (PathClass.ofCode (fld w 17 15)) Cause.rsvdField fun q => .ok (.fencex s p q))

/-- The CSR family (04 R93). -/
def readCsr (w : Nat) : Except Nat Instr :=
  needSome (Csr.ofCode (fld w 13 2)) Cause.fnUnassigned fun c =>
  let d := fb 5 w 19
  let a := fb 5 w 14
  match fld w 1 0 with
  | 0 => zeros w 18 14 (.ok (.csrr d c))
  | 1 => .ok (.csrw d a c)
  | 2 => .ok (.csrs d a c)
  | _ => .ok (.csrc d a c)

/-- TLBI (04 R91). -/
def readTlbi (w : Nat) : Except Nat Instr :=
  zeros w 7 0 (scopeAt w 23 21 fun s =>
    let a := fb 5 w 13
    let b := fb 5 w 8
    match fld w 20 18 with
    | 0 => .ok (.tlbiVa s a b)
    | 1 => zeros w 17 13 (.ok (.tlbiAsid s b))
    | 2 => zeros w 17 8 (.ok (.tlbiVd s))
    | 3 => .ok (.tlbiIpa s a b)
    | 4 => zeros w 17 13 (.ok (.tlbiS2Vd s b))
    | _ => .error Cause.rsvdField)

/-- Majors 0x20 to 0x30 (04 R82, R92). -/
def readTask (maj w : Nat) : Except Nat Instr :=
  let d := fb 5 w 19
  let a := fb 5 w 14
  let b := fb 5 w 9
  match maj with
  | 0x20 => zeros w 21 19 (zeros w 3 0 (need (fld w 23 22 != 0) Cause.rsvdField
      (.ok (.fork (Engine.ofCode (fld w 23 22)) a b (fb 5 w 4)))))
  | 0x21 => zeros w 23 0 (.ok .rdv)
  | 0x22 => readToken w .sigtImm .sigtReg
  | 0x23 => readToken w .waittImm .waittReg
  | 0x24 => zeros w 7 0 (.ok (.waitc (fb 4 w 20) (fb 12 w 8)))
  | 0x25 => zeros w 19 0 (.ok (.drain (fb 4 w 20)))
  | 0x26 => readFence w
  | 0x27 => readFencex w
  | 0x28 => zeros w 12 0 (scopeAt w 23 21 fun s => .ok (.bar s (fb 8 w 13)))
  | 0x29 => zeros w 8 4 (.ok (.waitv d a b (Cond.ofCode (fld w 3 1)) (fld w 0 0 == 1)))
  | 0x2A => zeros w 23 0 (.ok .yield)
  | 0x2B => zeros w 8 0 (.ok (.spawn d a b))
  | 0x2C => zeros w 23 0 (.ok .exit)
  | 0x2D => .ok (.trap (fb 5 w 0) (fb 19 w 5))
  | 0x2E => zeros w 23 0 (.ok .tret)
  | 0x2F => readCsr w
  | _ => readTlbi w

/-! ### Memory formats -/

/-- Go on with the operand of a 12-bit field, RSVD_FIELD where it is reserved (04 R73). -/
def opndAt (f : Nat) (k : Opnd → Except Nat Instr) : Except Nat Instr :=
  needSome (Opnd.ofField f) Cause.rsvdField k

/-- Go on with the width of LD. -/
def widthAt (w : Nat) (k : Width → Except Nat Instr) : Except Nat Instr :=
  needSome (Width.ofCode (fld w 13 11)) Cause.rsvdField k

/-- The ord and scope of the long LD form (04 R79, 16 R370). -/
def ldOrdAt (w : Nat) (k : LdOrd → Except Nat Instr) : Except Nat Instr :=
  match fld w 10 9 with
  | 0 => zeros w 8 6 (k .plain)
  | 1 => scopeAt w 8 6 fun s => k (.acq s)
  | 2 => scopeAt w 8 6 fun s => k (.sc s)
  | _ => .error Cause.rsvdField

/-- The ord and scope of the long ST form (04 R79, 17 R398). -/
def stOrdAt (w : Nat) (k : StOrd → Except Nat Instr) : Except Nat Instr :=
  match fld w 10 9 with
  | 0 => zeros w 8 6 (k .plain)
  | 1 => scopeAt w 8 6 fun s => k (.rel s)
  | 2 => scopeAt w 8 6 fun s => k (.sc s)
  | _ => .error Cause.rsvdField

/-- ATOM (04 R85, R87, 16 R348). -/
def readAtom (w0 w1 : Nat) : Except Nat Instr :=
  let d := fb 5 w0 19
  let a := fb 5 w0 14
  let b := fb 5 w0 9
  let c := fb 5 w1 26
  let ord := AtomOrd.ofCode (fld w1 25 24)
  let wide := fld w0 1 0 == 1
  need (fld w0 5 2 < 11) Cause.fnUnassigned (
  need (fld w0 1 0 < 2) Cause.rsvdField (
  zeros w1 23 0 (
  scopeAt w0 8 6 fun s =>
  if fld w0 5 2 = 1 then .ok (.atomCas d a b c s wide ord)
  else zeros w1 30 26 (
    match fld w0 5 2 with
    | 0 => .ok (.atomSwap d a b s wide ord)
    | 2 => .ok (.atomAdd d a b s wide ord)
    | 3 => .ok (.atomAnd d a b s wide ord)
    | 4 => .ok (.atomOr d a b s wide ord)
    | 5 => .ok (.atomXor d a b s wide ord)
    | 6 => .ok (.atomMin d a b s wide ord)
    | 7 => .ok (.atomMax d a b s wide ord)
    | 8 => .ok (.atomMinn d a b s wide ord)
    | 9 => .ok (.atomMaxn d a b s wide ord)
    | _ => need (!wide) Cause.typeMode (.ok (.atomFadd d a b s ord))))))

/-- Majors 0x31 to 0x3C (04 R82, R85). -/
def readMem (maj w0 w1 : Nat) : Except Nat Instr :=
  let t := fb 5 w0 19
  let a := fb 5 w0 14
  match maj with
  | 0x31 => widthAt w0 fun n => .ok (.ld t a n (fb 11 w0 0))
  | 0x32 => zeros w0 5 0 (widthAt w0 fun n => ldOrdAt w0 fun o => .ok (.ldLong t a n o (fb 31 w1 0)))
  | 0x33 => need (fld w0 13 13 == 0) Cause.rsvdField (widthAt w0 fun n => .ok (.st t a n (fb 11 w0 0)))
  | 0x34 => zeros w0 5 0 (need (fld w0 13 13 == 0) Cause.rsvdField
      (widthAt w0 fun n => stOrdAt w0 fun o => .ok (.stLong t a n o (fb 31 w1 0))))
  | 0x35 => opndAt (fld w0 23 12) fun o => needSome o.in? Cause.opndKind fun q => .ok (.ldq q (fb 5 w0 7) (fb 7 w0 0))
  | 0x36 => opndAt (fld w0 23 12) fun o => needSome o.qs? Cause.opndKind fun q => .ok (.stq q (fb 5 w0 7) (fb 7 w0 0))
  | 0x37 => readAtom w0 w1
  | 0x38 => zeros w0 2 0 (opndAt (fld w0 23 12) fun o => needSome o.in? Cause.opndKind fun q =>
      .ok (.ldr q (fb 5 w0 7) (fb 4 w0 3)))
  | 0x39 => zeros w0 2 0 (opndAt (fld w0 23 12) fun o => needSome o.qs? Cause.opndKind fun q =>
      .ok (.str q (fb 5 w0 7) (fb 4 w0 3)))
  | 0x3A => zeros w0 1 0 (zeros w1 17 0 (opndAt (fld w0 23 12) fun o => needSome o.qs? Cause.opndKind fun q =>
      .ok (.mst q (fb 5 w0 7) (fb 5 w0 2) (fb 8 w1 23) (fb 5 w1 18))))
  | 0x3B => zeros w0 1 0 (zeros w1 21 0 (opndAt (fld w0 23 12) fun o =>
      need (fld w1 30 27 != 15) Cause.rsvdField (need (fld w1 30 27 < 2) Cause.typeMode (
      needSome o.in? Cause.opndKind fun q =>
      .ok (.mldr q (fb 5 w0 7) (fb 5 w0 2) (fb 5 w1 22) (fld w1 30 27 == 1))))))
  | _ => zeros w0 23 21 (
      match fld w0 20 19 with
      | 0 => .ok (.pref a (fb 14 w0 0))
      | 1 => .ok (.prefTree a (fb 14 w0 0))
      | _ => .error Cause.rsvdField)

/-! ### Tiles, copies, musters, windows -/

/-- An endpoint kind that is memory or a tile. -/
def endKindOf (n : Nat) : EndKind := if n = 0 then .mem else .tile

/-- The copy family (04 R90, 11 R241, 16 R360). -/
def readCopy (w0 w1 : Nat) : Except Nat Instr :=
  let ch := fb 2 w0 22
  let d := fb 5 w0 17
  let a := fb 5 w0 12
  let b := fb 5 w0 7
  let c := fb 5 w1 22
  let ctr := fb 4 w1 10
  let dk := fld w0 6 5
  let sk := fld w0 4 3
  let fn := fld w1 30 27
  need (fn < 6) Cause.fnUnassigned (
  zeros w0 2 0 (zeros w1 9 0 (
  need (dk != 3 && sk != 3) Cause.rsvdField (
  need (fn == 1 || fn == 2 || fn == 3 || c == 0) Cause.rsvdField (
  need (if fn = 4 then fld w1 21 18 < 4 && fld w1 17 14 != 15 else fld w1 21 14 == 0) Cause.rsvdField (
  if fn = 4 then
    needSome (Rop.ofCode (fld w1 21 18)) Cause.rsvdField fun rop =>
    needSome (Ty.ofCode (fld w1 17 14)) Cause.rsvdField fun t =>
    need (okCopyr rop t) Cause.typeMode (
    need (dk != 2 && sk != 2) Cause.opndKind (.ok (.copyr ch d a b (endKindOf dk) (endKindOf sk) rop t ctr)))
  else if fn = 5 then need (dk == 2 && sk != 2) Cause.opndKind (.ok (.wbf ch d a b (endKindOf sk) ctr))
  else need (dk != 2 && sk != 2) Cause.opndKind (
    match fn with
    | 0 => .ok (.copy ch d a b (endKindOf dk) (endKindOf sk) ctr)
    | 1 => .ok (.copyw ch d a b c (endKindOf dk) (endKindOf sk) ctr)
    | 2 => .ok (.copyg ch d a b c (endKindOf dk) (endKindOf sk) ctr)
    | _ => .ok (.copys ch d a b c (endKindOf dk) (endKindOf sk) ctr))))))))

/-- NEST (11 R240). -/
def readNest (w : Nat) : Except Nat Instr :=
  let ch := fb 2 w 22
  let a := fb 5 w 14
  let b := fb 5 w 9
  zeros w 3 0 (
    match fld w 21 19 with
    | 6 => zeros w 8 4 (.ok (.nestEvent ch a b))
    | 7 => .error Cause.rsvdField
    | _ => .ok (.nest ch (fb 3 w 19) a b (fb 5 w 4)))

/-- Majors 0x40 to 0x51 (04 R82, R92). -/
def readUnit (maj w0 w1 : Nat) : Except Nat Instr :=
  let d := fb 5 w0 19
  let a := fb 5 w0 14
  let b := fb 5 w0 9
  let c := fb 5 w0 4
  let h := fb 8 w0 16
  match maj with
  | 0x40 => zeros w0 3 0 (.ok (.bellset d a b c))
  | 0x41 => zeros w0 23 19 (zeros w0 13 0 (.ok (.bellclr a)))
  | 0x42 => zeros w0 13 0 (.ok (.bellqry d a))
  | 0x43 => zeros w0 1 0 (.ok (.talloc h (fb 5 w0 11) (fb 5 w0 6) (fb 3 w0 3) (fld w0 2 2 == 1)))
  | 0x44 => zeros w0 15 0 (.ok (.tfree h))
  | 0x45 => needSome (Queue.ofCode (fld w0 3 0)) Cause.rsvdField fun q => needSome q.in? Cause.opndKind fun i =>
      .ok (.trd h (fb 5 w0 11) (fb 7 w0 4) i)
  | 0x46 => needSome (Queue.ofCode (fld w0 3 0)) Cause.rsvdField fun q => needSome (Opnd.qs? (.queue q)) Cause.opndKind
      fun i => .ok (.twr h (fb 5 w0 11) (fb 7 w0 4) i)
  | 0x47 => .ok (.tzero h (fb 5 w0 11) (fb 7 w0 4) (fb 4 w0 0))
  | 0x48 => zeros w0 5 0 (.ok (.tdraft h (fb 5 w0 11) (fb 5 w0 6)))
  | 0x49 => zeros w0 5 0 (.ok (.tcommit h (fb 5 w0 11) (fb 5 w0 6)))
  | 0x4A => readNest w0
  | 0x4B => readCopy w0 w1
  | 0x4C => zeros w0 8 0 (.ok (.mjoin d a b))
  | 0x4D => zeros w0 23 19 (zeros w0 3 0 (.ok (.mctb a b c)))
  | 0x4E => zeros w0 8 0 (.ok (.mclose d a b))
  | 0x4F => zeros w0 23 19 (zeros w0 13 3 (scopeAt w0 2 0 fun s => .ok (.wacq a s)))
  | 0x50 => zeros w0 23 19 (zeros w0 13 3 (scopeAt w0 2 0 fun s => .ok (.wrel a s)))
  | _ => zeros w0 23 19 (zeros w0 8 0 (.ok (.rngadv a b)))

/-! ### Matrix and vector formats -/

/-- Go on with the type of a field, RSVD_FIELD for code 15 (04 R76). -/
def tyAt (w h l : Nat) (k : Ty → Except Nat Instr) : Except Nat Instr :=
  needSome (Ty.ofCode (fld w h l)) Cause.rsvdField k

/-- Go on with the rounding mode of word 1, RSVD_FIELD for codes 6 and 7 (04 R77). -/
def rndAt (w1 : Nat) (k : Rnd → Except Nat Instr) : Except Nat Instr :=
  needSome (Rnd.ofCode (fld w1 2 0)) Cause.rsvdField k

/-- An MMA destination is a row (04 R74). -/
def rowOf (o : Opnd) (k : BitVec 3 → BitVec 7 → Except Nat Instr) : Except Nat Instr :=
  match o with
  | .vec ⟨z, .h, i⟩ => k z i
  | _ => .error Cause.opndKind

/-- Majors 0x58 to 0x5B (10 R229 to R234). -/
def readMatrix (maj w0 w1 : Nat) : Except Nat Instr :=
  match maj with
  | 0x58 => zeros w0 10 0 (tyAt w0 23 20 fun t => need (okPlane t) Cause.typeMode (.ok (.wld t (fb 9 w0 11))))
  | 0x59 => zeros w0 4 0 (opndAt (fld w0 23 12) fun o => tyAt w0 11 8 fun t => need (okPlane t) Cause.typeMode (
      rowOf o fun z k => .ok (.mma z k t (fb 2 w0 6) (fld w0 5 5 == 1))))
  | 0x5A => zeros w0 0 0 (zeros w1 19 0 (opndAt (fld w0 23 12) fun o => tyAt w0 11 8 fun t =>
      need (okPlane t) Cause.typeMode (
      rowOf o fun z k => .ok (.mmat z k t (fb 2 w0 6) (fld w0 5 5 == 1) (fb 4 w0 1) (fb 11 w1 20)))))
  | _ => zeros w0 10 0 (
      if fld w0 11 11 = 1 then zeros w0 20 12 (.ok (.mzero (.whole (fb 3 w0 21))))
      else opndAt (fld w0 23 12) fun o => needSome o.fvec? Cause.opndKind fun f => .ok (.mzero (.vec f)))

/-- VBIN, major 0x60 (04 R89). -/
def readVbin (fd fa fb' : Opnd) (fn : Nat) (t : Ty) (r : Rnd) : Except Nat Instr :=
  let go (ok : Bool) (i : VDst → VSrc → VSrc → Instr) : Except Nat Instr :=
    need ok Cause.typeMode (needSome fd.vdst? Cause.opndKind fun d => needSome fa.vsrc? Cause.opndKind fun a =>
      needSome fb'.vsrc? Cause.opndKind fun b => .ok (i d a b))
  match fn with
  | 0x00 => go (okArith t r) fun d a b => .vadd d a b t r
  | 0x01 => go (okArith t r) fun d a b => .vsub d a b t r
  | 0x02 => go (okArith t r) fun d a b => .vmul d a b t r
  | 0x03 => go (okOrder t r) fun d a b => .vmin d a b t
  | 0x04 => go (okOrder t r) fun d a b => .vmax d a b t
  | 0x05 => go (okBitwise t r) fun d a b => .vand d a b t
  | 0x06 => go (okBitwise t r) fun d a b => .vor d a b t
  | 0x07 => go (okBitwise t r) fun d a b => .vxor d a b t
  | 0x08 => go (okShift t r) fun d a b => .vshl d a b t
  | 0x09 => go (okShift t r) fun d a b => .vshr d a b t
  | _ => go (okCmp (VCond.ofCode (fn - 0x10)) t r) fun d a b => .vcmp (VCond.ofCode (fn - 0x10)) d a b t

/-- VUN, major 0x61 (04 R89). -/
def readVun (fd fa : Opnd) (fn : Nat) (t : Ty) (r : Rnd) : Except Nat Instr :=
  let go (ok : Bool) (i : VDst → VSrc → Instr) : Except Nat Instr :=
    need ok Cause.typeMode (needSome fd.vdst? Cause.opndKind fun d => needSome fa.vsrc? Cause.opndKind fun a =>
      .ok (i d a))
  match fn with
  | 0x00 => go (okSign t r) fun d a => .vabs d a t
  | 0x01 => go (okSign t r) fun d a => .vneg d a t
  | 0x02 => go (okBitwise t r) fun d a => .vnot d a t
  | 0x03 => go (okBitwise t r) fun d a => .vmov d a t
  | 0x08 => go (okFloat t r) fun d a => .vexp d a t r
  | 0x09 => go (okFloat t r) fun d a => .vlog d a t r
  | 0x0A => go (okFloat t r) fun d a => .vrcp d a t r
  | 0x0B => go (okFloat t r) fun d a => .vrsq d a t r
  | 0x0C => go (okFloat t r) fun d a => .vsqrt d a t r
  | _ => go (okFloat t r) fun d a => .vtanh d a t r

/-- A whole-register field has direction 0 and index 0 (04 R74). -/
def isWhole (f : Nat) : Bool := f % 512 == 0

/-- Majors 0x60 to 0x71 in VX format (04 R85, R88). -/
def readVx (maj w0 w1 : Nat) : Except Nat Instr :=
  let fdF := fld w0 23 12
  let faF := fld w0 11 0
  let fbF := fld w1 30 19
  let fcF := fld w1 18 7
  let fn := fld w1 18 13
  let dst (o : Opnd) (k : VDst → Except Nat Instr) : Except Nat Instr := needSome o.vdst? Cause.opndKind k
  let src (o : Opnd) (k : VSrc → Except Nat Instr) : Except Nat Instr := needSome o.vsrc? Cause.opndKind k
  match maj with
  | 0x60 => need (fn < 10 || (16 ≤ fn && fn < 24)) Cause.fnUnassigned (zeros w1 12 7 (
      opndAt fdF fun d => opndAt faF fun a => opndAt fbF fun b => tyAt w1 6 3 fun t => rndAt w1 fun r =>
      readVbin d a b fn t r))
  | 0x61 => need (fn < 4 || (8 ≤ fn && fn < 14)) Cause.fnUnassigned (zeros w1 30 19 (zeros w1 12 7 (
      opndAt fdF fun d => opndAt faF fun a => tyAt w1 6 3 fun t => rndAt w1 fun r => readVun d a fn t r)))
  | 0x62 | 0x63 | 0x64 => opndAt fdF fun d => opndAt faF fun a => opndAt fbF fun b => opndAt fcF fun c =>
      tyAt w1 6 3 fun t => rndAt w1 fun r => need (okFloat t r) Cause.typeMode (
      dst d fun d => src a fun a => src b fun b => src c fun c =>
      .ok (if maj = 0x62 then .vfma d a b c t r else if maj = 0x63 then .vfms d a b c t r else .vfnma d a b c t r))
  | 0x65 => opndAt fdF fun d => opndAt faF fun a => opndAt fbF fun b => opndAt fcF fun c =>
      tyAt w1 6 3 fun t => rndAt w1 fun r => need (okBitwise t r) Cause.typeMode (
      dst d fun d => src a fun a => src b fun b => src c fun c => .ok (.vsel d a b c t))
  | 0x66 => zeros w1 30 23 (zeros w1 18 7 (opndAt fdF fun d => opndAt faF fun a => tyAt w1 22 19 fun s =>
      tyAt w1 6 3 fun t => rndAt w1 fun r => need (okConv t && okConv s) Cause.typeMode (
      dst d fun d => src a fun a => .ok (.vcvt d a t s r))))
  | 0x67 => opndAt fdF fun d => opndAt faF fun a => opndAt fbF fun b => opndAt fcF fun c =>
      tyAt w1 6 3 fun t => rndAt w1 fun r => need t.isBlock Cause.typeMode (
      needSome d.fvec? Cause.opndKind fun d => needSome a.fvec? Cause.opndKind fun a =>
      needSome b.fvec? Cause.opndKind fun b => needSome c.bcast? Cause.opndKind fun g => .ok (.vqnt d a b g t r))
  | 0x68 => zeros w1 18 7 (opndAt fdF fun d => opndAt faF fun a => opndAt fbF fun b =>
      tyAt w1 6 3 fun t => rndAt w1 fun r => need t.isBlock Cause.typeMode (
      dst d fun d => src a fun a => src b fun b => .ok (.vdq d a b t r)))
  | 0x69 | 0x6A => needSome (RedOp.ofCode fn) Cause.fnUnassigned fun op => zeros w1 30 19 (zeros w1 12 7 (
      opndAt fdF fun d => opndAt faF fun a => tyAt w1 6 3 fun t => rndAt w1 fun r => need (okRed op t r) Cause.typeMode (
      dst d fun d => src a fun a => .ok (if maj = 0x69 then .vred op d a t r else .vscan op d a t r))))
  | 0x6B => zeros w1 30 7 (opndAt fdF fun d => opndAt faF fun a => tyAt w1 6 3 fun t => rndAt w1 fun r =>
      need (okMaxi t r) Cause.typeMode (dst d fun d => src a fun a => .ok (.vmaxi d a t)))
  | 0x6C => zeros w1 18 0 (opndAt fdF fun d => opndAt faF fun a => opndAt fbF fun b =>
      dst d fun d => src a fun a => src b fun b => .ok (.vperm d a b))
  | 0x6D => zeros w1 30 26 (zeros w1 18 0 (opndAt fdF fun d => opndAt faF fun a =>
      dst d fun d => src a fun a => .ok (.vbcst d a (fb 7 w1 19))))
  | 0x6E => zeros w1 18 7 (opndAt fdF fun d => opndAt faF fun a => opndAt fbF fun b =>
      tyAt w1 6 3 fun t => rndAt w1 fun r => need (okLut t r) Cause.typeMode (
      dst d fun d => src a fun a => src b fun b => .ok (.vlut d a b t r)))
  | 0x6F => need (isWhole fdF && isWhole faF && isWhole fbF) Cause.rsvdField (opndAt fcF fun c =>
      tyAt w1 6 3 fun t => rndAt w1 fun r => need (okSelk t r) Cause.typeMode (
      needSome c.bcast? Cause.opndKind fun g => need (fdF != fbF) Cause.opndKind (
      .ok (.selk (fb 3 w0 21) (fb 3 w1 28) (fb 3 w0 9) g t))))
  | 0x70 => zeros w0 11 0 (zeros w1 30 7 (opndAt fdF fun d => tyAt w1 6 3 fun t => rndAt w1 fun r =>
      need (okRngv t r) Cause.typeMode (dst d fun d => .ok (.rngv d t))))
  | _ => zeros w1 18 7 (opndAt fdF fun d => opndAt faF fun a => opndAt fbF fun b => tyAt w1 6 3 fun t =>
      rndAt w1 fun r => need (okSmpl t r) Cause.typeMode (
      dst d fun d => src a fun a => needSome b.bcast? Cause.opndKind fun g => .ok (.smpl d a g)))

/-- VPOP and VPUSH (18 R429). -/
def readVq (maj w0 : Nat) : Except Nat Instr :=
  opndAt (fld w0 23 12) fun d => opndAt (fld w0 11 0) fun a =>
  if maj = 0x72 then
    needSome d.fvec? Cause.opndKind fun f => needSome a.qv? Cause.opndKind fun q => .ok (.vpop f q)
  else
    needSome d.qs? Cause.opndKind fun q => needSome a.push? Cause.opndKind fun p => .ok (.vpush q p)

/-! ### The decoder -/

/-- The instruction of one or two words under the opcode map of 04 R97, for a major some engine accepts. -/
def readFields (maj w0 w1 : Nat) : Except Nat Instr :=
  if maj = 0x10 then readAlu w0
  else if maj < 0x20 then readScalar maj w0
  else if maj < 0x31 then readTask maj w0
  else if maj < 0x40 then readMem maj w0 w1
  else if maj < 0x58 then readUnit maj w0 w1
  else if maj < 0x60 then readMatrix maj w0 w1
  else if maj < 0x72 then readVx maj w0 w1
  else readVq maj w0

/-- Checks 3 to 6 of 04 R101 and the reading of the fields. FN_UNASSIGNED comes before the S checks (R70, R71). -/
def readInstr (e : Engine) (w0 w1 : Nat) : Except Nat Instr :=
  let maj := fld w0 30 24
  if majorEngines maj = [] then .error Cause.opcUnassigned
  else if !(majorEngines maj).contains e then .error Cause.engine
  else
    match readFields maj w0 w1 with
    | .error c =>
      if c = Cause.fnUnassigned then .error c
      else if (e != .exe && fld w0 31 31 == 0) || (twoWord maj && fld w0 31 31 != fld w1 31 31) then
        .error Cause.rsvdField
      else .error c
    | .ok i =>
      if (e != .exe && fld w0 31 31 == 0) || (twoWord maj && fld w0 31 31 != fld w1 31 31) then
        .error Cause.rsvdField
      else .ok i

/-- The instruction engine e decodes from the words, or the cause of the trap of 04 R99 to R101. -/
def decode (e : Engine) (w0 w1 : Nat) : Except Nat Instr :=
  match readInstr e w0 w1 with
  | .error c => .error c
  | .ok i =>
    match i.operandTrap e with
    | some c => .error c
    | none => .ok i

/-- The words of a line, lowest first: word 0 is the link word (03 R51). -/
def lineWord (l : Line) (i : Nat) : Nat := l.toNat / 2 ^ (32 * i) % 2 ^ 32

/-- How many words the instruction that begins with a word takes. -/
def wordsOf (w0 : Nat) : Nat := if twoWord (fld w0 30 24) then 2 else 1

/-- The engine to which the host's table word belongs: the first that accepts its major. -/
def engineOf (w0 : Nat) : Option Engine := (majorEngines (fld w0 30 24)).head?

/-- The instruction read from a word numbered as the opcode table numbers it, bits above nbits being 0. An operand out
of its range (04 R81) is an operand check of the instruction, which its meaning makes. -/
def decodeTableWord (nbits w : Nat) : Option Instr :=
  let v := w % 2 ^ nbits
  match engineOf (v % 2 ^ 32) with
  | none => none
  | some e => (readInstr e (v % 2 ^ 32) (v / 2 ^ 32 % 2 ^ 32)).toOption

/-! ### The encoder -/

/-- The word whose fields, from bit 31 downward, have the given widths and values. -/
def pack (fs : List (Nat × Nat)) : Nat := fs.foldl (fun acc f => acc * 2 ^ f.1 + f.2) 0

/-- A first word: S, major opcode and 24 bits of fields. -/
def word0 (s : Bool) (maj : Nat) (fs : List (Nat × Nat)) : Nat := pack ((1, s.toNat) :: (7, maj) :: fs)

/-- A second word: S and 31 bits of fields. -/
def word1 (s : Bool) (fs : List (Nat × Nat)) : Nat := pack ((1, s.toNat) :: fs)

/-- RR format (04 R82). -/
def encRR (s : Bool) (d a b : GReg) (cx fn : Nat) : List Nat :=
  [word0 s 0x10 [(5, d.toNat), (5, a.toNat), (5, b.toNat), (3, cx), (6, fn)]]

/-- RI format (04 R82). -/
def encRI (s : Bool) (maj : Nat) (d a : GReg) (imm : Nat) : List Nat :=
  [word0 s maj [(5, d.toNat), (5, a.toNat), (14, imm)]]

/-- G4 format (04 R82). -/
def encG4 (s : Bool) (maj : Nat) (d a b c : GReg) (sub : Nat) : List Nat :=
  [word0 s maj [(5, d.toNat), (5, a.toNat), (5, b.toNat), (5, c.toNat), (4, sub)]]

/-- AT format (04 R85). -/
def encAT (s : Bool) (d a b c : GReg) (sc : Scope) (aop : Nat) (wide : Bool) (ord : AtomOrd) : List Nat :=
  [word0 s 0x37 [(5, d.toNat), (5, a.toNat), (5, b.toNat), (3, sc.code), (4, aop), (2, wide.toNat)],
   word1 s [(5, c.toNat), (2, ord.code), (24, 0)]]

/-- CP format (04 R85). -/
def encCP (s : Bool) (fn : Nat) (ch : BitVec 2) (d a b c : GReg) (dk sk rop ty : Nat) (ctr : BitVec 4) : List Nat :=
  [word0 s 0x4B [(2, ch.toNat), (5, d.toNat), (5, a.toNat), (5, b.toNat), (2, dk), (2, sk), (3, 0)],
   word1 s [(4, fn), (5, c.toNat), (4, rop), (4, ty), (4, ctr.toNat), (10, 0)]]

/-- VX format (04 R85). -/
def encVX (s : Bool) (maj fd fa fb' fc ty rnd : Nat) : List Nat :=
  [word0 s maj [(12, fd), (12, fa)], word1 s [(12, fb'), (12, fc), (4, ty), (3, rnd)]]

/-- TL format (04 R82). -/
def encTL (s : Bool) (sc : Scope) (kind : Nat) (a b : GReg) : List Nat :=
  [word0 s 0x30 [(3, sc.code), (3, kind), (5, a.toNat), (5, b.toNat), (8, 0)]]

/-- The ord and scope codes of the long LD form. -/
def LdOrd.codes : LdOrd → Nat × Nat
  | .plain => (0, 0) | .acq s => (1, s.code) | .sc s => (2, s.code)

/-- The ord and scope codes of the long ST form. -/
def StOrd.codes : StOrd → Nat × Nat
  | .plain => (0, 0) | .rel s => (1, s.code) | .sc s => (2, s.code)

/-- The 24 field bits of a one-word instruction that holds none. -/
def encZ (s : Bool) (maj : Nat) : List Nat := [word0 s maj [(24, 0)]]

/-- The words of an instruction with S bit s; none for an event. -/
def encode (s : Bool) : Instr → List Nat
  | .nop => encZ s 0x01
  | .grd r b n p => [word0 s 0x02 [(5, r.toNat), (6, b.toNat), (1, n.toNat), (2, p.toNat), (10, 0)]]
  | .br d w => [word0 s 0x03 [(20, d.toNat), (4, w.toNat)]]
  | .call d w => [word0 s 0x04 [(20, d.toNat), (4, w.toNat)]]
  | .jr a => [word0 s 0x05 [(5, 0), (5, a.toNat), (14, 0)]]
  | .ret => encZ s 0x06
  | .loop a d w => [word0 s 0x07 [(5, a.toNat), (15, d.toNat), (4, w.toNat)]]
  | .add d a b => encRR s d a b 0 0x00
  | .sub d a b => encRR s d a b 0 0x01
  | .mul d a b => encRR s d a b 0 0x02
  | .mulh d a b => encRR s d a b 0 0x03
  | .mulhn d a b => encRR s d a b 0 0x04
  | .div d a b => encRR s d a b 0 0x05
  | .divn d a b => encRR s d a b 0 0x06
  | .rem d a b => encRR s d a b 0 0x07
  | .remn d a b => encRR s d a b 0 0x08
  | .and d a b => encRR s d a b 0 0x09
  | .or d a b => encRR s d a b 0 0x0A
  | .xor d a b => encRR s d a b 0 0x0B
  | .andn d a b => encRR s d a b 0 0x0C
  | .shl d a b => encRR s d a b 0 0x0D
  | .shr d a b => encRR s d a b 0 0x0E
  | .sar d a b => encRR s d a b 0 0x0F
  | .rotr d a b => encRR s d a b 0 0x10
  | .min d a b => encRR s d a b 0 0x11
  | .max d a b => encRR s d a b 0 0x12
  | .minn d a b => encRR s d a b 0 0x13
  | .maxn d a b => encRR s d a b 0 0x14
  | .cmp d a b c => encRR s d a b c.code 0x15
  | .clz d a => encRR s d a 0 0 0x16
  | .ctz d a => encRR s d a 0 0 0x17
  | .popc d a => encRR s d a 0 0 0x18
  | .mov d a => encRR s d a 0 0 0x19
  | .addi d a i => encRI s 0x11 d a i.toNat
  | .andi d a i => encRI s 0x12 d a i.toNat
  | .ori d a i => encRI s 0x13 d a i.toNat
  | .xori d a i => encRI s 0x14 d a i.toNat
  | .shli d a i => encRI s 0x15 d a i.toNat
  | .shri d a i => encRI s 0x16 d a i.toNat
  | .sari d a i => encRI s 0x17 d a i.toNat
  | .movi d i => [word0 s 0x18 [(5, d.toNat), (19, i.toNat)]]
  | .movhi d h i => [word0 s 0x19 [(5, d.toNat), (1, 0), (2, h.toNat), (16, i.toNat)]]
  | .bfx d a l w => [word0 s 0x1A [(5, d.toNat), (5, a.toNat), (6, l.toNat), (6, w.toNat), (2, 0)]]
  | .bfi d a l w => [word0 s 0x1B [(5, d.toNat), (5, a.toNat), (6, l.toNat), (6, w.toNat), (2, 0)]]
  | .fork e a b c => [word0 s 0x20 [(2, e.code), (3, 0), (5, a.toNat), (5, b.toNat), (5, c.toNat), (4, 0)]]
  | .rdv => encZ s 0x21
  | .sigtImm k n => [word0 s 0x22 [(3, k.toNat), (1, 0), (8, n.toNat), (5, 0), (7, 0)]]
  | .sigtReg k a => [word0 s 0x22 [(3, k.toNat), (1, 1), (8, 0), (5, a.toNat), (7, 0)]]
  | .waittImm k n => [word0 s 0x23 [(3, k.toNat), (1, 0), (8, n.toNat), (5, 0), (7, 0)]]
  | .waittReg k a => [word0 s 0x23 [(3, k.toNat), (1, 1), (8, 0), (5, a.toNat), (7, 0)]]
  | .waitc c n => [word0 s 0x24 [(4, c.toNat), (12, n.toNat), (8, 0)]]
  | .drain m => [word0 s 0x25 [(4, m.toNat), (20, 0)]]
  | .fence sc => [word0 s 0x26 [(3, sc.code), (2, 0), (19, 0)]]
  | .fenceAcq sc => [word0 s 0x26 [(3, sc.code), (2, 1), (19, 0)]]
  | .fenceRel sc => [word0 s 0x26 [(3, sc.code), (2, 2), (19, 0)]]
  | .fencex sc p q => [word0 s 0x27 [(3, sc.code), (3, p.code), (3, q.code), (15, 0)]]
  | .bar sc id => [word0 s 0x28 [(3, sc.code), (8, id.toNat), (13, 0)]]
  | .waitv d a b c w => encG4 s 0x29 d a b 0 (c.code * 2 + w.toNat)
  | .yield => encZ s 0x2A
  | .spawn d a b => encG4 s 0x2B d a b 0 0
  | .exit => encZ s 0x2C
  | .trap n p => [word0 s 0x2D [(19, p.toNat), (5, n.toNat)]]
  | .tret => encZ s 0x2E
  | .csrr d c => [word0 s 0x2F [(5, d.toNat), (5, 0), (12, c.code), (2, 0)]]
  | .csrw d a c => [word0 s 0x2F [(5, d.toNat), (5, a.toNat), (12, c.code), (2, 1)]]
  | .csrs d a c => [word0 s 0x2F [(5, d.toNat), (5, a.toNat), (12, c.code), (2, 2)]]
  | .csrc d a c => [word0 s 0x2F [(5, d.toNat), (5, a.toNat), (12, c.code), (2, 3)]]
  | .tlbiVa sc a b => encTL s sc 0 a b
  | .tlbiAsid sc b => encTL s sc 1 0 b
  | .tlbiVd sc => encTL s sc 2 0 0
  | .tlbiIpa sc a b => encTL s sc 3 a b
  | .tlbiS2Vd sc b => encTL s sc 4 0 b
  | .ld t a w o => [word0 s 0x31 [(5, t.toNat), (5, a.toNat), (3, w.code), (11, o.toNat)]]
  | .ldLong t a w o off =>
    [word0 s 0x32 [(5, t.toNat), (5, a.toNat), (3, w.code), (2, o.codes.1), (3, o.codes.2), (6, 0)],
     word1 s [(31, off.toNat)]]
  | .st t a w o => [word0 s 0x33 [(5, t.toNat), (5, a.toNat), (3, w.code), (11, o.toNat)]]
  | .stLong t a w o off =>
    [word0 s 0x34 [(5, t.toNat), (5, a.toNat), (3, w.code), (2, o.codes.1), (3, o.codes.2), (6, 0)],
     word1 s [(31, off.toNat)]]
  | .ldq q a o => [word0 s 0x35 [(12, q.queue.field), (5, a.toNat), (7, o.toNat)]]
  | .stq q a o => [word0 s 0x36 [(12, Queue.field (.qs q)), (5, a.toNat), (7, o.toNat)]]
  | .atomSwap d a b sc w o => encAT s d a b 0 sc 0 w o
  | .atomCas d a b c sc w o => encAT s d a b c sc 1 w o
  | .atomAdd d a b sc w o => encAT s d a b 0 sc 2 w o
  | .atomAnd d a b sc w o => encAT s d a b 0 sc 3 w o
  | .atomOr d a b sc w o => encAT s d a b 0 sc 4 w o
  | .atomXor d a b sc w o => encAT s d a b 0 sc 5 w o
  | .atomMin d a b sc w o => encAT s d a b 0 sc 6 w o
  | .atomMax d a b sc w o => encAT s d a b 0 sc 7 w o
  | .atomMinn d a b sc w o => encAT s d a b 0 sc 8 w o
  | .atomMaxn d a b sc w o => encAT s d a b 0 sc 9 w o
  | .atomFadd d a b sc o => encAT s d a b 0 sc 10 false o
  | .ldr q a c => [word0 s 0x38 [(12, q.queue.field), (5, a.toNat), (4, c.toNat), (3, 0)]]
  | .str q a c => [word0 s 0x39 [(12, Queue.field (.qs q)), (5, a.toNat), (4, c.toNat), (3, 0)]]
  | .mst q a b h c =>
    [word0 s 0x3A [(12, Queue.field (.qs q)), (5, a.toNat), (5, b.toNat), (2, 0)],
     word1 s [(8, h.toNat), (5, c.toNat), (18, 0)]]
  | .mldr q a b c bf =>
    [word0 s 0x3B [(12, q.queue.field), (5, a.toNat), (5, b.toNat), (2, 0)],
     word1 s [(4, bf.toNat), (5, c.toNat), (22, 0)]]
  | .pref a o => [word0 s 0x3C [(3, 0), (2, 0), (5, a.toNat), (14, o.toNat)]]
  | .prefTree a o => [word0 s 0x3C [(3, 0), (2, 1), (5, a.toNat), (14, o.toNat)]]
  | .bellset d a b c => encG4 s 0x40 d a b c 0
  | .bellclr a => encG4 s 0x41 0 a 0 0 0
  | .bellqry d a => encG4 s 0x42 d a 0 0 0
  | .talloc h d a l v =>
    [word0 s 0x43 [(8, h.toNat), (5, d.toNat), (5, a.toNat), (3, l.toNat), (1, v.toNat), (2, 0)]]
  | .tfree h => [word0 s 0x44 [(8, h.toNat), (16, 0)]]
  | .trd h a o q => [word0 s 0x45 [(8, h.toNat), (5, a.toNat), (7, o.toNat), (4, q.queue.code)]]
  | .twr h a o q => [word0 s 0x46 [(8, h.toNat), (5, a.toNat), (7, o.toNat), (4, Queue.code (.qs q))]]
  | .tzero h a o n => [word0 s 0x47 [(8, h.toNat), (5, a.toNat), (7, o.toNat), (4, n.toNat)]]
  | .tdraft h d a => [word0 s 0x48 [(8, h.toNat), (5, d.toNat), (5, a.toNat), (6, 0)]]
  | .tcommit h d a => [word0 s 0x49 [(8, h.toNat), (5, d.toNat), (5, a.toNat), (6, 0)]]
  | .nest ch l a b c => [word0 s 0x4A [(2, ch.toNat), (3, l.toNat), (5, a.toNat), (5, b.toNat), (5, c.toNat), (4, 0)]]
  | .nestEvent ch a b => [word0 s 0x4A [(2, ch.toNat), (3, 6), (5, a.toNat), (5, b.toNat), (5, 0), (4, 0)]]
  | .copy ch d a b dk sk ctr => encCP s 0 ch d a b 0 dk.code sk.code 0 0 ctr
  | .copyw ch d a b c dk sk ctr => encCP s 1 ch d a b c dk.code sk.code 0 0 ctr
  | .copyg ch d a b c dk sk ctr => encCP s 2 ch d a b c dk.code sk.code 0 0 ctr
  | .copys ch d a b c dk sk ctr => encCP s 3 ch d a b c dk.code sk.code 0 0 ctr
  | .copyr ch d a b dk sk rop t ctr => encCP s 4 ch d a b 0 dk.code sk.code rop.code t.code ctr
  | .wbf ch d a b sk ctr => encCP s 5 ch d a b 0 2 sk.code 0 0 ctr
  | .mjoin d a b => encG4 s 0x4C d a b 0 0
  | .mctb a b c => encG4 s 0x4D 0 a b c 0
  | .mclose d a b => encG4 s 0x4E d a b 0 0
  | .wacq a sc => encG4 s 0x4F 0 a 0 0 sc.code
  | .wrel a sc => encG4 s 0x50 0 a 0 0 sc.code
  | .rngadv a b => encG4 s 0x51 0 a b 0 0
  | .wld t e => [word0 s 0x58 [(4, t.code), (9, e.toNat), (11, 0)]]
  | .mma z k t q ov =>
    [word0 s 0x59 [(12, FVec.field ⟨z, .h, k⟩), (4, t.code), (2, q.toNat), (1, ov.toNat), (5, 0)]]
  | .mmat z k t q ov g off =>
    [word0 s 0x5A [(12, FVec.field ⟨z, .h, k⟩), (4, t.code), (2, q.toNat), (1, ov.toNat), (4, g.toNat), (1, 0)],
     word1 s [(11, off.toNat), (20, 0)]]
  | .mzero (.vec f) => [word0 s 0x5B [(12, f.field), (1, 0), (11, 0)]]
  | .mzero (.whole z) => [word0 s 0x5B [(12, z.toNat * 512), (1, 1), (11, 0)]]
  | .vadd d a b t r => encVX s 0x60 d.field a.field b.field (0x00 * 64) t.code r.code
  | .vsub d a b t r => encVX s 0x60 d.field a.field b.field (0x01 * 64) t.code r.code
  | .vmul d a b t r => encVX s 0x60 d.field a.field b.field (0x02 * 64) t.code r.code
  | .vmin d a b t => encVX s 0x60 d.field a.field b.field (0x03 * 64) t.code 0
  | .vmax d a b t => encVX s 0x60 d.field a.field b.field (0x04 * 64) t.code 0
  | .vand d a b t => encVX s 0x60 d.field a.field b.field (0x05 * 64) t.code 0
  | .vor d a b t => encVX s 0x60 d.field a.field b.field (0x06 * 64) t.code 0
  | .vxor d a b t => encVX s 0x60 d.field a.field b.field (0x07 * 64) t.code 0
  | .vshl d a b t => encVX s 0x60 d.field a.field b.field (0x08 * 64) t.code 0
  | .vshr d a b t => encVX s 0x60 d.field a.field b.field (0x09 * 64) t.code 0
  | .vcmp c d a b t => encVX s 0x60 d.field a.field b.field ((0x10 + c.code) * 64) t.code 0
  | .vabs d a t => encVX s 0x61 d.field a.field 0 (0x00 * 64) t.code 0
  | .vneg d a t => encVX s 0x61 d.field a.field 0 (0x01 * 64) t.code 0
  | .vnot d a t => encVX s 0x61 d.field a.field 0 (0x02 * 64) t.code 0
  | .vmov d a t => encVX s 0x61 d.field a.field 0 (0x03 * 64) t.code 0
  | .vexp d a t r => encVX s 0x61 d.field a.field 0 (0x08 * 64) t.code r.code
  | .vlog d a t r => encVX s 0x61 d.field a.field 0 (0x09 * 64) t.code r.code
  | .vrcp d a t r => encVX s 0x61 d.field a.field 0 (0x0A * 64) t.code r.code
  | .vrsq d a t r => encVX s 0x61 d.field a.field 0 (0x0B * 64) t.code r.code
  | .vsqrt d a t r => encVX s 0x61 d.field a.field 0 (0x0C * 64) t.code r.code
  | .vtanh d a t r => encVX s 0x61 d.field a.field 0 (0x0D * 64) t.code r.code
  | .vfma d a b c t r => encVX s 0x62 d.field a.field b.field c.field t.code r.code
  | .vfms d a b c t r => encVX s 0x63 d.field a.field b.field c.field t.code r.code
  | .vfnma d a b c t r => encVX s 0x64 d.field a.field b.field c.field t.code r.code
  | .vsel d a b c t => encVX s 0x65 d.field a.field b.field c.field t.code 0
  | .vcvt d a t src r => encVX s 0x66 d.field a.field src.code 0 t.code r.code
  | .vqnt d a b g t r => encVX s 0x67 d.field a.field b.field (bcastField g) t.code r.code
  | .vdq d a b t r => encVX s 0x68 d.field a.field b.field 0 t.code r.code
  | .vred op d a t r => encVX s 0x69 d.field a.field 0 (op.code * 64) t.code r.code
  | .vscan op d a t r => encVX s 0x6A d.field a.field 0 (op.code * 64) t.code r.code
  | .vmaxi d a t => encVX s 0x6B d.field a.field 0 0 t.code 0
  | .vperm d a b => encVX s 0x6C d.field a.field b.field 0 0 0
  | .vbcst d a l => encVX s 0x6D d.field a.field l.toNat 0 0 0
  | .vlut d a b t r => encVX s 0x6E d.field a.field b.field 0 t.code r.code
  | .selk zi zv zs g t => encVX s 0x6F (zi.toNat * 512) (zs.toNat * 512) (zv.toNat * 512) (bcastField g) t.code 0
  | .rngv d t => encVX s 0x70 d.field 0 0 0 t.code 0
  | .smpl d a g => encVX s 0x71 d.field a.field (bcastField g) 0 0 0
  | .vpop f q => [word0 s 0x72 [(12, f.field), (12, Queue.field (.qv q))]]
  | .vpush q a => [word0 s 0x73 [(12, Queue.field (.qs q)), (12, a.field)]]
  | _ => []

end Sys2Proof
end

