-- ==== Sys2Proof/Machine/Bits.lean ====
section
/-!
DEFINITION. Bit fields, bytes and lanes of words, and finite maps from natural numbers with a default, in which the
state keeps everything that is indexed.
-/

namespace Sys2Proof.Machine

/-! ### Bits -/

/-- Bits h down to l of v as a number (00 R2). -/
def bits {w : Nat} (v : BitVec w) (h l : Nat) : Nat := v.toNat / 2 ^ l % 2 ^ (h + 1 - l)

/-- One bit of v (00 R2). -/
def bit {w : Nat} (v : BitVec w) (i : Nat) : Bool := v.getLsbD i

/-- v with bits l+n-1 .. l replaced by x. -/
def setBits {w : Nat} (v : BitVec w) (l n : Nat) (x : Nat) : BitVec w :=
  (v &&& ~~~(BitVec.ofNat w ((2 ^ n - 1) * 2 ^ l))) ||| BitVec.ofNat w (x % 2 ^ n * 2 ^ l)

/-- sext(v, n) as an integer (00 R7). -/
def sextNat (v n : Nat) : Int := if v % 2 ^ n < 2 ^ (n - 1) then (v % 2 ^ n : Nat) else (v % 2 ^ n : Nat) - (2 ^ n : Nat)

/-- An integer modulo 2^w as a word. -/
def ofInt (w : Nat) (x : Int) : BitVec w := BitVec.ofInt w x

/-- sat(x, lo, hi) (00 R7). -/
def sat (x lo hi : Int) : Int := if x < lo then lo else if hi < x then hi else x

/-- A byte list as a little-endian number. -/
def leNat (bs : List Byte) : Nat := bs.foldr (fun b acc => b.toNat + acc * 256) 0

/-- The n little-endian bytes of a number. -/
def leBytes (n v : Nat) : List Byte := (List.range n).map fun i => BitVec.ofNat 8 (v / 256 ^ i)

/-- 1 for true, 0 for false. -/
def b2n (b : Bool) : Nat := if b then 1 else 0

/-- Lane i of a 512-byte entry (02 R39). -/
def lane (e : Entry) (i : Nat) : W32 := e.extractLsb' (32 * i) 32

/-- The entry whose lane i is f i. -/
def ofLanes (f : Nat → W32) : Entry :=
  BitVec.ofNat 4096 ((List.range 128).foldr (fun i acc => (f i).toNat + acc * 2 ^ 32) 0)

/-- The entry with lane i replaced. -/
def setLane (e : Entry) (i : Nat) (v : W32) : Entry := setBits e (32 * i) 32 v.toNat

/-- Byte i of a word (00 R2: little-endian). -/
def byteOf {w : Nat} (v : BitVec w) (i : Nat) : Byte := v.extractLsb' (8 * i) 8

/-- The bytes of a word, lowest first. -/
def toBytes {w : Nat} (n : Nat) (v : BitVec w) : List Byte := (List.range n).map (byteOf v)

/-- The word of the given bytes, lowest first. -/
def ofBytes (w : Nat) (bs : List Byte) : BitVec w :=
  BitVec.ofNat w (bs.foldr (fun b acc => b.toNat + acc * 256) 0)

/-! ### Finite maps with a default

`NMap α` lists keys with values; the first entry of a key counts. `set` replaces in place, so a map that is only
built by `set` lists no key twice. -/

/-- A finite map from natural numbers. -/
abbrev NMap (α : Type) := List (Nat × α)

/-- The value at a key, if listed. -/
def NMap.find? {α : Type} : NMap α → Nat → Option α
  | [], _ => none
  | (k', v) :: m, k => if k' = k then some v else NMap.find? m k

/-- The value at a key, or the default. -/
def NMap.getD {α : Type} (m : NMap α) (k : Nat) (d : α) : α := (NMap.find? m k).getD d

/-- The map with the value at a key replaced or added. -/
def NMap.set {α : Type} : NMap α → Nat → α → NMap α
  | [], k, v => [(k, v)]
  | (k', v') :: m, k, v => if k' = k then (k, v) :: m else (k', v') :: NMap.set m k v

/-- The map without a key. -/
def NMap.erase {α : Type} (m : NMap α) (k : Nat) : NMap α := m.filter (fun p => p.1 ≠ k)

/-- The map with f applied to the value at a listed key. -/
def NMap.upd {α : Type} (m : NMap α) (k : Nat) (f : α → α) : NMap α :=
  m.map (fun p => if p.1 = k then (p.1, f p.2) else p)

/-- The list with element i replaced by f of it. -/
def updAt {α : Type} : List α → Nat → (α → α) → List α
  | [], _, _ => []
  | x :: xs, 0, f => f x :: xs
  | x :: xs, i + 1, f => x :: updAt xs i f

/-- The least natural number below `fuel` (counted from `start`) that satisfies p. -/
def leastFrom (start : Nat) (p : Nat → Bool) : Nat → Option Nat
  | 0 => none
  | fuel + 1 => if p start then some start else leastFrom (start + 1) p fuel

end Sys2Proof.Machine
end

