-- ==== Sys2Proof/Machine/Numbers.lean ====
section
/-!
DEFINITION. Number formats, exact values, rounding and conversion (05 R103 to R105, R110 to R112), twosum and carry
pairs (00 R8, 05 R123), the counter-based generator (00 R9) and the stochastic-rounding bits (05 R116, R117).
-/

namespace Sys2Proof.Machine

/-! ### Flags of ar.flags (05 R113) -/

/-- The nine sticky flags as a word. -/
abbrev Flags := BitVec 9
def flNX : Flags := 0x001#9
def flUF : Flags := 0x002#9
def flOF : Flags := 0x004#9
def flDZ : Flags := 0x008#9
def flNV : Flags := 0x010#9
def flSAT : Flags := 0x020#9
def flQOS : Flags := 0x040#9
def flQGU : Flags := 0x080#9
def flBLK : Flags := 0x100#9

/-- A flag if a condition holds. -/
def flagIf (b : Bool) (f : Flags) : Flags := if b then f else 0#9

/-! ### Exact values -/

/-- An exact value: NaN, an infinity, or plus or minus n/d with d positive; a zero keeps its sign (05 R104). -/
inductive Num | nan | inf (neg : Bool) | fin (neg : Bool) (n d : Nat)
  deriving DecidableEq, Repr, Inhabited

/-- Plus or minus m times 2^e. -/
def Num.dyadic (neg : Bool) (m : Nat) (e : Int) : Num :=
  if 0 ≤ e then .fin neg (m * 2 ^ e.toNat) 1 else .fin neg m (2 ^ (-e).toNat)

/-- An integer. -/
def Num.ofInt (x : Int) : Num := .fin (x < 0) x.natAbs 1

/-- The value with its sign changed. -/
def Num.neg : Num → Num
  | .nan => .nan
  | .inf s => .inf !s
  | .fin s n d => .fin (!s) n d

/-- The value with its sign cleared. -/
def Num.abs : Num → Num
  | .nan => .nan
  | .inf _ => .inf false
  | .fin _ n d => .fin false n d

def Num.isNan : Num → Bool
  | .nan => true
  | _ => false

def Num.isZero : Num → Bool
  | .fin _ 0 _ => true
  | _ => false

/-- The signed numerator of a finite value. -/
def signed (neg : Bool) (n : Nat) : Int := if neg then -(n : Int) else n

/-- The exact sum, with NV when infinities of opposite sign meet (18 R414). An exact zero sum of operands of opposite
signs is +0, or -0 when `rdn` holds; zeros of one sign keep it. -/
def Num.add (rdn : Bool) : Num → Num → Num × Flags
  | .nan, _ => (.nan, 0)
  | _, .nan => (.nan, 0)
  | .inf s, .inf t => if s = t then (.inf s, 0) else (.nan, flNV)
  | .inf s, .fin _ _ _ => (.inf s, 0)
  | .fin _ _ _, .inf t => (.inf t, 0)
  | .fin s n d, .fin t m e =>
    if n = 0 ∧ m = 0 then (if s = t then .fin s 0 1 else .fin rdn 0 1, 0) else
    let (x, y, den) : Int × Int × Nat :=
      if d % e = 0 then (signed s n, signed t m * (d / e : Nat), d)
      else if e % d = 0 then (signed s n * (e / d : Nat), signed t m, e)
      else (signed s n * e, signed t m * d, d * e)
    let z := x + y
    (if z = 0 then .fin rdn 0 1 else .fin (z < 0) z.natAbs den, 0)

/-- The exact product, with NV for 0 times an infinity (18 R414); the sign is the exclusive or of the signs. -/
def Num.mul : Num → Num → Num × Flags
  | .nan, _ => (.nan, 0)
  | _, .nan => (.nan, 0)
  | .inf s, .inf t => (.inf (s != t), 0)
  | .inf s, .fin t m _ => if m = 0 then (.nan, flNV) else (.inf (s != t), 0)
  | .fin s n _, .inf t => if n = 0 then (.nan, flNV) else (.inf (s != t), 0)
  | .fin s n d, .fin t m e => (.fin (s != t) (n * m) (d * e), 0)

/-- The exact quotient of a finite value by a nonzero finite value. -/
def Num.divFin : Num → Num → Num
  | .fin s n d, .fin t m e => .fin (s != t) (n * e) (d * m)
  | _, _ => .nan

/-- a < b numerically, with -0 = +0; false with a NaN. -/
def Num.lt : Num → Num → Bool
  | .nan, _ => false
  | _, .nan => false
  | .inf s, .inf t => s && !t
  | .inf s, .fin _ _ _ => s
  | .fin _ _ _, .inf t => !t
  | .fin s n d, .fin t m e => decide (signed s n * e < signed t m * d)

/-- a = b numerically, with -0 = +0; false with a NaN. -/
def Num.eq : Num → Num → Bool
  | .inf s, .inf t => s == t
  | .fin s n d, .fin t m e => decide (signed s n * e = signed t m * d)
  | _, _ => false

/-- a < b with -0 < +0, as VMIN and VMAX order values (18 R420). -/
def Num.ltz (a b : Num) : Bool :=
  match a, b with
  | .fin true 0 _, .fin false 0 _ => true
  | _, _ => Num.lt a b

/-! ### Floating-point formats (05 R103) -/

/-- How the all-ones exponent is read. -/
inductive Special | ieee | e4m3 | e2m1
  deriving DecidableEq, Repr

/-- A format: exponent bits, fraction bits, bias, specials, whether overflow saturates (05 R111), canonical NaN. -/
structure Fmt where
  eb : Nat
  fb : Nat
  bias : Nat
  sp : Special
  saturates : Bool
  canon : Nat
  deriving DecidableEq, Repr

def fmtF32 : Fmt := ⟨8, 23, 127, .ieee, false, 0x7FC00000⟩
def fmtBF16 : Fmt := ⟨8, 7, 127, .ieee, false, 0x7FC0⟩
def fmtF16 : Fmt := ⟨5, 10, 15, .ieee, true, 0x7E00⟩
def fmtE4M3 : Fmt := ⟨4, 3, 7, .e4m3, true, 0x7F⟩
def fmtE5M2 : Fmt := ⟨5, 2, 15, .ieee, true, 0x7F⟩
def fmtE2M1 : Fmt := ⟨2, 1, 1, .e2m1, true, 0⟩

/-- The pattern's sign bit, exponent field and fraction, put together. -/
def Fmt.pack (f : Fmt) (neg : Bool) (e m : Nat) : Nat := b2n neg * 2 ^ (f.eb + f.fb) + e * 2 ^ f.fb + m

/-- decode(b, fmt) (00 R7, 05 R103). -/
def Fmt.decode (f : Fmt) (b : Nat) : Num :=
  let m := b % 2 ^ f.fb
  let e := b / 2 ^ f.fb % 2 ^ f.eb
  let s := b / 2 ^ (f.eb + f.fb) % 2 == 1
  if e = 2 ^ f.eb - 1 ∧ f.sp = .ieee then (if m = 0 then .inf s else .nan)
  else if e = 2 ^ f.eb - 1 ∧ f.sp = .e4m3 ∧ m = 2 ^ f.fb - 1 then .nan
  else if e = 0 then .dyadic s m (1 - f.bias - f.fb)
  else .dyadic s (2 ^ f.fb + m) ((e : Int) - f.bias - f.fb)

/-- The greatest biased exponent of a finite value. -/
def Fmt.topExp (f : Fmt) : Nat := match f.sp with | .ieee => 2 ^ f.eb - 2 | _ => 2 ^ f.eb - 1

/-- The greatest fraction at the greatest exponent. -/
def Fmt.topFrac (f : Fmt) : Nat := match f.sp with | .e4m3 => 2 ^ f.fb - 2 | _ => 2 ^ f.fb - 1

/-- The largest finite value of a sign. -/
def Fmt.maxFin (f : Fmt) (neg : Bool) : Nat := f.pack neg f.topExp f.topFrac

/-- The infinity of a sign. -/
def Fmt.infPat (f : Fmt) (neg : Bool) : Nat := f.pack neg (2 ^ f.eb - 1) 0

/-- ⌊log2 (n/d)⌋ of a positive quotient. -/
def log2Quot (n d : Nat) : Int :=
  let k : Int := (Nat.log2 n : Int) - Nat.log2 d
  let big := if 0 ≤ k then decide (d * 2 ^ k.toNat ≤ n) else decide (d ≤ n * 2 ^ (-k).toNat)
  if big then k else k - 1

/-- Whether the magnitude q + r/den, 0 ≤ r < den, rounds to q + 1 (05 R110); u is the lane's random value. -/
def roundsUp (mode : Rnd) (u : Nat) (neg : Bool) (q r den : Nat) : Bool :=
  match mode with
  | .rne => den < 2 * r || (2 * r == den && q % 2 == 1)
  | .rtz => false
  | .rdn => neg && r != 0
  | .rup => !neg && r != 0
  | .rna => den ≤ 2 * r
  | .rsr => 2 ^ 16 ≤ r * 2 ^ 16 / den + u

/-- round(x, fmt, mode) as a pattern, with the flags that R111 sets (05 R111). -/
def Fmt.round (f : Fmt) (mode : Rnd) (u : Nat) : Num → Nat × Flags
  | .nan => if f.sp = .e2m1 then (0, flNV) else (f.canon, 0)
  | .inf s => if f.sp = .ieee then (f.infPat s, 0) else (f.maxFin s, flSAT)
  | .fin s n d =>
    if n = 0 then (f.pack s 0 0, 0) else
    let emin : Int := 1 - f.bias
    let e := max (log2Quot n d) emin
    let qe : Int := e - f.fb
    let num := if 0 ≤ qe then n else n * 2 ^ (-qe).toNat
    let den := if 0 ≤ qe then d * 2 ^ qe.toNat else d
    let q := num / den
    let r := num % den
    let inexact := r != 0
    let m := if roundsUp mode u s q r den then q + 1 else q
    let nx := flagIf inexact flNX
    if m < 2 ^ f.fb then (f.pack s 0 m, nx ||| flagIf (inexact && m != 0) flUF) else
    let carry := decide (2 ^ (f.fb + 1) ≤ m)
    let m' := if carry then m / 2 else m
    let be : Int := qe + f.fb + f.bias + (if carry then 1 else 0)
    let ovf := (f.topExp : Int) < be ∨ (be = f.topExp ∧ f.topFrac < m' - 2 ^ f.fb)
    if ovf then
      if f.saturates then (f.maxFin s, nx ||| flSAT) else
      let toInf := match mode with
        | .rtz => false
        | .rdn => s
        | .rup => !s
        | _ => true
      (if toInf then f.infPat s else f.maxFin s, flOF ||| flNX)
    else (f.pack s be.toNat (m' - 2 ^ f.fb), nx)

/-- fl32 of an exact value (00 R7). -/
def fl32 (x : Num) : W32 × Flags :=
  let (p, f) := fmtF32.round .rne 0 x
  (BitVec.ofNat 32 p, f)

/-- The value of an f32 pattern. -/
def f32val (w : W32) : Num := fmtF32.decode w.toNat

/-- x rounded to an integer, with whether that was inexact (05 R110); 0 for what is not finite. -/
def roundInt (mode : Rnd) (u : Nat) : Num → Int × Bool
  | .fin s n d =>
    let q := n / d
    let r := n % d
    (signed s (if roundsUp mode u s q r d then q + 1 else q), r != 0)
  | _ => (0, false)

/-! ### Types (04 R76, 05 R103, R105) -/

/-- The floating-point format of a type, if it is one. -/
def tyFmt : Ty → Option Fmt
  | .f32 => some fmtF32
  | .bf16 => some fmtBF16
  | .f16 => some fmtF16
  | .e4m3 => some fmtE4M3
  | .e5m2 => some fmtE5M2
  | _ => none

/-- The width of a value of a scalar type in a vector operand; block elements have 8 or 4 bits (02 R39, 05 R107). -/
def tyWidth : Ty → Nat
  | .f32 | .i32 | .n32 => 32
  | .bf16 | .f16 | .i16 | .n16 => 16
  | .e4m3 | .e5m2 | .i8 | .n8 | .mx8 | .sf8 => 8
  | .mx4 | .q4o => 4

/-- Whether an integer type is signed. -/
def tySigned : Ty → Bool
  | .i32 | .i16 | .i8 => true
  | _ => false

def tyIsInt : Ty → Bool
  | .i32 | .i16 | .i8 | .n32 | .n16 | .n8 => true
  | _ => false

/-- The least and greatest value of an integer type (05 R105). -/
def tyLo (t : Ty) : Int := if tySigned t then -(2 ^ (tyWidth t - 1) : Nat) else 0
def tyHi (t : Ty) : Int := if tySigned t then (2 ^ (tyWidth t - 1) : Nat) - 1 else (2 ^ tyWidth t : Nat) - 1

/-- The integer a pattern of an integer type denotes. -/
def intVal (t : Ty) (b : Nat) : Int := if tySigned t then sextNat b (tyWidth t) else (b % 2 ^ tyWidth t : Nat)

/-- An exact integer saturated to a type (05 R105, R112), with SAT if it changed. -/
def intSat (t : Ty) (x : Int) : Nat × Flags :=
  let y := sat x (tyLo t) (tyHi t)
  ((BitVec.ofInt (tyWidth t) y).toNat, flagIf (y ≠ x) flSAT)

/-- The exact value of a pattern of a scalar type. -/
def tyVal (t : Ty) (b : Nat) : Num :=
  match tyFmt t with
  | some f => f.decode b
  | none => .ofInt (intVal t b)

/-- A value converted into a scalar type from another (05 R111, R112). A negative value of an i type to a wider n type, which
the row of exact conversions cannot hold, saturates to 0 and sets SAT, as to one of equal width (log 53). -/
def convert (src dst : Ty) (mode : Rnd) (u : Nat) (b : Nat) : Nat × Flags :=
  match tyFmt src, tyFmt dst with
  | some fs, some fd =>
    if src = dst then
      (match fs.decode b with | .nan => (fs.canon, 0) | _ => (b % 2 ^ tyWidth src, 0))
    else fd.round mode u (fs.decode b)
  | none, some fd => fd.round mode u (.ofInt (intVal src b))
  | some fs, none =>
    (match fs.decode b with
     | .nan => (0, flNV)
     | .inf s => ((intSat dst (if s then tyLo dst else tyHi dst)).1, flNV)
     | x =>
       let (i, inx) := roundInt mode u x
       let (p, f) := intSat dst i
       (p, f ||| flagIf inx flNX))
  | none, none => intSat dst (intVal src b)

/-! ### twosum and carry pairs (00 R8, 05 R123) -/

/-- The f32 sum of two f32 patterns, with the flags of the sum and of its rounding. -/
def fadd32 (a b : W32) : W32 × Flags :=
  let (x, f) := Num.add false (f32val a) (f32val b)
  let (p, g) := fl32 x
  (p, f ||| g)

/-- The f32 pattern with its sign bit inverted. -/
def fneg32 (a : W32) : W32 := a ^^^ 0x80000000#32

/-- Whether an f32 pattern is finite. -/
def isFin32 (a : W32) : Bool := bits a 30 23 != 255

/-- twosum(a, b) of R8, with the flags of all its additions. Where s is finite and s - b overflows, R8's steps give a NaN in c and its
sentence that s + c is a + b does not hold: here the steps stand (DESIGN CHOICE, log 71). -/
def twosum (a b : W32) : (W32 × W32) × Flags :=
  let (s, f) := fadd32 a b
  if isFin32 a && isFin32 b && isFin32 s then
    let ap := fadd32 s (fneg32 b)
    let bp := fadd32 s (fneg32 ap.1)
    let da := fadd32 a (fneg32 ap.1)
    let db := fadd32 b (fneg32 bp.1)
    let c := fadd32 da.1 db.1
    ((s, c.1), f ||| ap.2 ||| bp.2 ||| da.2 ||| db.2 ||| c.2)
  else ((s, 0#32), f)

/-- cp_add of R123, with the flags NV and OF of every addition inside it, and NX if a rounding of t is inexact: that is all
a pair loses (05 R123). -/
def cpAdd (x y : W32 × W32) : (W32 × W32) × Flags :=
  let ((s, e), f1) := twosum x.1 y.1
  let (t1, f2) := fadd32 x.2 y.2
  let (t, f3) := fadd32 t1 e
  let (p, f4) := twosum s t
  (p, ((f1 ||| f4) &&& (flNV ||| flOF)) ||| ((f2 ||| f3) &&& (flNV ||| flOF ||| flNX)))

/-! ### Philox (00 R9) -/

/-- One round of Philox-4x32. -/
def philoxRound (k0 k1 : Nat) (x : Nat × Nat × Nat × Nat) : Nat × Nat × Nat × Nat :=
  let (x0, x1, x2, x3) := x
  let p0 := 0xD2511F53 * x0
  let p1 := 0xCD9E8D57 * x2
  ((p1 / 2 ^ 32) ^^^ x1 ^^^ k0, p1 % 2 ^ 32, (p0 / 2 ^ 32) ^^^ x3 ^^^ k1, p0 % 2 ^ 32)

/-- The remaining rounds of Philox, the keys advancing between them. -/
def philoxRounds : Nat → Nat → Nat → Nat × Nat × Nat × Nat → Nat × Nat × Nat × Nat
  | 0, _, _, x => x
  | n + 1, k0, k1, x =>
    philoxRounds n ((k0 + 0x9E3779B9) % 2 ^ 32) ((k1 + 0xBB67AE85) % 2 ^ 32) (philoxRound k0 k1 x)

/-- philox(key, ctr): word i of the result is component i (00 R9). -/
def philox (key : W64) (ctr : BitVec 128) : Nat × Nat × Nat × Nat :=
  philoxRounds 10 (bits key 31 0) (bits key 63 32) (bits ctr 31 0, bits ctr 63 32, bits ctr 95 64, bits ctr 127 96)

/-- Word (j mod 4) of philox(key, ctr + ⌊j/4⌋): what lane j of a row takes (05 R119). -/
def philoxLane (key : W64) (ctr : BitVec 128) (j : Nat) : Nat :=
  let (a, b, c, d) := philox key (ctr + BitVec.ofNat 128 (j / 4))
  match j % 4 with
  | 0 => a
  | 1 => b
  | 2 => c
  | _ => d

/-! ### Stochastic rounding bits (05 R116, R117) -/

/-- lfsr_step of R116. -/
def lfsrStep (st : W32) : W32 :=
  let sh := st >>> 1
  if bit st 0 then sh ^^^ 0x80200003#32 else sh

/-- The value a converter state takes from a half of rng.key: 0 loads as 1 (05 R116). -/
def convLoad (w : Nat) : W32 := if w % 2 ^ 32 = 0 then 1#32 else BitVec.ofNat 32 w

/-- rotr32 (00 R7). -/
def rotr32 (v : W32) (s : Nat) : W32 := v.rotateRight (s % 32)

/-- The u of lane i, packed position p (05 R117). -/
def ditherU (st : W32) (i p : Nat) : Nat := bits (rotr32 st ((5 * i + 8 * p) % 32)) 15 0

end Sys2Proof.Machine
end

