-- ==== Sys2Proof/Machine/Blocks.lean ====
section
/-!
DEFINITION. The block formats mx8, mx4, sf8 and q4o: layout, decoding, choice of scales and quantisation
(05 R106 to R109, R114, R115).
-/

namespace Sys2Proof.Machine

/-- Bits of a block of 32 elements in a packed stream (05 R106). -/
def blockBits : Ty → Nat
  | .mx8 => 264
  | .mx4 => 136
  | .sf8 => 272
  | .q4o => 160
  | _ => 0

def tyIsBlock : Ty → Bool
  | .mx8 | .mx4 | .sf8 | .q4o => true
  | _ => false

/-- Bits taken by the elements alone of a block (05 R106, R107). -/
def blockElemBits (t : Ty) : Nat := 32 * tyWidth t

/-- The block whose elements and side data are given apart: the side data follows the elements (05 R106, R107). -/
def blockJoin (t : Ty) (elems side : Nat) : Nat :=
  let k := match t with
    | .mx8 | .mx4 => 8
    | .sf8 => 16
    | _ => 32
  elems % 2 ^ blockElemBits t + side % 2 ^ k * 2 ^ blockElemBits t

/-- The value of an E8M0 pattern (05 R108). -/
def e8m0 (x : Nat) : Num := if x % 256 = 255 then .nan else .dyadic false 1 ((x % 256 : Nat) - 127)

/-- Element j of a block as its pattern. -/
def blockElem (t : Ty) (b j : Nat) : Nat := b / 2 ^ (tyWidth t * j) % 2 ^ tyWidth t

/-- The scale of a block (05 R106). -/
def blockScale (t : Ty) (b : Nat) : Num :=
  match t with
  | .mx8 | .mx4 => e8m0 (b / 2 ^ blockElemBits t % 2 ^ 8)
  | _ => fmtBF16.decode (b / 2 ^ blockElemBits t % 2 ^ 16)

/-- decode_q4o of R109 from pair p on: the values in reverse order, and whether BLK is set. `i` counts marked pairs. -/
def q4oPairs (b : Nat) (s : Num) (ow : Nat) : Nat → Nat → Nat → List Num → Bool → List Num × Bool
  | 0, _, _, acc, blk => (acc, blk)
  | fuel + 1, p, i, acc, blk =>
    let lo := b / 2 ^ (8 * p) % 16
    let hi := b / 2 ^ (8 * p + 4) % 16
    if lo = 8 ∨ hi = 8 then
      let hn := if lo = 8 then hi else lo
      let ov : Num := if i < 4 then (Num.mul (fmtE4M3.decode (hn * 16 + ow / 2 ^ (4 * i) % 16)) s).1 else .fin false 0 1
      let z : Num := .fin false 0 1
      let pair := if lo = 8 then z :: ov :: acc else ov :: z :: acc
      q4oPairs b s ow fuel (p + 1) (i + 1) pair (blk || decide (4 ≤ i))
    else
      let x := (Num.mul (.ofInt (sextNat lo 4)) s).1
      let y := (Num.mul (.ofInt (sextNat hi 4)) s).1
      q4oPairs b s ow fuel (p + 1) i (y :: x :: acc) blk

/-- The 32 values of a block, and whether BLK is set (05 R108, R109). A product of 0 and an infinity in it sets no NV: DESIGN CHOICE,
log 68. -/
def blockDecode (t : Ty) (b : Nat) : List Num × Bool :=
  let s := blockScale t b
  match t with
  | .q4o =>
    let (r, blk) := q4oPairs b s (b / 2 ^ 144 % 2 ^ 16) 16 0 0 [] false
    (r.reverse, blk)
  | .mx4 => ((List.range 32).map (fun j => (Num.mul (fmtE2M1.decode (blockElem t b j)) s).1), false)
  | _ => ((List.range 32).map (fun j => (Num.mul (fmtE4M3.decode (blockElem t b j)) s).1), false)

/-! ### Choosing a scale (05 R114) -/

/-- The percentile code of VQNT: 0 and 257 to 511 read as 256. -/
def percentile (q : Nat) : Nat := if q % 512 = 0 ∨ 256 < q % 512 then 256 else q % 512

/-- ⌊log2 |x|⌋ of the nonzero finite inputs. -/
def exps (xs : List Num) : List Int :=
  xs.filterMap (fun x => match x with
    | .fin _ n d => if n = 0 then none else some (log2Quot n d)
    | _ => none)

/-- The least exponent of the list at or below which at least m of the list lie. -/
def clipExp (es : List Int) (m : Nat) : Int :=
  (es.filter (fun e => decide (m ≤ (es.filter (fun x => decide (x ≤ e))).length))).foldl
    (fun acc e => match acc with | none => some e | some a => some (min a e)) (none : Option Int) |>.getD 0

/-- The bf16 pattern of a scale, with the replacements of R114 step 4. -/
def bf16Scale (e : Int) (k : Nat) : Nat :=
  let x : Num := if 0 ≤ e + 1 then .fin false (2 ^ (e + 1).toNat) k else .fin false 1 (k * 2 ^ (-(e + 1)).toNat)
  let p := (fmtBF16.round .rne 0 x).1
  if p = 0x7F80 then 0x7F7F else if p = 0 then 1 else p

/-- The scale pattern chosen for a block with exponent E (05 R114 step 4). -/
def scalePat (t : Ty) (e : Int) : Nat :=
  match t with
  | .mx8 => (sat (e - 8 + 127) 0 254).toNat
  | .mx4 => (sat (e - 2 + 127) 0 254).toNat
  | .sf8 => bf16Scale e 448
  | _ => bf16Scale e 7

/-- The value of a scale pattern of a block type. -/
def scaleVal (t : Ty) (p : Nat) : Num :=
  match t with
  | .mx8 | .mx4 => e8m0 p
  | _ => fmtBF16.decode p

/-! ### Quantising (05 R115) -/

/-- Inserts a candidate into a list ordered by magnitude descending, then by index ascending. -/
def candInsert (c : Nat × Num) : List (Nat × Num) → List (Nat × Num)
  | [] => [c]
  | d :: ds =>
    if Num.lt d.2.abs c.2.abs || (Num.eq d.2.abs c.2.abs && decide (c.1 < d.1)) then c :: d :: ds
    else d :: candInsert c ds

/-- At most four candidates, none the partner of an accepted one, in the given order. -/
def candAccept : List (Nat × Num) → List Nat → List Nat
  | [], acc => acc
  | c :: cs, acc => candAccept cs (if acc.length < 4 ∧ ¬ (c.1 ^^^ 1) ∈ acc then acc ++ [c.1] else acc)

/-- One slot of quant_q4o: the running codes, outlier word, outlier count and flags. -/
structure QState where
  slots : NMap Nat
  ow : Nat
  i : Nat
  fl : Flags

/-- quant_q4o of R115: codes as the element bits of the block, the outlier word, the flags. -/
def quantQ4o (mode : Rnd) (u : Nat → Nat) (xs : List Num) (s : Num) : Nat × Nat × Flags :=
  let x (j : Nat) : Num := xs.getD j .nan
  let n (j : Nat) : Int × Bool := roundInt mode (u j) (Num.divFin (x j) s)
  let cand := (List.range 32).foldl
    (fun l j => if 7 < (n j).1.natAbs then candInsert (j, x j) l else l) []
  let acc := candAccept cand []
  let fin := (List.range 32).foldl
    (fun (st : QState) j =>
      if j ∈ acc then
        let (o, f) := fmtE4M3.round mode (u j) (Num.divFin (x j) s)
        { slots := (st.slots.set j 8).set (j ^^^ 1) (o / 16 % 16), ow := st.ow + o % 16 * 2 ^ (4 * st.i),
          i := st.i + 1, fl := st.fl ||| f }
      else if (j ^^^ 1) ∈ acc then { st with fl := st.fl ||| flagIf (!(x j).isZero) flQGU }
      else
        let (v, inx) := n j
        { st with slots := st.slots.set j ((BitVec.ofInt 4 (sat v (-7) 7)).toNat),
                  fl := st.fl ||| flagIf inx flNX ||| flagIf (7 < v.natAbs) flQOS })
    ⟨[], 0, 0, 0⟩
  ((List.range 32).foldr (fun j a => fin.slots.getD j 0 + a * 16) 0, fin.ow, fin.fl)

/-- A block of 32 inputs quantised under a percentile code: element bits, side lane, flags (05 R114, R115). -/
def quantBlock (t : Ty) (q : Nat) (mode : Rnd) (u : Nat → Nat) (xs : List Num) : Nat × Nat × Flags :=
  let bad := xs.any (fun x => match x with | .fin _ _ _ => false | _ => true)
  let es := exps xs
  if bad then (0, (match t with | .mx8 | .mx4 => 0xFF | _ => 0x7FC0), flNV)
  else if es = [] then (0, (match t with | .mx8 | .mx4 => 0x7F | _ => 0x3F80), 0)
  else
    let m := (percentile q * es.length + 255) / 256
    let sp := scalePat t (clipExp es m)
    let s := scaleVal t sp
    match t with
    | .q4o =>
      let (e, ow, f) := quantQ4o mode u xs s
      (e, sp + ow * 2 ^ 16, f)
    | _ =>
      let fm := if t = .mx4 then fmtE2M1 else fmtE4M3
      let w := tyWidth t
      let r := (List.range 32).foldr
        (fun j (a : Nat × Flags) =>
          let (p, f) := fm.round mode (u j) (Num.divFin (xs.getD j .nan) s)
          (p + a.1 * 2 ^ w, f ||| a.2)) (0, 0)
      (r.1, sp, r.2)

end Sys2Proof.Machine
end

