-- ==== Sys2Proof/Machine/Crypto.lean ====
section
/-!
DEFINITION. The functions that the manual names by their standards: SHA-512, AES-256 in counter mode, X25519 and Ed25519 (14 R306,
R308, R318, R319, R322, R323). Log 9. Byte strings become numbers with their first byte least significant, unless a
definition says otherwise.
-/

namespace Sys2Proof.Machine

/-! ### SHA-512 -/

/-- The first 80 primes lie below 410. -/
def primes : List Nat := (List.range 410).filter fun n => 2 ≤ n && (List.range n).all fun d => d < 2 || n % d != 0

/-- The greatest number whose k-th power is at most n, of 67 bits. -/
def rootOf (k n : Nat) : Nat := (List.range 67).foldr (fun i r => if (r + 2 ^ i) ^ k ≤ n then r + 2 ^ i else r) 0

/-- The first 64 bits of the fractions of the cube roots of the first 80 primes, and of the square roots of the first 8. -/
def shaRound : List W64 := primes.map fun p => BitVec.ofNat 64 (rootOf 3 (p * 2 ^ 192))
def shaStart : List W64 := (primes.take 8).map fun p => BitVec.ofNat 64 (rootOf 2 (p * 2 ^ 128))

/-- A number of bytes, first byte most significant. -/
def beNat (l : List Byte) : Nat := l.foldl (fun n b => n * 256 + b.toNat) 0
def beBytes (n v : Nat) : List Byte := (leBytes n v).reverse

/-- A message padded to whole blocks of 128 bytes. -/
def shaPad (m : List Byte) : List Byte :=
  m ++ 0x80#8 :: List.replicate ((239 - m.length % 128) % 128) 0#8 ++ beBytes 16 (8 * m.length)

/-- The words of a block and the 64 that follow from them, newest first. -/
def shaWords : Nat → List W64 → List W64
  | 0, w => w
  | n + 1, w =>
    let at' (i : Nat) : W64 := w.getD i 0#64
    let s0 (x : W64) : W64 := x.rotateRight 1 ^^^ x.rotateRight 8 ^^^ x >>> 7
    let s1 (x : W64) : W64 := x.rotateRight 19 ^^^ x.rotateRight 61 ^^^ x >>> 6
    shaWords n ((s1 (at' 1) + at' 6 + s0 (at' 14) + at' 15) :: w)

/-- One round on the eight working words. -/
def shaStep (v : List W64) (kw : W64 × W64) : List W64 :=
  match v with
  | [a, b, c, d, e, f, g, h] =>
    let t := h + (e.rotateRight 14 ^^^ e.rotateRight 18 ^^^ e.rotateRight 41) + ((e &&& f) ^^^ (~~~e &&& g)) + kw.1 + kw.2
    let u := (a.rotateRight 28 ^^^ a.rotateRight 34 ^^^ a.rotateRight 39) + ((a &&& b) ^^^ (a &&& c) ^^^ (b &&& c))
    [t + u, a, b, c, d + t, e, f, g]
  | v => v

/-- A block taken into the hash. -/
def shaBlock (h : List W64) (block : List Byte) : List W64 :=
  let w := (List.range 16).map fun i => BitVec.ofNat 64 (beNat ((block.drop (8 * i)).take 8))
  let v := (shaRound.zip (shaWords 64 w.reverse).reverse).foldl shaStep h
  (h.zip v).map fun p => p.1 + p.2

/-- SHA-512 of a byte string; its first byte is the least significant of the result. -/
def sha512 (m : List Byte) : BitVec 512 :=
  let bs := shaPad m
  let h := (List.range (bs.length / 128)).foldl (fun (h : List W64) i => shaBlock h ((bs.drop (128 * i)).take 128)) shaStart
  BitVec.ofNat 512 (leNat (h.flatMap fun x => beBytes 8 x.toNat))

/-! ### AES-256 -/

/-- Multiplication in the field of 256 elements. -/
def gfMul (a b : Byte) : Byte :=
  ((List.range 8).foldl (fun (r : Byte × Byte) i =>
    (if b.getLsbD i then r.1 ^^^ r.2 else r.1, r.2 <<< 1 ^^^ (if r.2.getLsbD 7 then 0x1B#8 else 0#8))) (0#8, a)).1

/-- The substitution of a byte: its inverse, as its power 254, under the affine map. -/
def aesSub (x : Byte) : Byte :=
  let sq (a : Byte) : Byte := gfMul a a
  let i := sq ((List.range 6).foldl (fun (r : Byte) _ => gfMul (sq r) x) x)
  i ^^^ i.rotateLeft 1 ^^^ i.rotateLeft 2 ^^^ i.rotateLeft 3 ^^^ i.rotateLeft 4 ^^^ 0x63#8

def xorBytes (a b : List Byte) : List Byte := (a.zip b).map fun p => p.1 ^^^ p.2

/-- The words of the key schedule, newest first; n of them are still to come, and `rc` is the next round constant. -/
def aesSchedule : Nat → Nat → Byte → List (List Byte) → List (List Byte)
  | 0, _, _, w => w
  | n + 1, i, rc, w =>
    let last := w.headD []
    let t :=
      if i % 8 = 0 then xorBytes ((last.drop 1 ++ last.take 1).map aesSub) [rc, 0#8, 0#8, 0#8]
      else if i % 8 = 4 then last.map aesSub else last
    aesSchedule n (i + 1) (if i % 8 = 0 then gfMul rc 2#8 else rc) (xorBytes (w.getD 7 []) t :: w)

/-- The fifteen round keys of a key. -/
def aesKeys (key : BitVec 256) : List (List Byte) :=
  let bs := leBytes 32 key.toNat
  let w := (aesSchedule 52 8 1#8 ((List.range 8).map fun i => (bs.drop (4 * i)).take 4).reverse).reverse
  (List.range 15).map fun r => ((w.drop (4 * r)).take 4).flatten

/-- The rows of a block rotated. -/
def aesShift (b : List Byte) : List Byte := (List.range 16).map fun i => b.getD ((i + 4 * (i % 4)) % 16) 0#8

/-- The columns of a block mixed. -/
def aesMix (b : List Byte) : List Byte :=
  (List.range 16).map fun i =>
    let at' (k : Nat) : Byte := b.getD (i / 4 * 4 + (i + k) % 4) 0#8
    gfMul 2#8 (at' 0) ^^^ gfMul 3#8 (at' 1) ^^^ at' 2 ^^^ at' 3

/-- A block of 16 bytes under round keys. -/
def aesEncrypt (keys : List (List Byte)) (block : List Byte) : List Byte :=
  let key (r : Nat) : List Byte := keys.getD r []
  let b := (List.range 13).foldl (fun (b : List Byte) r => xorBytes (aesMix (aesShift (b.map aesSub))) (key (r + 1))) (xorBytes block (key 0))
  xorBytes (aesShift (b.map aesSub)) (key 14)

/-- AES-256 counter mode over bytes from a counter, whose most significant byte comes first in its block: it is its own inverse. -/
def aesCtr (key : BitVec 256) (ctr : BitVec 128) (bs : List Byte) : List Byte :=
  let keys := aesKeys key
  (List.range ((bs.length + 15) / 16)).flatMap fun i =>
    xorBytes ((bs.drop (16 * i)).take 16) (aesEncrypt keys (beBytes 16 (ctr + BitVec.ofNat 128 i).toNat))

/-! ### The field and the curve -/

/-- The field's order, the group's order, and the curve's constant. -/
def fieldP : Nat := 2 ^ 255 - 19
def groupL : Nat := 2 ^ 252 + 27742317777372353535851937790883648493

/-- A power in the field. -/
def fpow (a e : Nat) : Nat :=
  ((List.range 256).foldl (fun (r : Nat × Nat) i =>
    (if e.testBit i then r.1 * r.2 % fieldP else r.1, r.2 * r.2 % fieldP)) (1, a % fieldP)).1

def finv (a : Nat) : Nat := fpow a (fieldP - 2)
def fsub (a b : Nat) : Nat := (a + fieldP - b % fieldP) % fieldP

def curveD : Nat := fsub 0 (121665 * finv 121666 % fieldP)

/-- The 32 bytes of a secret as the scalar they stand for. -/
def clampScalar (n : Nat) : Nat := n % 2 ^ 254 / 8 * 8 + 2 ^ 254

/-! ### X25519 -/

/-- One step of the ladder: the two points as fractions, and whether they are swapped. -/
structure Ladder where
  x2 : Nat
  z2 : Nat
  x3 : Nat
  z3 : Nat
  swap : Bool

def Ladder.flip (l : Ladder) (b : Bool) : Ladder := if b then { l with x2 := l.x3, z2 := l.z3, x3 := l.x2, z3 := l.z2 } else l

def Ladder.step (u : Nat) (l : Ladder) (bit : Bool) : Ladder :=
  let l := l.flip (l.swap != bit)
  let a := (l.x2 + l.z2) % fieldP
  let b := fsub l.x2 l.z2
  let aa := a * a % fieldP
  let bb := b * b % fieldP
  let e := fsub aa bb
  let da := fsub l.x3 l.z3 * a % fieldP
  let cb := (l.x3 + l.z3) * b % fieldP
  let p := da + cb
  let m := fsub da cb
  { x2 := aa * bb % fieldP, z2 := e * (aa + 121665 * e) % fieldP, x3 := p * p % fieldP, z3 := u * (m * m) % fieldP, swap := bit }

/-- X25519 of a secret and a public key. -/
def xShared (k u : BitVec 256) : BitVec 256 :=
  let n := clampScalar k.toNat
  let x := u.toNat % 2 ^ 255 % fieldP
  let l := (List.range 255).foldr (fun i (l : Ladder) => l.step x (n.testBit i)) (⟨1, 0, x, 1, false⟩ : Ladder)
  let l := l.flip l.swap
  BitVec.ofNat 256 (l.x2 * finv l.z2 % fieldP)

/-- The X25519 public key of a secret. -/
def xPublic (k : BitVec 256) : BitVec 256 := xShared k 9#256

/-! ### Ed25519 -/

/-- A point of the Edwards curve in extended coordinates. -/
structure EdPoint where
  x : Nat
  y : Nat
  z : Nat
  t : Nat

def EdPoint.add (p q : EdPoint) : EdPoint :=
  let a := fsub p.y p.x * fsub q.y q.x % fieldP
  let b := (p.y + p.x) * (q.y + q.x) % fieldP
  let c := 2 * p.t * q.t % fieldP * curveD % fieldP
  let d := 2 * p.z * q.z % fieldP
  let e := fsub b a
  let f := fsub d c
  let g := d + c
  let h := b + a
  { x := e * f % fieldP, y := g * h % fieldP, t := e * h % fieldP, z := f * g % fieldP }

def EdPoint.neg (p : EdPoint) : EdPoint := { p with x := fsub 0 p.x, t := fsub 0 p.t }

/-- A multiple of a point. -/
def EdPoint.mul (p : EdPoint) (n : Nat) : EdPoint :=
  ((List.range 256).foldl (fun (r : EdPoint × EdPoint) i => (if n.testBit i then r.1.add r.2 else r.1, r.2.add r.2))
    (⟨0, 1, 1, 0⟩, p)).1

/-- A point as 256 bits: y, and the parity of x above it. -/
def EdPoint.encode (p : EdPoint) : Nat :=
  let i := finv p.z
  p.y * i % fieldP + p.x * i % fieldP % 2 * 2 ^ 255

/-- The point that 256 bits stand for, if any. -/
def edDecode (n : Nat) : Option EdPoint :=
  let y := n % 2 ^ 255
  let u := fsub (y * y) 1
  let v := (curveD * (y * y % fieldP) + 1) % fieldP
  let q := u * finv v % fieldP
  let r := fpow q ((fieldP + 3) / 8)
  let x := if r * r % fieldP = q then r else r * fpow 2 ((fieldP - 1) / 4) % fieldP
  if fieldP ≤ y ∨ x * x % fieldP ≠ q ∨ (x = 0 ∧ n.testBit 255 = true) then none
  else
    let x := if x % 2 = n / 2 ^ 255 % 2 then x else fsub 0 x
    some ⟨x, y, 1, x * y % fieldP⟩

/-- The base point. -/
def edBase : EdPoint := (edDecode (4 * finv 5 % fieldP)).getD ⟨0, 1, 1, 0⟩

/-- The secret scalar of a seed. -/
def edScalar (seed : BitVec 256) : Nat := clampScalar ((sha512 (leBytes 32 seed.toNat)).toNat % 2 ^ 256)

/-- The Ed25519 public key of a seed. -/
def edPublic (seed : BitVec 256) : BitVec 256 := BitVec.ofNat 256 (edBase.mul (edScalar seed)).encode

/-- The hash that binds a signature's first half, a public key and a message. -/
def edBind (r a : Nat) (m : List Byte) : Nat := (sha512 (leBytes 32 r ++ leBytes 32 a ++ m)).toNat % groupL

/-- The Ed25519 signature of a message under a seed. -/
def edSign (seed : BitVec 256) (m : List Byte) : BitVec 512 :=
  let half := (sha512 (leBytes 32 seed.toNat)).toNat / 2 ^ 256
  let n := (sha512 (leBytes 32 half ++ m)).toNat % groupL
  let r := (edBase.mul n).encode
  BitVec.ofNat 512 (r + (n + edBind r (edPublic seed).toNat m * edScalar seed) % groupL * 2 ^ 256)

/-- Whether a signature of a message holds under a public key. -/
def edVerify (key : BitVec 256) (m : List Byte) (sig : BitVec 512) : Bool :=
  let r := sig.toNat % 2 ^ 256
  let s := sig.toNat / 2 ^ 256
  match edDecode key.toNat with
  | none => false
  | some a => decide (s < groupL) && ((edBase.mul s).add ((a.mul (edBind r key.toNat m)).neg)).encode == r

end Sys2Proof.Machine
end

