-- ==== Sys2Proof/Config.lean ====
section
/-!
DEFINITION. What the manual leaves open, as constants with no body: nothing can evaluate them, so a statement that
holds of the model holds for every value of them. Each is named in a log entry.
-/

namespace Sys2Proof.Config

/-- The n-th thing that happens when the agenda of the state is empty (log 4). -/
opaque nextAction : Nat → Action

/-- The tid the device would like to give a task (06 R127: no order of assignment is defined; log 14). -/
opaque tid : Nat → BitVec 32

/-- Which entry of a full TLB, of the given number of entries, makes room (08 R193; log 12). -/
opaque tlbVictim : Nat → Nat

/-- Whether a die still holds its copy of a space record (08 R188; log 12). -/
opaque spaceKept : Nat → Bool

/-- Levels of nodes whose counters a write advances before it meets one that is held verified (14 R309; log 61). -/
opaque nodeLevels : Nat → Nat

/-- Which of the values that a VD may still see in a window it sees (09 R222; log 65). -/
opaque seenOf : Nat → Nat

/-- Which of several things that the manual does not order among themselves comes next (09 R208; log 7). -/
opaque nextOf : Nat → Nat

/-- Draws of the security block's random source (14 R307; log 9). -/
opaque random : Nat → BitVec 256

/-- The 256-bit PUF secret of a die of a module (14 R318; log 9). -/
opaque puf : Nat → BitVec 256

/-- The key whose public half is in the boot ROM, and the SHA-512 of the boot ROM (14 R318, R319; log 9). -/
opaque romKey : BitVec 256
opaque romHash : BitVec 512

/-- Park frames that the HBM of a die can supply (14 R304; log 28). -/
opaque parkSupply : Nat → Nat

/-- Park frame i of a VD's pool on a die, by VD key and die: its address in the HBM of the die (12 R264; log 28). -/
opaque parkFrame : Nat → Nat → Nat → Nat

/-- How many records of its own fault ring firmware has read (12 R274; log 37). -/
opaque firmwareRead : Nat → Nat

/-- Which of the tasks that a member of a group may stand for it is (09 R220; log 32). -/
opaque memberTask : Nat → Nat

/-- The header of a firmware image: security version, raise-floor bit, signature, and the bytes that it signs (14 R320; log 28). -/
opaque imageHeader : List Byte → BitVec 32 × Bool
opaque imageSigned : List Byte → BitVec 512 × List Byte

/-- Bytes of a service ring and of a reply ring (14 R315; log 27). -/
opaque serviceRing : Nat
opaque replyRing : Nat

/-- Migration messages and bytes, and the bytes a confirm, an ack and a LOST reply sign (14 R322, R325; log 29). -/
opaque readMessage : List Byte → Option MigMsg
opaque writeMessage : MigMsg → List Byte
opaque signedText : Nat → BitVec 256 → BitVec 256 → List Byte

/-- The configuration record that a source's firmware holds for the module that a report comes from (14 R322; log 29). -/
opaque peerRecord : List Byte → List Byte

/-- Whether a source's policy accepts a destination's report (14 R322; log 29). -/
opaque migPolicy : List Byte → Bool

/-- The answer to a PCIe configuration request to a function (15 R326; log 15). -/
opaque configAnswer : Nat → Nat → BitVec 32

end Sys2Proof.Config
end

