-- ==== Sys2Proof/Machine/State.lean ====
section
/-!
DEFINITION. The state of a pod as plain data: modules, dies, cores, virtual devices, tasks with everything that belongs
to their context, bells, memory, and everything in flight (accesses, copies, walks, packets). `State.reset` is a pod
that has just been powered on. Maps hold only the keys that differ from a default, which is what the manual gives for
reset or creation. The fields that belong to the model and not to the manual are named as such (log 4).
-/

namespace Sys2Proof.Machine

/-! ### Why a step stops -/

/-- Reasons for the machine to stop with a fault. None is raised: the manual gives every encoding, access and sequence
an effect or a trap (00 R12). -/
inductive Fault
  /-- Raised by no definition of the model. Safe. -/
  | none
  deriving DecidableEq, Repr

/-- Reasons for an instruction to have no meaning in the model. -/
inductive Refusal
  /-- Raised by an arm of `exec` whose instruction has no meaning yet, with its mnemonic. Safe. -/
  | notModelled (mnemonic : String)
  deriving DecidableEq, Repr

/-- The result of a step. -/
abbrev Result (σ : Type) := Host.Outcome σ Fault Refusal

/-! ### Sequencers -/

/-- Privilege levels (00 R10). No task is created at level F. -/
inductive Level | t | s | f
  deriving DecidableEq, Repr, Inhabited

/-- Bundle slots (02 R31), in landing order (02 R32). Results of CTL, LDA and STA use x. -/
inductive Slot | m | v0 | v1 | x
  deriving DecidableEq, Repr, Inhabited

/-- Stream states (06 R131). -/
inductive StreamState | idle | running | joining
  deriving DecidableEq, Repr, Inhabited

/-- How a sequencer came to a line, which decides the trap of a bad word index and `tr.from` (16 R357). -/
inductive EntryKind | succession | delta | pointer | fresh
  deriving DecidableEq, Repr, Inhabited

/-- Where a fixed-latency result lands (06 R148). -/
inductive Dest | vec (f : FVec) | reg (r : GReg) | qs (i : BitVec 2) | plane
  deriving DecidableEq, Repr, Inhabited

/-- What an MMA or MMAT needs at its accumulator read (10 R232, R233): the activation format, its entry and side
lanes, the plane, ov, and the mask of MMAT as diagonal offset and mask bits. -/
structure MatOp where
  aty : Ty := .bf16
  elems : Entry := 0#4096
  side : Entry := 0#4096
  sideRow : Nat := 0
  plane : Bool := false
  ov : Bool := false
  mask : Option (BitVec 11 × W32) := none
  deriving DecidableEq, Repr, Inhabited

/-- A pending result of the delay line (06 R147, R148). `rem` slots remain; 0 means it is due. An M row holds its
operation until the accumulator is read, one slot before it lands. -/
structure Pend where
  rem : Nat
  slot : Slot := .x
  dest : Dest
  data : Entry := 0#4096
  flags : Flags := 0#9
  mat : Option MatOp := none
  deriving DecidableEq, Repr, Inhabited

/-- What a sequencer's later instructions must respect (09 R204, R213 to R215), carried by tokens, FORK and RDV: the last access of
each sequencer that precedes them, the accesses a release makes their stores wait for, and the accesses a FENCEX makes a class wait
for; `fenced` lists the accesses that lie before a fence (09 R212). The model's own form of the manual's orders (log 6). -/
structure OrdCtx where
  known : NMap Nat := []
  fenced : NMap Nat := []
  rels : List Nat := []
  holds : List (PathClass × List Nat) := []
  deriving DecidableEq, Repr, Inhabited

/-- What a stop entry's second doubleword keeps (03 R62). -/
structure StopMask where
  gmask : Nat := 0
  zmask : Nat := 0
  dl : Bool := false
  deriving DecidableEq, Repr, Inhabited

/-- Progress of a stop request at one sequencer (12 R263): none, running with the slots it has issued since, before a listed
stop point that it has reached, or stopped. -/
inductive StopState | none | asked (slots : Nat) | point (m : StopMask) | stopped
  deriving DecidableEq, Repr, Inhabited

/-- One sequencer of a task (02 R27, 03 R51 to R61, 06 R131). -/
structure Eng where
  run : StreamState := .idle
  regs : NMap W64 := []
  /-- The code pointer of the next word (03 R54). -/
  pc : W64 := 0#64
  /-- The line being run, as read on entry (03 R58); none before the line is entered. -/
  line : Option Line := none
  /-- The line the sequencer came from; 0 for none (12 R267). -/
  src : W64 := 0#64
  entry : EntryKind := .fresh
  /-- The region of the line last issued from (03 R61): true is exposed. -/
  region : Option Bool := none
  /-- Instructions left in the guard span and the guard value (04 R94, R95). -/
  guardLeft : Nat := 0
  guardVal : Bool := true
  pend : List Pend := []
  /-- Flags that are ORed in at the next issue slot without an entry of the delay line (18 R431). -/
  flagsDue : Flags := 0#9
  /-- Registers with an asynchronous result outstanding (06 R145). -/
  async : List GReg := []
  /-- Accesses a fence of this sequencer waits for before the next instruction (09 R213, R214). -/
  hold : List Nat := []
  ord : OrdCtx := {}
  /-- Whether the last attempt to issue stalled, and if so whether in a wait of 06 R152. -/
  stall : Option Bool := none
  /-- Whether the instruction at the code pointer has been tried and has waited for a queue or a token (03 R61), and whether it has
  been tried and has stalled at all (12 R263). -/
  began : Bool := false
  waits : Bool := false
  /-- The tokens that it has tried in vain to add to k7, with nothing else to wait for, and tries to add in every cycle (06 R137). -/
  offer : Option Nat := none
  stop : StopState := .none
  deriving DecidableEq, Repr, Inhabited

/-! ### Queues, planes, tiles, copies -/

/-- A place in a queue (02 R33): a reservation until its entry arrives (16 R374). -/
structure QSlot where
  tag : Nat := 0
  val : Option Entry := none
  deriving DecidableEq, Repr, Inhabited

/-- A weight plane (02 R41): the format latched with it, the latch as it stood, and the first of its entries (10 R229). -/
structure Plane where
  fmt : Option Ty := none
  latch : List Entry := []
  entry : Nat := 0
  deriving DecidableEq, Repr, Inhabited

/-- A side cursor of a QA queue (10 R231). -/
structure SideCur where
  cur : Nat := 0
  aty : Ty := .mx4
  entry : Entry := 0#4096
  deriving DecidableEq, Repr, Inhabited

/-- An allocated tile (08 R173). Rows that are not listed read as 0. -/
structure Tile where
  lvl : Bool := false
  rows : Nat := 0
  rlen : Nat := 64
  bands : List Nat := []
  clen : Nat := 0
  dopen : Bool := false
  dbase : Nat := 0
  dlen : Nat := 0
  snap : BitVec 128 := 0#128
  dc : Nat := 0
  data : NMap Entry := []
  deriving DecidableEq, Repr, Inhabited

/-- One nest level of a channel (11 R239). -/
structure NestLevel where
  count : Nat := 1
  sstride : W64 := 0#64
  dstride : W64 := 0#64
  deriving DecidableEq, Repr, Inhabited

/-- The state of a copy channel (11 R239). -/
structure Chan where
  nest : NMap NestLevel := []
  event : W64 := 0#64
  status : W32 := 0#32
  seq : W32 := 0#32
  deriving DecidableEq, Repr, Inhabited

/-! ### Translation -/

/-- Page kinds (08 R190). -/
inductive PageOrd | so | rc | un
  deriving DecidableEq, Repr, Inhabited

/-- Access kinds of a translation (12 R274). -/
inductive AccKind | read | write | exec | atomic | walk | none
  deriving DecidableEq, Repr, Inhabited

/-- A fault record (12 R274). -/
structure Rec where
  tid : Nat := 0
  die : Nat := 0
  index : Nat := 0
  access : AccKind := .none
  unh : Bool := false
  copy : Bool := false
  eng : Nat := 0
  cause : Nat := 0
  va : Nat := 0
  dw2 : Nat := 0
  dw3 : Nat := 0
  deriving DecidableEq, Repr, Inhabited

/-- What an access tells beside its effect on memory: records for VDs. -/
abbrev Notes := List (Nat × Rec)

/-- A leaf: page address, kind and permissions (08 R190). -/
structure Leaf where
  addr : Nat := 0
  shift : Nat := 16
  ord : PageOrd := .rc
  u : Bool := false
  x : Bool := false
  w : Bool := false
  r : Bool := false
  deriving DecidableEq, Repr, Inhabited

/-- A space record (08 R188). -/
structure Space where
  root : Nat := 0
  fte : Bool := false
  pool : Nat := 0
  plen : Nat := 0
  bad : Bool := false
  deriving DecidableEq, Repr, Inhabited

/-- A die's copy of a space record, for the VD, root and ASID that a walk read it for (08 R188). -/
structure SpaceCopy where
  vd : Nat := 0
  root : Nat := 0
  asid : Nat := 0
  space : Space := {}
  deriving DecidableEq, Repr, Inhabited

/-- A combined translation (08 R191, R193). `size` is the effective page size as a power of two; the IPA page kept with it is of
that size (log 57). -/
structure TlbEntry where
  vd : Nat := 0
  asid : Nat := 0
  va : Nat := 0
  ipa : Nat := 0
  pa : Nat := 0
  size : Nat := 16
  ord : PageOrd := .rc
  u : Bool := false
  x : Bool := false
  w : Bool := false
  r : Bool := false
  deriving DecidableEq, Repr, Inhabited

/-- A failed translation (08 R198, R201). -/
structure TrFault where
  cause : Nat := 0
  va : Nat := 0
  ipa : Nat := 0
  stage2 : Bool := false
  access : AccKind := .read
  deriving DecidableEq, Repr, Inhabited

/-- Who asked for a walk. -/
inductive WalkFor
  | task (uid : Nat) (eng : Engine)
  | copy (copy line : Nat)
  | pref (acc : Nat)
  deriving DecidableEq, Repr, Inhabited

/-- What a walk has found: the leaf of stage 1, whose IPA it has still to translate, or how it ends (08 R197). -/
inductive WalkResult | stage1 (l : Leaf) | filled (e : TlbEntry) | failed (f : TrFault) | firstTouch (descPa : Nat) (desc : W64)
  deriving DecidableEq, Repr, Inhabited

/-- A walk in progress (08 R196). -/
structure Walk where
  die : Nat := 0
  core : Nat := 0
  by' : WalkFor := .task 0 .ctl
  uid : Nat := 0
  va : Nat := 0
  access : AccKind := .read
  num : Nat := 0
  tries : Nat := 0
  vdk : Nat := 0
  root : Nat := 0
  asid : Nat := 0
  result : Option WalkResult := none
  /-- Discarded four times in a row, and not yet started again (08 R196). -/
  waiting : Bool := false
  /-- A failure that its instruction has still to take. -/
  failed : Bool := false
  deriving DecidableEq, Repr, Inhabited

/-- A logged shoot-down (08 R195, R196). -/
structure Shoot where
  num : Nat := 0
  kind : Nat := 0
  vd : Nat := 0
  asid : Nat := 0
  addr : Nat := 0
  deriving DecidableEq, Repr, Inhabited

/-- A TLBI that waits for older walks (08 R195); `who` is 2 × task, plus 1 in a handler. -/
structure Tlbi where
  who : Nat := 0
  dies : List Nat := []
  walks : List Nat := []
  shoot : Shoot := {}
  deriving DecidableEq, Repr, Inhabited

/-! ### Tasks -/

/-- Task states (12 R253). -/
inductive Place | standby | active | parked | held | retired
  deriving DecidableEq, Repr, Inhabited

/-- What a spill area has no place or no room for (log 11): the side cursors, the side entries of the batch, and the entries of each
latch past its 64 KiB. -/
structure Beyond where
  cursors : List Nat := []
  sides : List Entry := []
  over0 : List Entry := []
  over1 : List Entry := []
  deriving DecidableEq, Repr, Inhabited

/-- The state of the streams held while a handler runs (12 R265), and what a spill took away (12 R269). -/
structure Held where
  ctl : Eng := {}
  lda : Eng := {}
  exe : Eng := {}
  sta : Eng := {}
  /-- After a spill, what the area does not hold (log 11): the queue places not yet filled in order, the accesses that filled the
  others, the order carried by the spilled tokens, and what the planes' section has no room for. -/
  late : NMap (List QSlot) := []
  tags : NMap (List Nat) := []
  tokenOrd : NMap OrdCtx := []
  beyond : Beyond := {}
  deriving DecidableEq, Repr, Inhabited

/-- The member that an MST stores to, whose reply is owed: the split record that awaits it, the member's number, and the access
(13 R288, R290). -/
structure Owed where
  split : Nat := 0
  member : Nat := 0
  acc : Nat := 0
  deriving DecidableEq, Repr, Inhabited

/-- What a landing buffer holds until its task is restored: a reply bound for a queue, or a one-sided write (12 R262, 13 R284). -/
inductive Landing
  | entry (queue tag : Nat) (e : Entry)
  /-- A one-sided write: the IPA of the member's block, the offset in its receive area, whole lines of one packet, the die and number of
  the task that stored them, and the reply that follows when they are performed (09 R220, 13 R290). -/
  | write (block off : Nat) (bytes : List Byte) (author : Nat × Nat) (owed : Owed)
  deriving DecidableEq, Repr, Inhabited

/-- A trap raised outside an instruction, to be taken at the next chance: engine, code, value. -/
structure Raised where
  eng : Engine := .ctl
  code : Nat := 0
  val : W64 := 0#64
  /-- Raised together with a trap that was taken first: it waits for TRET (12 R265). -/
  later : Bool := false
  /-- Of a copy's read: it is taken when the engine next issues (12 R273). -/
  atIssue : Bool := false
  deriving DecidableEq, Repr, Inhabited

/-- A task (06 R125 to R129, 12 R253). -/
structure Task where
  module : Nat := 0
  die : Nat := 0
  vd : Nat := 0
  tid : BitVec 32 := 0#32
  gang : BitVec 16 := 0#16
  prio : BitVec 6 := 0#6
  origin : BitVec 2 := 0#2
  level : Level := .t
  quad : Nat := 0
  stops : W64 := 0#64
  /-- `vm.s1root` and `vm.asid` at the latest stop request, with which its stop table is read (03 R454). -/
  stopSpace : W64 × BitVec 16 := (0#64, 0#16)
  /-- The doublewords of its stop table that the present stop request has read, by VA, and whether a read of it has failed, so
  that the table counts as empty (03 R454). -/
  stopReads : NMap Nat := []
  stopEmpty : Bool := false
  place : Place := .retired
  core : Option Nat := none
  /-- Whether the context lies in a park frame, and the frame's address (12 R253, R264). -/
  inFrame : Bool := false
  frameAt : Nat := 0
  /-- A task in standby that still waits in the active slot, in which it was held, for the copies of its tiles (12 R264). -/
  atActive : Bool := false
  readySince : Nat := 0
  activeSince : Nat := 0
  starving : Bool := false
  yielded : Bool := false
  /-- The core a restore is under way to (12 R260). -/
  dest : Option Nat := none
  /-- To be re-homed once parked (12 R255). -/
  rehome : Bool := false
  /-- Since when it is ready while its quad has no free standby slot (12 R255). -/
  fullSince : Option Nat := none
  polls : Nat := 0
  /-- The tick of the last poll of a stalled WAITV, while the task has stayed active (12 R259). -/
  lastPoll : Option Nat := none
  /-- The translation failure for which the task is held (08 R199). -/
  fault : Option TrFault := none
  /-- The cause of the last record written for the present failure (08 R199), and the engine it named. -/
  faultWritten : Option Nat := none
  faultEng : Nat := 0
  /-- A retry that no route led to what it reads for, and that is made once one does (08 R199, 13 R278). -/
  retryDue : Bool := false
  /-- A stop in progress is for: a switch (false), or a park that follows (true). -/
  parkAfter : Bool := false
  /-- One of its sequencers has stopped under the mask of a stop entry since it was last active: its save is not full (12 R263). -/
  masked : Bool := false
  /-- Retirement by fault in progress (12 R266). -/
  dying : Bool := false
  ctl : Eng := {}
  lda : Eng := {}
  exe : Eng := {}
  sta : Eng := {}
  /-- Tokens of each queue with the order they carry, oldest first (02 R36, 09 R204). -/
  tokens : NMap (List (Nat × OrdCtx)) := []
  queues : NMap (List QSlot) := []
  /-- Row k of Zn at key 128 n + k (02 R38). -/
  frame : NMap Entry := []
  plane0 : Plane := {}
  plane1 : Plane := {}
  activePlane : Bool := false
  side : NMap SideCur := []
  wbuf : NMap Entry := []
  fillCur : Nat := 0
  tiles : NMap Tile := []
  counters : NMap Nat := []
  arFlags : Flags := 0#9
  arEn : Flags := 0#9
  arPend : Bool := false
  arSet : Flags := 0#9
  /-- EXE slots issued since `arPend` was set, and whether EXE has reached a listed stop point since (12 R272). -/
  arSlots : Nat := 0
  arStop : Bool := false
  rngKey : W64 := 0#64
  rngCtr : BitVec 128 := 0#128
  conv0 : W32 := 0#32
  conv1 : W32 := 0#32
  chans : NMap Chan := []
  trBusy : Bool := false
  trCode : BitVec 9 := 0#9
  trEpc : W64 := 0#64
  trVal : W64 := 0#64
  trFrom : W64 := 0#64
  trVec : W64 := 0#64
  trRun : BitVec 4 := 0#4
  trEng : BitVec 2 := 0#2
  exeOwn : Bool := false
  exeSpill : BitVec 40 := 0#40
  held : Option Held := none
  s1root : W64 := 0#64
  asid : BitVec 16 := 0#16
  landing : List Landing := []
  raised : List Raised := []
  /-- Barriers arrived at (06 R143): key, whether a handler arrived, whether the barrier has completed. -/
  bars : List (Nat × Bool × Bool) := []
  deriving DecidableEq, Repr, Inhabited

/-! ### Accesses and copies in flight -/

/-- The progress of one part of an access. -/
inductive PartStat | ready | sent | done
  deriving DecidableEq, Repr, Inhabited

/-- A part of an access: what its home performs at one instant (09 R208, 13 R283). A write carries its bytes; a read
receives them. -/
structure Part where
  pa : Nat := 0
  va : Nat := 0
  len : Nat := 0
  off : Nat := 0
  ord : PageOrd := .rc
  write : Bool := false
  bytes : List Byte := []
  stat : PartStat := .ready
  /-- What an atomic on host memory has read, and the bytes that it has still to write there (16 R350). -/
  old : Option (Nat × List Byte) := none
  /-- The first virtual address of its page (08 R192). -/
  page : Nat := 0
  deriving DecidableEq, Repr, Inhabited

/-- ATOM operations (04 R87). -/
inductive AtomOp | swap | cas | add | and | or | xor | min | max | minn | maxn | fadd
  deriving DecidableEq, Repr, Inhabited

/-- What an access is for. -/
inductive Purpose
  /-- LD: register and width (16 R371). -/
  | load (rd : GReg) (w : Width)
  /-- An entry of a queue, reserved under a tag (16 R373 to R375, 17 R408). -/
  | entry (queue tag : Nat)
  /-- ST, STQ, STR. -/
  | store
  /-- ATOM: operands b and c, width in bytes (16 R349). -/
  | atom (rd : GReg) (op : AtomOp) (n : Nat) (b c : W64)
  /-- A result that lands by itself (06 R145). -/
  | result (rd : GReg) (v : W64)
  /-- A result that a muster root will give (17 R377). -/
  | reply (rd : GReg)
  /-- A BELLSET before its arming point: register, range, descriptor, and the space and vector of its task (07 R158). -/
  | arm (rd : GReg) (base len desc root : W64) (asid : BitVec 16) (trVec : W64)
  /-- PREF and PREF.tree (17 R389). -/
  | pref (tree : Bool)
  /-- A tile access at its bank port (09 R217): handle, row, or the rows left; a read goes to a queue under a tag, and holds its row
  in its part from the port to the queue. -/
  | tileRead (h row queue tag : Nat)
  | tileWrite (h row : Nat) (e : Entry)
  | tileZero (h : Nat) (rows : List Nat)
  /-- MCTB, and MLDR with its reservation (13 R295): group word, member, tag, source type bf16. -/
  | contribute (group member tag : Nat) (bf16 : Bool) (elems : Nat) (mldr : Option (Nat × Nat)) (sent : Bool)
  /-- MST: group word, VA of the ack record, the record once it can be written, and the failure that keeps it from being
  written (13 R291, 17 R384). Its parts are the lines of its members, each with its member as its offset. -/
  | mst (group ackVa : Nat) (record : List Byte) (fault : Option TrFault)
  deriving DecidableEq, Repr, Inhabited

/-- An access of a task that has issued and is not complete (06 R142, 09 R203). -/
structure Access where
  uid : Nat := 0
  eng : Engine := .lda
  cls : Option PathClass := none
  /-- The DRAIN class (06 R141). -/
  drain : Option Nat := none
  purpose : Purpose := .store
  parts : List Part := []
  /-- Accesses that must be performed before any part of this one (09 R214). -/
  deps : List Nat := []
  /-- Accesses that precede it in task order, by sequencer (09 R204). -/
  known : NMap Nat := []
  fenced : NMap Nat := []
  region : Bool := false
  /-- Issued by a handler's stream (12 R265). -/
  handler : Bool := false
  /-- VD key, gang, task number and die of the issuing task, for accesses that outlive it. -/
  vdk : Nat := 0
  gang : Nat := 0
  tid : Nat := 0
  die : Nat := 0
  /-- An MST with lines in a landing buffer: its writer counts them as complete (09 R220). -/
  landed : Bool := false
  /-- An entry in QW that the fill port has still to write (10 R228). -/
  entered : Bool := false
  deriving DecidableEq, Repr, Inhabited

/-- Endpoints of a copy (11 R241). -/
inductive Endpoint | mem (va : Nat) | tile (h row : Nat) | wbuf (entry : Nat)
  deriving DecidableEq, Repr, Inhabited

/-- The members of the copy family (16 R360). -/
inductive CopyKind
  | nest
  | reduce (rop : Rop) (t : Ty)
  /-- COPYW: input width, left pad, dilation, stride, taps (11 R245). -/
  | window (win lpad dil str taps : Nat)
  /-- COPYG and COPYS: bound, index list (11 R246). -/
  | gather (bound list : Nat)
  | scatter (bound list : Nat)
  deriving DecidableEq, Repr, Inhabited

/-- A copy in flight (11 R243): the core, VD, space and level it was issued with, its channel's snapshot, and its progress.
`staged` holds what its units have read and not yet written, `done` lists the units written, `index` the indices read, `faulted` the
failures of its lines (log 23). -/
structure Copy where
  uid : Nat := 0
  core : Nat := 0
  vdk : Nat := 0
  root : Nat := 0
  asid : Nat := 0
  isS : Bool := false
  ch : Nat := 0
  ctr : Nat := 0
  kind : CopyKind := .nest
  src : Endpoint := .mem 0
  dst : Endpoint := .mem 0
  bytes : Nat := 0
  counts : List Nat := []
  sstrides : List W64 := []
  dstrides : List W64 := []
  n : Nat := 0
  event : Nat := 0
  staged : NMap (List Byte) := []
  done : List Nat := []
  index : NMap Nat := []
  faulted : NMap TrFault := []
  /-- Failed lines whose retry waits for a route (11 R249, 13 R278). -/
  retryDue : List Nat := []
  /-- Source lines that have failed verification (11 R248), and the accesses that precede the copy in task order (09 R204). -/
  macs : List Nat := []
  known : NMap Nat := []
  deriving DecidableEq, Repr, Inhabited

/-! ### Cores, dies, bells -/

/-- A context switch a decision has ordered on a core (12 R260): the task to leave the active slot, the task to enter it, and
whether it enters straight from its frame because a held task has the standby slot (12 R264). -/
structure Plan where
  out : Option Nat := none
  inn : Option Nat := none
  direct : Bool := false
  deriving DecidableEq, Repr, Inhabited

/-- A core (02 R49, 12 R273). -/
structure Core where
  freeze : Bool := false
  plan : Option Plan := none
  tlb : List TlbEntry := []
  deriving DecidableEq, Repr, Inhabited

/-- Bell states (07 R155). -/
inductive BellState | free | armed | pending | disarmed
  deriving DecidableEq, Repr, Inhabited

/-- A bell-table entry (07 R155, R157). -/
structure Bell where
  state : BellState := .free
  why : BitVec 2 := 0#2
  vd : Nat := 0
  base : W64 := 0#64
  len : Nat := 0
  pa : Nat := 0
  entry : W64 := 0#64
  stops : W64 := 0#64
  gang : BitVec 16 := 0#16
  prio : BitVec 6 := 0#6
  level : Level := .t
  mbox : Bool := false
  arg : W64 := 0#64
  key : W64 := 0#64
  ctr : BitVec 128 := 0#128
  stride : W64 := 0#64
  s1root : W64 := 0#64
  asid : BitVec 16 := 0#16
  trVec : W64 := 0#64
  count : Nat := 0
  first : W64 := 0#64
  winStart : Nat := 0
  winCount : Nat := 0
  pos : Nat := 0
  deriving DecidableEq, Repr, Inhabited

/-- The dynamic state of a gang on a die (12 R256, R258). -/
structure Gang where
  boost : Nat := 0
  graze : Nat := 0
  grazed : Bool := false
  deriving DecidableEq, Repr, Inhabited

/-- Service states of a die (15 R331). -/
inductive Service | reset | rom | test | early | full | out | fatal
  deriving DecidableEq, Repr, Inhabited

/-- A die (01 R13, 15 R331 to R336). -/
structure Die where
  service : Service := .reset
  clk : W64 := 0#64
  /-- Microsecond steps made, and whether the one of the present tick is due: step 0 is, from the reset itself (12 R258). -/
  usStep : Nat := 0
  usDue : Bool := true
  /-- The step just made ended a window whose end has not been applied (12 R258). -/
  windowDue : Bool := false
  /-- Quads that owe a decision (12 R260). -/
  decide : List Nat := []
  shootNum : Nat := 0
  shootLog : List Shoot := []
  llt : List TlbEntry := []
  /-- Copies of space records (08 R188). -/
  spaces : List SpaceCopy := []
  /-- Zeroed frames the first-touch unit holds, by VD, as IPAs (08 R200). -/
  frames : NMap (List Nat) := []
  gangs : NMap Gang := []
  /-- Addresses of the park frames not in use, by VD (12 R264). -/
  parkFree : NMap (List Nat) := []
  ports : BitVec 6 := 0#6
  frz : W64 := 0#64
  hbmc : W64 := 0#64
  retry : NMap W64 := []
  malf : W64 := 0#64
  dup : W64 := 0#64
  stale : W64 := 0#64
  /-- Stale reports come to the die as root for a generation that no join has begun, by VD × 4096 + group (13 R301). -/
  staleSoon : NMap Nat := []
  /-- Attempts failed in a row, by port (13 R277). -/
  fails : NMap Nat := []
  stamp : W32 := 0#32
  tmax : BitVec 16 := 0#16
  pw : W32 := 0#32
  marg : W32 := 0#32
  hrs : W32 := 0#32
  left : W32 := 0xFFFFFFFF#32
  eol : W32 := 0#32
  lastRecord : Nat := 0
  lastMargin : Nat := 0
  /-- Margins of the present day, and the daily means kept, oldest first (15 R336). -/
  margins : List Nat := []
  means : List Nat := []
  /-- The power the die demands, in watts, and whether idle cycles are inserted for power, and for heat (15 R340). -/
  demand : Nat := 0
  idlePower : Bool := false
  idleHeat : Bool := false
  deriving DecidableEq, Repr, Inhabited

/-! ### Virtual devices and modules -/

/-- VD states (14 R305). -/
inductive VdState | free | configured | running | stopped | exporting | sealed | importing | committing | lost
  deriving DecidableEq, Repr, Inhabited

/-- Migration data of a VD (14 R322 to R325): the nonces, the ephemeral secret, the peer's identity key, the hash of the
manifest, the blob, the tick of die 0 at which the present wait began, messages received and to be sent, the blocks a
destination has stored, the export sequence, blobs discarded, and whether a finished move is still on record. -/
structure Mig where
  nd : BitVec 256 := 0#256
  ns : BitVec 256 := 0#256
  secret : BitVec 256 := 0#256
  peer : BitVec 256 := 0#256
  manifest : Option (BitVec 512) := none
  blob : List Byte := []
  since : Nat := 0
  inbox : List MigMsg := []
  outbox : List MigMsg := []
  blocks : List MigMsg := []
  discarded : Nat := 0
  moved : Bool := false
  deriving DecidableEq, Repr, Inhabited

/-- A virtual device of a module (14 R303 to R306). -/
structure Vd where
  state : VdState := .free
  /-- The configuration block as copied by CONFIGURE (14 R304). -/
  cfg : NMap Byte := []
  s2root : W64 := 0#64
  mig : Bool := false
  /-- Ranges of ended grants, which map firmware's frame of zeros: IPA and length (14 R317). -/
  zeroed : List (Nat × Nat) := []
  /-- The data key and the MAC key of the key table's slot (14 R307). -/
  keys : Option (BitVec 256 × BitVec 256) := none
  image : BitVec 512 := 0#512
  /-- STOP has been ordered; the VD reaches STOPPED when its copies complete. -/
  stopping : Bool := false
  /-- RELEASE follows when the VD can be released (15 R334). -/
  releaseWanted : Bool := false
  abortWanted : Bool := false
  migr : Mig := {}
  /-- The service ring as firmware watches it (14 R315): whether it does, the position of the next record, and the requests sealed
  and not yet answered; and the producer of the reply ring. -/
  svcOn : Bool := false
  svcPos : Nat := 0
  requests : List (List Byte) := []
  replyPos : Nat := 0
  replySeq : Nat := 0
  deriving DecidableEq, Repr, Inhabited

/-- A sharing window (14 R316). -/
structure Window where
  open' : Bool := false
  keys : BitVec 256 × BitVec 256 := (0#256, 0#256)
  owner : Nat := 0
  base : Nat := 0
  len : Nat := 0
  /-- The 64 KiB pages the owner's stage 2 gave when the window was opened, in order: address, size, kind. -/
  pas : List (Nat × Nat × PageOrd) := []
  /-- Grants: VD, IPA, writable. -/
  grants : List (Nat × Nat × Bool) := []
  deriving DecidableEq, Repr, Inhabited

/-- A value that a store has replaced, as a task may still see it: the VD key, die and task number of the writer, whether it is seen
only because the task's LDA spun (18 R438), and whether a WREL of the writer's has released the store to the observer (09 R222). -/
structure OldValue where
  bytes : List Byte := []
  vdk : Nat := 0
  die : Nat := 0
  tid : Nat := 0
  spin : Bool := false
  released : Bool := false
  deriving DecidableEq, Repr, Inhabited

/-- What a task, named by VD key, die and task number, may still see in an aligned doubleword: values older than the one in memory,
oldest first (09 R211, R222; log 65). -/
structure OldView where
  vdk : Nat := 0
  die : Nat := 0
  tid : Nat := 0
  dw : Nat := 0
  olds : List OldValue := []
  deriving DecidableEq, Repr, Inhabited

/-- The host's completions (15 R326): data of a read, Unsupported Request, or the answer of a configuration request. -/
inductive HostAnswer | data (bs : List Byte) | unsupported | config (v : W32)
  deriving DecidableEq, Repr, Inhabited

/-- What every factory record begins with (15 R341): magic, version, stepping, the serial (zero), architecture, ceiling. -/
def factoryFixed : List Byte :=
  leBytes 4 0x43464752 ++ leBytes 2 1 ++ leBytes 2 0x00B0 ++ leBytes 8 0 ++ leBytes 4 1 ++ leBytes 4 4400

/-- Firmware's own fault ring (12 R274): the counts of its control block, its size, and its records by slot. -/
structure FwRing where
  prod : Nat := 0
  cons : Nat := 0
  lost : Nat := 0
  size : Nat := 65536
  records : NMap (List Byte) := []
  deriving DecidableEq, Repr, Inhabited

/-- A module: flash, firmware state and the PF window (14 R307, R316 to R321, 15 R328, R329, R338 to R341). -/
structure Module where
  /-- Flash: factory and placement records, image slots, and the replay-protected record. Of the factory record the manual fixes
  the magic, the versions, the stepping and the ceiling (15 R341); bytes beyond a record's end read 0 (log 63). -/
  factory : List Byte := factoryFixed
  placement : List Byte := []
  imageA : List Byte := []
  imageB : List Byte := []
  activeB : Bool := false
  floor : Nat := 0
  /-- The image that runs: version and hash. -/
  running : Option (Nat × BitVec 512) := none
  /-- An activation between its check and its commit: version, hash and raise-floor bit of the new image (14 R321). -/
  staged : Option (Nat × BitVec 512 × Bool) := none
  limit : Nat := 4400
  /-- Calendar seconds and the tick of die 0 at which they were given (15 R329). -/
  calendar : Option (W64 × Nat) := none
  /-- What the host or firmware has written to the PF BAR0 window (15 R328), offset to byte; unlisted bytes are 0. -/
  window : NMap Byte := []
  /-- Command ring: position of the next record, records sealed and not yet answered, whether a bad seal has ended the
  watch; and the producer of the reply ring. -/
  cmdPos : Nat := 0
  cmds : List (List Byte) := []
  cmdOff : Bool := false
  replyPos : Nat := 0
  replySeq : Nat := 0
  /-- The firmware log, oldest first, and firmware's fault ring. -/
  log : List (List Byte) := []
  fwRing : FwRing := {}
  /-- The held fatal dump, and further fatal errors (15 R338, R339). -/
  dump : Option (List Byte) := none
  dumpMore : Nat := 0
  /-- Firmware's slot of the key table (14 R307). -/
  fwKeys : Option (BitVec 256 × BitVec 256) := none
  answers : List HostAnswer := []
  deriving DecidableEq, Repr, Inhabited

/-! ### The fabric -/

/-- The counts of an ack (13 R291): positive replies, and the negative members with their causes. -/
structure AckSum where
  pos : Nat := 0
  negs : List (Nat × Nat) := []
  deriving DecidableEq, Repr, Inhabited

/-- A packet in flight (13 R279, R280), the die it stands at, and the port it came in on (6: its own endpoint). `str` is the mask or
destination string of flit 1, `sum` what an ack carries, `phase` tells a round's result (0), its notice (1) and a refusal (2) apart, and is
1 for a contribution that the router it stands at has judged. `acc`, `part` and `links` are the model's links back to the access, its part,
and the records or tasks that wait. -/
structure Packet where
  kind : Nat := 0
  vd : Nat := 0
  gang : Nat := 0
  src : Nat := 0
  dst : Nat := 0
  ttl : Nat := 64
  a : W64 := 0#64
  b : W64 := 0#64
  c : W64 := 0#64
  hops : List Byte := []
  str : Nat := 0
  body : List Byte := []
  sum : AckSum := {}
  phase : Nat := 0
  at' : Nat := 0
  port : Nat := 6
  acc : Nat := 0
  part : Nat := 0
  links : List Nat := []
  /-- The doublewords of a read, or lines of a write, that the home has performed (09 R208, 07 R162). -/
  served : List Nat := []
  deriving DecidableEq, Repr, Inhabited

/-- A split record (13 R288): its die, the ports it is owed replies from, what has come back, the record upstream that the
merged ack goes to, and the packet as it came in. -/
structure Split where
  die : Nat := 0
  owed : List Nat := []
  sum : AckSum := {}
  up : Option Nat := none
  pkt : Packet := {}
  deriving DecidableEq, Repr, Inhabited

/-- A combine slot of a router (13 R296). -/
structure Combine where
  die : Nat := 0
  pkt : Packet := {}
  mask : Nat := 0
  opened : Nat := 0
  deriving DecidableEq, Repr, Inhabited

/-- A round slot at a root (13 R297): the state once it has one, the counted mask, the folded count, and whose contributions
of which tags were folded in (member × 65536 + tag). -/
structure RoundSlot where
  pairs : Option (List (W32 × W32)) := none
  counted : Nat := 0
  folded : Nat := 0
  late : List Nat := []
  deriving DecidableEq, Repr, Inhabited

/-- The round state of a group at its root (13 R294, R297): the die, VD, group id and generation, the oldest open tag,
slots by tag, the members seen by tag, the stale reports, and who has contributed to which round by MLDR. -/
structure Round where
  die : Nat := 0
  vd : Nat := 0
  group : Nat := 0
  gen : Nat := 0
  openTag : BitVec 16 := 0#16
  slots : NMap RoundSlot := []
  seen : NMap Nat := []
  stale : Nat := 0
  deriving DecidableEq, Repr, Inhabited

/-- A barrier that is held (06 R143): VD key and gang of the holder, the arrivals as 2 × task, plus 1 for a handler's,
and for a pod barrier the dies that sent them (13 R285). -/
structure Barrier where
  vd : Nat := 0
  gang : Nat := 0
  arrived : List Nat := []
  dies : List Nat := []
  deriving DecidableEq, Repr, Inhabited

/-! ### The slot being issued -/

/-- How the present slot ends: `latching` is WLD's stall, in which the results it waits for go on (10 R229, log 19). -/
inductive Status | start | issued | empty | stalled (sync : Bool) | latching | trapped | gone
  deriving DecidableEq, Repr, Inhabited

/-- Where a transfer goes: line address, word, by delta or by pointer (03 R54, R56). -/
structure Target where
  line : W64 := 0#64
  word : Nat := 1
  kind : EntryKind := .delta
  deriving DecidableEq, Repr, Inhabited

/-- A write made at the issue slot, after the bundle has read its operands (10 R234, R236, 18 R431). -/
inductive IssueWrite
  | vec (f : FVec) (e : Entry)
  | clear (z : BitVec 3)
  | whole (z : BitVec 3) (rows : List Entry)
  | flags (f : Flags)
  deriving DecidableEq, Repr, Inhabited

/-- The instruction being issued (the model's own, log 4). -/
structure Cur where
  uid : Nat := 0
  eng : Engine := .ctl
  slot : Slot := .x
  /-- The line, the index of the instruction's first word, of its bundle's first word, and of the word after the
  instruction or bundle. -/
  line : Line := 0#512
  word : Nat := 1
  first : Nat := 1
  next : Nat := 2
  /-- Checks have passed for the whole bundle: only the effect is wanted. -/
  commit : Bool := false
  status : Status := .start
  target : Option Target := none
  writes : List IssueWrite := []
  err : Option (Nat × Nat) := none
  deriving DecidableEq, Repr, Inhabited

/-! ### The machine -/

/-- The whole pod. -/
structure State where
  lx : Nat := 2
  ly : Nat := 2
  lz : Nat := 2
  modules : NMap Module := []
  dies : NMap Die := []
  /-- Key: die × 144 + core. -/
  cores : NMap Core := []
  /-- Key: module × 256 + number. -/
  vds : NMap Vd := []
  /-- Key: module × 256 + id. -/
  windows : NMap Window := []
  /-- Key: die × 4096 + index. -/
  bells : NMap Bell := []
  tasks : NMap Task := []
  accesses : NMap Access := []
  copies : NMap Copy := []
  walks : NMap Walk := []
  tlbis : NMap Tlbi := []
  barriers : NMap Barrier := []
  packets : NMap Packet := []
  splits : NMap Split := []
  combines : NMap Combine := []
  rounds : NMap Round := []
  /-- Bytes at physical addresses (08 R183), in canonical form; an unlisted byte reads 0 (log 1). There is one array of
  host PAs for all modules of the pod: whether their hosts share memory the manual does not say (01 R17, DESIGN CHOICE, log 56). -/
  mem : List Host.Cell := []
  /-- Lines whose MAC or ECC fails (14 R311), and poisoned subtrees as first line and lines (14 R312). -/
  bad : NMap Nat := []
  poison : List (Nat × Nat) := []
  /-- Live hardware identifiers by die: (VD, ASID) pairs, least recently used first (08 R194). -/
  hwids : NMap (List (Nat × Nat)) := []
  /-- The keys under which a line was last written, by line; none for a line that no owner with keys has written (14 R308). -/
  sealed : NMap (BitVec 256 × BitVec 256) := []
  /-- Records that wait for a route to their ring, with their VDs, oldest first (01 R16, R17, 13 R278). -/
  owed : Notes := []
  /-- What tasks may still see in windows that others have written, and what a task that spins may (09 R211, R222). -/
  views : List OldView := []
  /-- Minor counter by line, major counter by leaf (14 R309). -/
  minors : NMap Nat := []
  /-- Child counters of the counter tree (14 R309), by stack, level and child. -/
  nodes : NMap Nat := []
  majors : NMap W64 := []
  /-- The model's own fields (log 4): the slot being issued, the actions to come, and the counters of what the environment
  chooses, of free values, of tasks and of everything else that is numbered. -/
  cur : Cur := {}
  agenda : List Action := []
  choice : Nat := 0
  fresh : Nat := 0
  nextUid : Nat := 1
  nextId : Nat := 1
  deriving DecidableEq, Repr, Inhabited

/-- The pod right after power is applied (15 R334): no task lives, every VD is FREE, every die is in RESET; the pod is
one module used alone (01 R15, log 2). -/
def State.reset : State := {}

end Sys2Proof.Machine
end

