-- ==== Sys2Proof/Machine/Store.lean ====
section
/-!
DEFINITION. Reading and writing the parts of the state: bytes of memory in canonical form, tasks, sequencers,
registers, frame vectors, queues, dies, cores and virtual devices, each through one pair of operations.
-/

namespace Sys2Proof.Machine

/-! ### Bytes of memory -/

/-- What a byte that nothing has written reads as (log 1). -/
def emptyByte : Byte := 0#8

/-- The byte at an address. -/
def Memory.find : List Host.Cell → Nat → Byte
  | [], _ => emptyByte
  | (a, b) :: m, k => if a = k then b else if k < a then emptyByte else Memory.find m k

/-- The cells with the byte at an address replaced: a byte equal to what an unlisted one reads as is not listed. -/
def Memory.put : List Host.Cell → Nat → Byte → List Host.Cell
  | [], k, v => if v = emptyByte then [] else [(k, v)]
  | (a, b) :: m, k, v =>
    if k < a then (if v = emptyByte then (a, b) :: m else (k, v) :: (a, b) :: m)
    else if a = k then (if v = emptyByte then m else (k, v) :: m)
    else (a, b) :: Memory.put m k v

/-- Canonical form from a lower bound: addresses rise strictly and no byte is the empty one. -/
def Memory.wfFrom : Nat → List Host.Cell → Bool
  | _, [] => true
  | lo, (a, b) :: m => lo ≤ a && b != emptyByte && Memory.wfFrom (a + 1) m

/-- The canonical form of memory. -/
def Memory.wf (m : List Host.Cell) : Bool := Memory.wfFrom 0 m

/-- The cells with bytes written from an address upward. -/
def Memory.putAll (m : List Host.Cell) : Nat → List Byte → List Host.Cell
  | _, [] => m
  | k, b :: bs => Memory.putAll (Memory.put m k b) (k + 1) bs

/-- One byte of memory. -/
def State.byte (s : State) (pa : Nat) : Byte := Memory.find s.mem pa

/-- n bytes of memory from an address upward; host PAs name one host memory for all modules (log 56). -/
def State.bytes (s : State) (pa n : Nat) : List Byte := (List.range n).map fun i => s.byte (pa + i)

/-- The state with bytes of memory replaced. -/
def State.poke (s : State) (pa : Nat) (bs : List Byte) : State := { s with mem := Memory.putAll s.mem pa bs }

/-- Doubleword i of a byte list. -/
def dword (bs : List Byte) (i : Nat) : Nat := leNat ((bs.drop (8 * i)).take 8)

/-- A byte list with bytes replaced from an offset upward. -/
def patch (bs : List Byte) (off : Nat) (new : List Byte) : List Byte :=
  bs.take off ++ new ++ bs.drop (off + new.length)

/-! ### Identifiers -/

/-- A fresh identifier of an access, copy, walk, packet or record, and the state that has used it. -/
def State.newId (s : State) : Nat × State := (s.nextId, { s with nextId := s.nextId + 1 })

/-- The next draw of a free value, and the state that has used it. -/
def State.draw (s : State) : Nat × State := (s.fresh, { s with fresh := s.fresh + 1 })

/-! ### Tasks and sequencers -/

/-- The task of a number; a retired one if there is none. -/
def State.task (s : State) (uid : Nat) : Task := s.tasks.getD uid {}

def State.setTask (s : State) (uid : Nat) (t : Task) : State := { s with tasks := s.tasks.set uid t }

def State.modTask (s : State) (uid : Nat) (f : Task → Task) : State := s.setTask uid (f (s.task uid))

/-- A sequencer of a task. -/
def Task.eng (t : Task) : Engine → Eng
  | .ctl => t.ctl | .lda => t.lda | .exe => t.exe | .sta => t.sta

def Task.setEng (t : Task) (e : Engine) (x : Eng) : Task :=
  match e with
  | .ctl => { t with ctl := x } | .lda => { t with lda := x } | .exe => { t with exe := x } | .sta => { t with sta := x }

def Task.modEng (t : Task) (e : Engine) (f : Eng → Eng) : Task := t.setEng e (f (t.eng e))

/-- The four sequencers in the order of their codes. -/
def engines : List Engine := [.ctl, .lda, .exe, .sta]

/-- f applied to all four sequencers. -/
def Task.mapEngs (t : Task) (f : Eng → Eng) : Task :=
  { t with ctl := f t.ctl, lda := f t.lda, exe := f t.exe, sta := f t.sta }

/-- A register: g0 reads as zero (02 R28). -/
def Eng.get (x : Eng) (r : GReg) : W64 := if r = 0#5 then 0#64 else x.regs.getD r.toNat 0#64

/-- A register written: a write to g0 is discarded (02 R28). -/
def Eng.put (x : Eng) (r : GReg) (v : W64) : Eng :=
  if r = 0#5 then x else { x with regs := x.regs.set r.toNat v }

/-! ### The task and the sequencer that issue -/

/-- The issuing task. -/
def State.me (s : State) : Task := s.task s.cur.uid

def State.modMe (s : State) (f : Task → Task) : State := s.modTask s.cur.uid f

/-- The issuing sequencer. -/
def State.eng (s : State) : Eng := s.me.eng s.cur.eng

def State.modEng (s : State) (f : Eng → Eng) : State := s.modMe fun t => t.modEng s.cur.eng f

/-- A register of the issuing sequencer, read at its issue slot (00 R5). -/
def State.reg (s : State) (r : GReg) : W64 := s.eng.get r

/-- A scalar broadcast register, g0 to g15 of EXE (04 R75). -/
def State.breg (s : State) (g : BitVec 4) : W64 := s.reg (g.setWidth 5)

/-- The task's level of privilege now: S while a handler runs (12 R265). -/
def Task.priv (t : Task) : Level := if t.trBusy then .s else t.level

/-- Whether a level is at least S (00 R10). -/
def Level.isS : Level → Bool
  | .t => false | _ => true

def Level.isF : Level → Bool
  | .f => true | _ => false

/-! ### The frame (02 R38 to R40) -/

/-- Row k of a frame register. -/
def Task.row (t : Task) (z : BitVec 3) (k : Nat) : Entry := t.frame.getD (z.toNat * 128 + k) 0#4096

def Task.setRow (t : Task) (z : BitVec 3) (k : Nat) (e : Entry) : Task :=
  { t with frame := t.frame.set (z.toNat * 128 + k) e }

/-- The element of lane i of a frame vector: row and column (02 R38). -/
def vecElem (f : FVec) (i : Nat) : Nat × Nat :=
  match f.dir with
  | .h => (f.idx.toNat, i)
  | .v => (i, f.idx.toNat)
  | .d => (i, (i + f.idx.toNat) % 128)

/-- A frame vector as an entry. -/
def Task.vec (t : Task) (f : FVec) : Entry :=
  match f.dir with
  | .h => t.row f.reg f.idx.toNat
  | _ => ofLanes fun i => lane (t.row f.reg i) (vecElem f i).2

/-- A frame vector written: exactly its 128 elements change (02 R38). -/
def Task.setVec (t : Task) (f : FVec) (e : Entry) : Task :=
  match f.dir with
  | .h => t.setRow f.reg f.idx.toNat e
  | _ => (List.range 128).foldl (fun u i => u.setRow f.reg i (setLane (u.row f.reg i) (vecElem f i).2 (lane e i))) t

/-! ### Queues (02 R33, R34) -/

/-- The places of a queue, oldest first. -/
def Task.queue (t : Task) (q : Queue) : List QSlot := t.queues.getD q.code []

def Task.setQueue (t : Task) (q : Queue) (l : List QSlot) : Task := { t with queues := t.queues.set q.code l }

/-- The oldest entry of a queue, if it has arrived. -/
def Task.front (t : Task) (q : Queue) : Option Entry :=
  match t.queue q with
  | ⟨_, some e⟩ :: _ => some e
  | _ => none

/-- How many entries from the oldest one have arrived without a gap. -/
def arrived : List QSlot → Nat
  | ⟨_, some _⟩ :: l => arrived l + 1
  | _ => 0

/-- A queue holds 16 entries (02 R33). -/
def queueSize : Nat := 16

def Task.pop (t : Task) (q : Queue) : Task := t.setQueue q (t.queue q).tail

def Task.push (t : Task) (q : Queue) (e : Entry) : Task := t.setQueue q (t.queue q ++ [⟨0, some e⟩])

/-- Reserve a place under a tag (16 R374). -/
def Task.reserve (t : Task) (q : Queue) (tag : Nat) : Task := t.setQueue q (t.queue q ++ [⟨tag, none⟩])

/-- The entry of a reservation arrives. -/
def fillList (l : List QSlot) (tag : Nat) (e : Entry) : List QSlot :=
  l.map fun x => if x.tag = tag ∧ x.val = none then ⟨tag, some e⟩ else x

/-- The entry of a reservation arrives in its queue, or in the places a spill has set aside (12 R269, log 11). -/
def Task.fill (t : Task) (code tag : Nat) (e : Entry) : Task :=
  { t with queues := t.queues.set code (fillList (t.queues.getD code []) tag e)
           held := t.held.map fun h => { h with late := h.late.set code (fillList (h.late.getD code []) tag e) } }

/-! ### Tokens (02 R36) -/

def tokenSum (l : List (Nat × OrdCtx)) : Nat := l.foldl (fun acc x => acc + x.1) 0

/-- The count of a token queue. -/
def Task.tokenCount (t : Task) (k : BitVec 3) : Nat := tokenSum (t.tokens.getD k.toNat [])

/-! ### Dies, cores, modules, virtual devices -/

def State.die (s : State) (d : Nat) : Die := s.dies.getD d {}

def State.setDie (s : State) (d : Nat) (x : Die) : State := { s with dies := s.dies.set d x }

def State.modDie (s : State) (d : Nat) (f : Die → Die) : State := s.setDie d (f (s.die d))

/-- Cores of a die (01 R13). -/
def coresPerDie : Nat := 144

/-- Quads of a die (01 R13). -/
def quadsPerDie : Nat := 36

def State.core (s : State) (k : Nat) : Core := s.cores.getD k {}

def State.modCore (s : State) (k : Nat) (f : Core → Core) : State := { s with cores := s.cores.set k (f (s.core k)) }

def State.module (s : State) (m : Nat) : Module := s.modules.getD m {}

def State.modModule (s : State) (m : Nat) (f : Module → Module) : State :=
  { s with modules := s.modules.set m (f (s.module m)) }

/-- The key of VD n of a module. -/
def vdKey (m n : Nat) : Nat := m * 256 + n % 256

def State.vd (s : State) (k : Nat) : Vd := s.vds.getD k {}

def State.modVd (s : State) (k : Nat) (f : Vd → Vd) : State := { s with vds := s.vds.set k (f (s.vd k)) }

def State.bell (s : State) (k : Nat) : Bell := s.bells.getD k {}

def State.modBell (s : State) (k : Nat) (f : Bell → Bell) : State := { s with bells := s.bells.set k (f (s.bell k)) }

/-- The VD key of a task. -/
def Task.vdKey (t : Task) : Nat := Sys2Proof.Machine.vdKey t.module t.vd

/-- A field of a VD's configuration block (14 R304): n bytes at an offset. -/
def Vd.field (v : Vd) (off n : Nat) : Nat := leNat ((List.range n).map fun i => v.cfg.getD (off + i) 0#8)

/-! ### Places in the pod (01 R15, 13 R274) -/

/-- The pod coordinates of a die index by the wiring, which modules with valid records share (log 2). -/
def State.coords (s : State) (d : Nat) : Nat × Nat × Nat := (d % s.lx, d / s.lx % s.ly, d / (s.lx * s.ly))

/-- The index of a die at pod coordinates. -/
def State.dieAt (s : State) (x y z : Nat) : Nat := (z * s.ly + y) * s.lx + x

/-- The number of dies of the pod. -/
def State.dieCount (s : State) : Nat := s.lx * s.ly * s.lz

/-- The module of a die, as an index of module coordinates (01 R15). -/
def State.moduleOf (s : State) (d : Nat) : Nat :=
  let (x, y, z) := s.coords d
  (z / 2 * (s.ly / 2) + y / 2) * (s.lx / 2) + x / 2

/-- The number of a die in its module (01 R14). -/
def State.dieInModule (s : State) (d : Nat) : Nat :=
  let (x, y, z) := s.coords d
  x % 2 + 2 * (y % 2) + 4 * (z % 2)

/-- Die n of a module (01 R15). -/
def State.dieOf (s : State) (m n : Nat) : Nat :=
  let mx := m % (s.lx / 2)
  let my := m / (s.lx / 2) % (s.ly / 2)
  let mz := m / (s.lx / 2 * (s.ly / 2))
  s.dieAt (2 * mx + n % 2) (2 * my + n / 2 % 2) (2 * mz + n / 4 % 2)

/-- The number of modules. -/
def State.moduleCount (s : State) : Nat := s.dieCount / 8

/-! ### Physical addresses (08 R183) -/

/-- Whether a physical address names host memory. -/
def isHostPa (pa : Nat) : Bool := pa / 2 ^ 50 % 4 == 1

/-- The die whose HBM holds a physical address of the wiring; for host memory, die 0 of the module (09 R205). -/
def State.home (s : State) (m pa : Nat) : Nat :=
  if isHostPa pa then s.dieOf m 0 else s.dieAt (pa / 2 ^ 38 % 16) (pa / 2 ^ 42 % 16) (pa / 2 ^ 46 % 16)

/-- The first physical address of a die's HBM, by the wiring. -/
def State.hbm (s : State) (d : Nat) : Nat :=
  let (x, y, z) := s.coords d
  z * 2 ^ 46 + y * 2 ^ 42 + x * 2 ^ 38

/-- The line of an address. -/
def lineOf (pa : Nat) : Nat := pa / 64 * 64

end Sys2Proof.Machine
end

