-- ==== Sys2Proof/Machine/Array.lean ====
section
/-!
DEFINITION. The array: latches of the weight buffer, activation rows with their side data, and the column sums
(10 R227 to R233, 05 R122).
-/

namespace Sys2Proof.Machine

/-- Weights per latch and column, K (02 R41, 10 R227). -/
def depth : Ty → Nat
  | .bf16 | .f16 => 128
  | .mx4 | .q4o => 1024
  | _ => 256

/-- Multiply-accumulates per cell and cycle, G (02 R41, 05 R122). -/
def groupSize : Ty → Nat
  | .bf16 | .f16 => 1
  | .mx4 | .q4o => 8
  | _ => 2

/-- Bytes of a column of a latch, B (10 R227). -/
def columnBytes (t : Ty) : Nat := if tyIsBlock t then depth t / 32 * blockBits t / 8 else depth t * tyWidth t / 8

/-- Entries of a latch (10 R227). -/
def latchEntries (t : Ty) : Nat := 128 * columnBytes t / 512

/-- The packed values of a scalar type in a bit string. -/
def scalarRow (t : Ty) (n b : Nat) : List Num :=
  (List.range n).map fun k => tyVal t (b / 2 ^ (tyWidth t * k) % 2 ^ tyWidth t)

/-- Blocks decoded one after another, with BLK if one of them sets it (05 R108, R109). -/
def blockRow (t : Ty) (blocks : List Nat) : List Num × Bool :=
  blocks.foldr (fun b acc => let (v, m) := blockDecode t b; (v ++ acc.1, m || acc.2)) ([], false)

/-- Column c of a latch, and whether it sets BLK (10 R227, R229). -/
def latchColumn (t : Ty) (latch : List Entry) (c : Nat) : List Num × Bool :=
  let all := latch.foldr (fun e acc => e.toNat + acc * 2 ^ 4096) 0
  let col := all / 2 ^ (8 * columnBytes t * c) % 2 ^ (8 * columnBytes t)
  if tyIsBlock t then
    blockRow t ((List.range (depth t / 32)).map fun b => col / 2 ^ (blockBits t * b) % 2 ^ blockBits t)
  else (scalarRow t (depth t) col, false)

/-- Whether a WLD is in flight (10 R229): its switch is pending in EXE's delay line, which a handler's EXE may stand before. -/
def Task.latching (t : Task) : Bool :=
  let wld (e : Eng) : Bool := e.pend.any fun p => p.dest == .plane
  wld t.exe || t.held.any fun h => wld h.exe

/-- Whether an entry of the weight buffer is one of those that a WLD in flight has taken, which nothing may write until its switch
lands (02 R44, 10 R229). -/
def Task.latches (t : Task) (i : Nat) : Bool :=
  let p := if t.activePlane then t.plane0 else t.plane1
  t.latching && (i + 512 - p.entry) % 512 < p.latch.length

/-- Whether decoding a latch sets BLK (05 R113). -/
def latchBlk (t : Ty) (latch : List Entry) : Bool :=
  t == .q4o && (List.range 128).any fun c => (latchColumn t latch c).2

/-- The side data of block b of an activation row (10 R230, R231). -/
def MatOp.sideOf (m : MatOp) (b : Nat) : Nat :=
  match m.aty with
  | .mx8 => m.elems.toNat / 2 ^ (8 * (256 + b)) % 2 ^ 8
  | .sf8 => m.elems.toNat / 2 ^ (8 * (256 + 2 * b)) % 2 ^ 16
  | .mx4 => m.side.toNat / 2 ^ (8 * (32 * m.sideRow + b)) % 2 ^ 8
  | _ => (lane m.side ((32 * m.sideRow + b) % 128)).toNat

/-- The decoded activation row, and whether it sets BLK (10 R230 to R232). -/
def MatOp.row (m : MatOp) : List Num × Bool :=
  let t := m.aty
  if tyIsBlock t then
    blockRow t ((List.range (depth t / 32)).map fun b =>
      blockJoin t (m.elems.toNat / 2 ^ (blockElemBits t * b)) (m.sideOf b))
  else (scalarRow t (depth t) m.elems.toNat, false)

/-- The exact sum of one group, with NV for 0 times an infinity or infinities of opposite sign (05 R122). -/
def groupSum (ps : List (Num × Flags)) : Num × Flags :=
  let vs := ps.map (·.1)
  let clash := vs.contains (.inf false) && vs.contains (.inf true)
  let s := match vs with
    | [] => .fin false 0 1
    | v :: rest => rest.foldl (fun a x => (Num.add false a x).1) v
  (if clash then .nan else s, ps.foldl (fun f p => f ||| p.2) (flagIf clash flNV))

/-- The groups of a column, each rounded once (05 R122). -/
def columnSum (g : Nat) : Nat → W32 → List Num → List Num → Flags → W32 × Flags
  | 0, r, _, _, f => (r, f)
  | n + 1, r, a, w, f =>
    let (p, fp) := groupSum (((a.take g).zip (w.take g)).map fun x => Num.mul x.1 x.2)
    let (x, fx) := Num.add false (f32val r) p
    let (r', fr) := fl32 x
    columnSum g n r' (a.drop g) (w.drop g) (f ||| ((fp ||| fx ||| fr) &&& (flNV ||| flOF)))

/-- The row an MMA or MMAT gives from the accumulator row it reads, with its flags (10 R232, R233). -/
def MatOp.result (m : MatOp) (p : Plane) (k : Nat) (acc : Entry) : Entry × Flags :=
  let wt := p.fmt.getD .bf16
  let (a, blk) := m.row
  let masked (c : Nat) : Bool :=
    match m.mask with
    | some (off, _) => (k : Int) + off.toInt < c
    | none => false
  let cols := (List.range 128).map fun c =>
    if masked c then ((match m.mask with | some (_, v) => v | none => 0#32), 0#9)
    else columnSum (groupSize wt) (depth wt / groupSize wt) (if m.ov then 0#32 else lane acc c) a (latchColumn wt p.latch c).1 0#9
  (ofLanes fun c => (cols.getD c (0#32, 0#9)).1, cols.foldl (fun f x => f ||| x.2) (flagIf blk flBLK))

/-- Whether an activation format pairs with the format of the active plane (10 R230). -/
def pairs (aty w : Ty) : Bool :=
  match aty with
  | .bf16 | .f16 => w == .bf16 || w == .f16
  | .e4m3 | .e5m2 | .mx8 | .sf8 => w == .e4m3 || w == .e5m2 || w == .mx8 || w == .sf8
  | .i8 => w == .i8
  | .mx4 | .q4o => w == .mx4 || w == .q4o
  | _ => false

/-- Rows of a side entry; 0 for formats without one (10 R231). -/
def sideRows : Ty → Nat
  | .mx4 => 16 | .q4o => 4 | _ => 0

end Sys2Proof.Machine
end

