-- ==== Sys2Proof/Machine/Hazards.lean ====
section
/-!
DEFINITION. What an instruction names: general registers, frame storage, queues. The interlock of 03 R60 and the waits of
06 R145 go by these.
-/

namespace Sys2Proof.Machine

/-- A frame vector, or a whole frame register. -/
abbrev FrameUse := BitVec 3 × Option FVec

def srcRegs : VSrc → List GReg
  | .bcast g => [g.setWidth 5] | _ => []

def srcFrames : VSrc → List FrameUse
  | .vec f => [(f.reg, some f)] | _ => []

def srcPops : VSrc → List (BitVec 2)
  | .qv i => [i] | _ => []

def dstFrames : VDst → List FrameUse
  | .vec f => [(f.reg, some f)] | _ => []

def dstPushes : VDst → List (BitVec 2)
  | .qs i => [i] | _ => []

/-- The sources of a vector instruction in the order fa, fb, fc. -/
def vsrcs : Instr → List VSrc
  | .vadd _ a b _ _ | .vsub _ a b _ _ | .vmul _ a b _ _ | .vmin _ a b _ | .vmax _ a b _ | .vand _ a b _ | .vor _ a b _
  | .vxor _ a b _ | .vshl _ a b _ | .vshr _ a b _ | .vcmp _ _ a b _ | .vdq _ a b _ _ | .vperm _ a b
  | .vlut _ a b _ _ => [a, b]
  | .vabs _ a _ | .vneg _ a _ | .vnot _ a _ | .vmov _ a _ | .vexp _ a _ _ | .vlog _ a _ _ | .vrcp _ a _ _
  | .vrsq _ a _ _ | .vsqrt _ a _ _ | .vtanh _ a _ _ | .vcvt _ a _ _ _ | .vred _ _ a _ _ | .vscan _ _ a _ _
  | .vmaxi _ a _ | .vbcst _ a _ | .smpl _ a _ => [a]
  | .vfma _ a b c _ _ | .vfms _ a b c _ _ | .vfnma _ a b c _ _ | .vsel _ a b c _ => [a, b, c]
  | _ => []

/-- The destination of a vector instruction. -/
def vdst : Instr → Option VDst
  | .vadd d _ _ _ _ | .vsub d _ _ _ _ | .vmul d _ _ _ _ | .vmin d _ _ _ | .vmax d _ _ _ | .vand d _ _ _ | .vor d _ _ _
  | .vxor d _ _ _ | .vshl d _ _ _ | .vshr d _ _ _ | .vcmp _ d _ _ _ | .vdq d _ _ _ _ | .vperm d _ _ | .vlut d _ _ _ _
  | .vabs d _ _ | .vneg d _ _ | .vnot d _ _ | .vmov d _ _ | .vexp d _ _ _ | .vlog d _ _ _ | .vrcp d _ _ _
  | .vrsq d _ _ _ | .vsqrt d _ _ _ | .vtanh d _ _ _ | .vcvt d _ _ _ _ | .vred _ d _ _ _ | .vscan _ d _ _ _
  | .vmaxi d _ _ | .vbcst d _ _ | .smpl d _ _ | .vfma d _ _ _ _ _ | .vfms d _ _ _ _ _ | .vfnma d _ _ _ _ _
  | .vsel d _ _ _ _ | .rngv d _ => some d
  | _ => none

/-- The general registers an instruction reads or writes, g0 among them. -/
def instrRegs (i : Instr) : List GReg :=
  match i with
  | .grd r _ _ _ => [r]
  | .call _ _ | .ret => [31#5]
  | .jr a => [a]
  | .loop a _ _ => [a]
  | .add d a b | .sub d a b | .mul d a b | .mulh d a b | .mulhn d a b | .div d a b | .divn d a b | .rem d a b
  | .remn d a b | .and d a b | .or d a b | .xor d a b | .andn d a b | .shl d a b | .shr d a b | .sar d a b
  | .rotr d a b | .min d a b | .max d a b | .minn d a b | .maxn d a b | .cmp d a b _ => [d, a, b]
  | .clz d a | .ctz d a | .popc d a | .mov d a => [d, a]
  | .addi d a _ | .andi d a _ | .ori d a _ | .xori d a _ | .shli d a _ | .shri d a _ | .sari d a _ => [d, a]
  | .movi d _ | .movhi d _ _ => [d]
  | .bfx d a _ _ | .bfi d a _ _ => [d, a]
  | .fork _ a b c => [a, b, c]
  | .sigtReg _ a | .waittReg _ a => [a]
  | .waitv d a b _ _ => [d, a, b]
  | .spawn d a b => [d, a, b]
  | .csrr d _ => [d]
  | .csrw d a _ | .csrs d a _ | .csrc d a _ => [d, a]
  | .tlbiVa _ a b | .tlbiIpa _ a b => [a, b]
  | .tlbiAsid _ b | .tlbiS2Vd _ b => [b]
  | .ld t a _ _ | .ldLong t a _ _ _ | .st t a _ _ | .stLong t a _ _ _ => [t, a]
  | .ldq _ a _ | .stq _ a _ | .ldr _ a _ | .str _ a _ | .pref a _ | .prefTree a _ => [a]
  | .atomSwap d a b _ _ _ | .atomAdd d a b _ _ _ | .atomAnd d a b _ _ _ | .atomOr d a b _ _ _ | .atomXor d a b _ _ _
  | .atomMin d a b _ _ _ | .atomMax d a b _ _ _ | .atomMinn d a b _ _ _ | .atomMaxn d a b _ _ _ => [d, a, b]
  | .atomCas d a b c _ _ _ => [d, a, b, c]
  | .atomFadd d a b _ _ => [d, a, b]
  | .mst _ a b _ c => [a, b, c]
  | .mldr _ a b c _ => [a, b, c]
  | .bellset d a b c => [d, a, b, c]
  | .bellclr a => [a]
  | .bellqry d a => [d, a]
  | .talloc _ d a _ _ | .tdraft _ d a | .tcommit _ d a => [d, a]
  | .trd _ a _ _ | .twr _ a _ _ | .tzero _ a _ _ => [a]
  | .nest _ _ a b c => [a, b, c]
  | .nestEvent _ a b => [a, b]
  | .copy _ d a b _ _ _ => [d, a, b]
  | .copyw _ d a b c _ _ _ | .copyg _ d a b c _ _ _ | .copys _ d a b c _ _ _ => [d, a, b, c]
  | .copyr _ d a b _ _ _ _ _ => [d, a, b]
  | .wbf _ d a b _ _ => [d, a, b]
  | .mjoin d a b | .mclose d a b => [d, a, b]
  | .mctb a b c => [a, b, c]
  | .wacq a _ | .wrel a _ => [a]
  | .rngadv a b => [a, b]
  | .mmat _ _ _ _ _ g _ => [g.setWidth 5]
  | .vqnt _ _ _ g _ _ => [g.setWidth 5]
  | .selk _ _ _ g _ => [g.setWidth 5]
  | .smpl _ a g => g.setWidth 5 :: srcRegs a
  | .vpush _ (.bcast g) => [g.setWidth 5]
  | i => (vsrcs i).flatMap srcRegs

/-- The frame storage an instruction reads or writes. -/
def instrFrames (i : Instr) : List FrameUse :=
  match i with
  | .mma z k _ _ _ | .mmat z k _ _ _ _ _ => [(z, some ⟨z, .h, k⟩)]
  | .mzero (.vec f) => [(f.reg, some f)]
  | .mzero (.whole z) => [(z, none)]
  | .vqnt d a b _ _ _ => [(d.reg, some d), (a.reg, some a), (b.reg, some b)]
  | .selk zi zv zs _ _ => [(zi, none), (zv, none), (zs, none)]
  | .vpop d _ => [(d.reg, some d)]
  | .vpush _ (.vec f) => [(f.reg, some f)]
  | i => (vsrcs i).flatMap srcFrames ++ (match vdst i with | some d => dstFrames d | none => [])

/-- The QS queues an instruction pushes through the delay line. -/
def instrPushes (i : Instr) : List (BitVec 2) :=
  match i with
  | .vpush q _ => [q]
  | i => match vdst i with | some d => dstPushes d | none => []

/-- The QV queues an EXE instruction pops, one for each naming, in operand order (02 R34). -/
def instrPops (i : Instr) : List (BitVec 2) :=
  match i with
  | .vpop _ q => [q]
  | i => (vsrcs i).flatMap srcPops

/-- Whether two frame vectors share an element (02 R38): any two directions of one register cross. -/
def vecsMeet (f g : FVec) : Bool := f.reg == g.reg && (f.dir != g.dir || f.idx == g.idx)

/-- Whether a vector meets a use of the frame. -/
def useMeets (f : FVec) : FrameUse → Bool
  | (z, none) => z == f.reg
  | (_, some g) => vecsMeet f g

/-- Whether an instruction names a destination with a pending result: a register, frame elements, or a QS queue
(03 R60; the queue is DEDUCED, log 18). -/
def clashes (x : Eng) (i : Instr) : Bool :=
  x.pend.any fun p =>
    match p.dest with
    | .reg r => (instrRegs i).contains r
    | .vec f => (instrFrames i).any (useMeets f)
    | .qs q => (instrPushes i).contains q
    | .plane => false

/-- Whether an instruction names a register whose asynchronous result has not landed (06 R145). -/
def awaits (x : Eng) (i : Instr) : Bool := (instrRegs i).any fun r => x.async.contains r

end Sys2Proof.Machine
end

