-- ==== Sys2Proof/Machine/Links.lean ====
section
/-!
DEFINITION. Links and routes between dies, and the placement record that says where a module stands (01 R14 to R16, 13 R276 to
R278, 15 R341, R342).
-/

namespace Sys2Proof.Machine

/-! ### Links (13 R276 to R278) -/

/-- The port at the other end of a link. -/
def opposite (p : Nat) : Nat := if p % 2 = 0 then p + 1 else p - 1

/-- The die that a port leads to. -/
def State.neighbour (s : State) (d p : Nat) : Nat :=
  let (x, y, z) := s.coords d
  let go (v n : Nat) : Nat := if p % 2 = 1 then (v + 1) % n else (v + n - 1) % n
  match p / 2 with
  | 0 => s.dieAt (go x s.lx) y z
  | 1 => s.dieAt x (go y s.ly) z
  | _ => s.dieAt x y (go z s.lz)

/-- Bytes of a record of module flash, zero beyond its end (15 R341). -/
def flashBytes (l : List Byte) (off n : Nat) : List Byte := (List.range n).map fun i => l.getD (off + i) 0#8

/-- Whether a module's placement record is valid: its signature under the placement key, its serial, its axis lengths (01 R15)
and its coordinates (15 R341, R342). -/
def Module.placementOk (x : Module) : Bool :=
  let p := x.placement
  let at' (i : Nat) : Nat := (p.getD i 0#8).toNat
  flashBytes p 0 8 == flashBytes x.factory 8 8 &&
    ([8, 9, 10].all fun i => at' i % 2 == 0 && 2 ≤ at' i && at' i ≤ 16 && at' (i + 3) < at' i / 2) &&
    edVerify (BitVec.ofNat 256 (leNat (flashBytes x.factory 288 32))) (flashBytes p 0 64)
      (BitVec.ofNat 512 (leNat (flashBytes p 64 64)))

/-- The axis lengths and the coordinates of a module, from its placement record; with an invalid record they are 2, 2, 2 and 0, 0, 0
(01 R15, 15 R342). -/
def Module.placed (x : Module) : (Nat × Nat × Nat) × (Nat × Nat × Nat) :=
  let at' (i : Nat) : Nat := (x.placement.getD i 0#8).toNat
  if x.placementOk then ((at' 8, at' 9, at' 10), (at' 11, at' 12, at' 13)) else ((2, 2, 2), (0, 0, 0))

/-- The axis lengths that a module goes by (01 R15). -/
def State.lengths (s : State) (m : Nat) : Nat × Nat × Nat := (s.module m).placed.1

/-- The pod coordinates that a module's record gives a die of it (01 R15). -/
def State.stands (s : State) (d : Nat) : Nat × Nat × Nat :=
  let (x, y, z) := s.coords d
  let (mx, my, mz) := (s.module (s.moduleOf d)).placed.2
  (2 * mx + x % 2, 2 * my + y % 2, 2 * mz + z % 2)

/-- The die that pod coordinates name for a module: as many steps along the wiring from its own place as they lie from the place that
its record gives it (log 2). -/
def State.dieNamed (s : State) (m x y z : Nat) : Nat :=
  let (bx, by', bz) := s.coords (s.dieOf m 0)
  let (mx, my, mz) := (s.module m).placed.2
  let go (b v c n : Nat) : Nat := (b + v + 2 * n * 16 - 2 * c) % n
  s.dieAt (go bx x mx s.lx) (go by' y my s.ly) (go bz z mz s.lz)

/-- The number of a die of the pod, by the record of its module (12 R274, 13 R285). -/
def State.dieName (s : State) (d : Nat) : Nat :=
  let (x, y, z) := s.stands d
  let (lx, ly, _) := s.lengths (s.moduleOf d)
  (z * ly + y) * lx + x

/-- The die that a number names for a module. -/
def State.dieByName (s : State) (m n : Nat) : Nat :=
  let (lx, ly, _) := s.lengths m
  s.dieNamed m (n % lx) (n / lx % ly) (n / (lx * ly))

/-- The dies of the pod by a module's record (01 R15). -/
def State.podOf (s : State) (m : Nat) : List Nat :=
  let (lx, ly, lz) := s.lengths m
  (List.range (lx * ly * lz)).map (s.dieByName m)

/-- Whether a physical address names memory that exists, by the axis lengths of a module (08 R183). -/
def State.paOk (s : State) (m pa : Nat) : Bool :=
  let (lx, ly, lz) := s.lengths m
  pa < 2 ^ 52 &&
  (isHostPa pa ||
    (pa / 2 ^ 50 == 0 && pa / 2 ^ 37 % 2 == 0 && pa / 2 ^ 46 % 16 < lz && pa / 2 ^ 42 % 16 < ly && pa / 2 ^ 38 % 16 < lx))

/-- The place in the wiring of what a physical address names for a module: every address that the model keeps is of this form, and is
the address itself where the records of the pod's modules agree with the wiring (log 2). -/
def State.wired (s : State) (m pa : Nat) : Nat :=
  if isHostPa pa then pa else s.hbm (s.dieNamed m (pa / 2 ^ 38 % 16) (pa / 2 ^ 42 % 16) (pa / 2 ^ 46 % 16)) + pa % 2 ^ 38

/-- Whether a port may serve its link: with an invalid placement record, only inside the module, where an external port meets
its loop-back partner (15 R342). -/
def State.mayServe (s : State) (d p : Nat) : Bool :=
  (s.module (s.moduleOf d)).placementOk || s.moduleOf (s.neighbour d p) == s.moduleOf d

/-- Whether a die's cores and links may serve (15 R331, R333, R337). -/
def Die.inService (d : Die) : Bool := match d.service with | .early | .full => true | _ => false

/-- Those of some ports of a die that may serve; one that leads to a die in OUT is recorded as down (15 R333). -/
def State.usable (s : State) (d : Nat) (up : BitVec 6) : BitVec 6 :=
  (List.range 6).foldl (fun b p =>
    if s.mayServe d p && (s.die (s.neighbour d p)).service != .out then b else b &&& ~~~(1#6 <<< p)) up

/-- Whether a port of a die is up. -/
def Die.portUp (d : Die) (p : Nat) : Bool := d.ports.getLsbD p

/-- Whether a link serves: the port and its peer are up. -/
def State.linkUp (s : State) (d p : Nat) : Bool := (s.die d).portUp p && (s.die (s.neighbour d p)).portUp (opposite p)

/-- The virtual channel of a packet kind (13 R276). -/
def vcOf (kind : Nat) : Nat :=
  match kind with
  | 0 | 2 | 4 | 6 => 0
  | 1 | 3 | 5 | 7 => 1
  | 8 | 10 | 12 | 14 => 2
  | _ => 3

/-- The dies and ports that n hops through one port cross. -/
def State.ringPath (s : State) (p : Nat) : Nat → Nat → List (Nat × Nat)
  | 0, _ => []
  | n + 1, d => (d, p) :: State.ringPath s p n (s.neighbour d p)

/-- The hops along one axis from a die to a coordinate: the shorter way, the positive way when both are equal, and by channel
on an axis of length 2; the other way round where that is down; none where both are (13 R278). -/
def State.axisRoute (s : State) (vc axis len d a b : Nat) : Option (List (Nat × Nat)) :=
  let up := (b + len - a) % len
  let down := (a + len - b) % len
  let plus := s.ringPath (2 * axis + 1) up d
  let minus := s.ringPath (2 * axis) down d
  let first := if len = 2 then decide (a % 2 = vc % 2) else decide (up ≤ down)
  [if first then plus else minus, if first then minus else plus].find? fun l => l.all fun h => s.linkUp h.1 h.2

/-- The route of a point-to-point packet, axis by axis (13 R278); none while it is held. -/
def State.route (s : State) (vc src dst : Nat) : Option (List (Nat × Nat)) :=
  let (x, y, z) := s.coords src
  let (u, v, w) := s.coords dst
  match s.axisRoute vc 0 s.lx src x u, s.axisRoute vc 1 s.ly (s.dieAt u y z) y v,
      s.axisRoute vc 2 s.lz (s.dieAt u v z) z w with
  | some a, some b, some c => some (a ++ b ++ c)
  | _, _, _ => none

/-- Packets have crossed the ports of hops: their runs of failed attempts end (13 R277). -/
def State.crossed (s : State) (l : List (Nat × Nat)) : State :=
  l.foldl (fun s h => s.modDie h.1 fun d => { d with fails := NMap.erase d.fails h.2 }) s

/-- Whether what a physical address names can be reached from a die: it is its own, or there are a way there and a way back
(01 R16, R17, 13 R278). -/
def State.routed (s : State) (die pa : Nat) : Bool :=
  let h := s.home (s.moduleOf die) pa
  h == die || ((s.route 0 die h).isSome && (s.route 1 h die).isSome)

/-- What an access to a physical address from a die has crossed: the runs of failed attempts on its way there and back end (13 R277). -/
def State.crossTo (s : State) (die pa : Nat) : State :=
  let h := s.home (s.moduleOf die) pa
  if h = die then s else
  match s.route 0 die h, s.route 1 h die with
  | some l, some m => (s.crossed l).crossed m
  | _, _ => s

end Sys2Proof.Machine
end

