-- ==== Sys2Proof/Machine/Translate.lean ====
section
/-!
DEFINITION. Translation: descriptors, the two-stage walk, permissions and the order of causes (08 R182 to R192, R201), the
TLBs (08 R193, R194) and shoot-down (08 R195, R196).
-/

namespace Sys2Proof.Machine

/-! ### Reading memory as every reader sees it -/

/-- Whether a line lies in a poisoned subtree (14 R312). -/
def State.poisoned (s : State) (pa : Nat) : Bool :=
  s.poison.any fun p => p.1 ≤ pa / 64 && pa / 64 < p.1 + p.2

/-- The window of a module that holds a physical address (14 R316); of several of one owner, the one with the lowest identifier
(log 28). -/
def State.windowAt (s : State) (m pa : Nat) : Option Window :=
  ((s.windows.filter fun p => p.1 / 256 = m).find? fun p => p.2.open' && p.2.pas.any fun q => q.1 ≤ pa && pa < q.1 + q.2.1).map (·.2)

/-- Whether a VD number of a window's module owns it or holds a grant of it. -/
def Window.serves (w : Window) (vd : Nat) : Bool := w.owner = vd || w.grants.any fun g => g.1 = vd

/-- The window that holds a physical address for a VD that owns it or holds a grant of it (14 R313, R316). -/
def State.windowFor (s : State) (k pa : Nat) : Option Window :=
  ((s.windows.filter fun p => p.1 / 256 = k / 256 && p.2.serves (k % 256)).find? fun p =>
    p.2.open' && p.2.pas.any fun q => q.1 ≤ pa && pa < q.1 + q.2.1).map (·.2)

/-- The VD that a request's tag names at the home of an address: the tag carries the number of the VD alone, and the home's module holds
the key table (14 R310, R313). Host memory has no keys. -/
def State.tagAt (s : State) (k pa : Nat) : Nat := if isHostPa pa then k else vdKey (s.moduleOf (s.home 0 pa)) (k % 256)

/-- The keys that a tag and the line's window choose (14 R308, R313): those of the line's window for a VD that a window of it serves, else
the VD's; for firmware, those of its own slot in the module whose die holds the line. -/
def State.slotKeys (s : State) (vd : Option Nat) (pa : Nat) : Option (BitVec 256 × BitVec 256) :=
  match vd with
  | some k =>
    (match s.windowFor (s.tagAt k pa) pa, s.windowAt (s.tagAt k pa / 256) pa with
     | some _, some w => some w.keys
     | _, _ => (s.vd (s.tagAt k pa)).keys)
  | none => (s.module (s.moduleOf (s.home 0 pa))).fwKeys

/-- Why a line fails verification for a reader: it is damaged, or it was written under other keys than the reader's slot holds
(14 R308, R311, R313); none for a line that verifies, and in host memory. -/
def State.lineFault (s : State) (vd : Option Nat) (pa : Nat) : Option Nat :=
  if isHostPa pa then none else
  match NMap.find? s.bad (pa / 64) with
  | some c => some c
  | none =>
    match NMap.find? s.sealed (pa / 64) with
    | none => none
    | some k => if s.slotKeys vd pa = some k then none else some Cause.intMac

/-- Whether a line reads as zeros: it fails verification, or it is poisoned (14 R311, R312). -/
def State.unreadable (s : State) (vd : Option Nat) (pa : Nat) : Bool := (s.lineFault vd pa).isSome || s.poisoned pa

/-- Bytes of memory as a reader gets them, every unreadable line as zeros (14 R311, R312). -/
def State.fetch (s : State) (vd : Option Nat) (pa n : Nat) : List Byte :=
  (List.range n).map fun i => if s.unreadable vd (pa + i) then 0#8 else s.byte (pa + i)

/-- Whether the world tag of a VD lets a request through: RUNNING and STOPPED (14 R313). -/
def State.vdOpen (s : State) (k : Nat) : Bool := match (s.vd k).state with | .running | .stopped => true | _ => false

/-! ### Descriptors (08 R189, R190) -/

/-- The page size of a leaf at a level, as a power of two (08 R189). -/
def leafShift (lvl : Nat) : Nat :=
  match lvl with | 0 => 16 | 1 => 21 | _ => 28

/-- The index of an address at a level (08 R189). -/
def levelIndex (stage1 : Bool) (lvl a : Nat) : Nat :=
  match lvl with
  | 0 => a / 2 ^ 16 % 32
  | 1 => a / 2 ^ 21 % 128
  | 2 => a / 2 ^ 28 % 2 ^ 14
  | _ => if stage1 then a / 2 ^ 42 % 2 ^ 14 else a / 2 ^ 42 % 2 ^ 10

/-- The size of a table of a level below the top, as a power of two (08 R189). -/
def tableShift (lvl : Nat) : Nat :=
  match lvl with | 0 => 8 | 1 => 10 | _ => 17

/-- What a descriptor says. -/
inductive Desc | invalid | firstTouch | bad | table (addr : Nat) | leaf (l : Leaf)
  deriving DecidableEq, Repr

/-- The page kind of ord bits (08 R190). -/
def pageOrd (n : Nat) : PageOrd := match n with | 0 => .so | 1 => .rc | _ => .un

/-- A descriptor of a stage at a level (08 R190). -/
def readDesc (stage1 : Bool) (lvl : Nat) (d : Nat) : Desc :=
  let flag (i : Nat) : Bool := d / 2 ^ i % 2 == 1
  let addr := d / 2 ^ 8 % 2 ^ 44 * 2 ^ 8
  if !flag 0 then (if stage1 && lvl == 0 && flag 8 then .firstTouch else .invalid)
  else if d / 2 ^ 52 != 0 then .bad
  else if flag 1 then
    if lvl == 0 || addr % 2 ^ tableShift (lvl - 1) != 0 || d / 4 % 64 != 0 then .bad else .table addr
  else if lvl == 3 || addr % 2 ^ leafShift lvl != 0 || d / 64 % 4 == 3 then .bad
  else .leaf ⟨addr, leafShift lvl, pageOrd (d / 64 % 4), flag 5, flag 4, flag 3, flag 2⟩

/-! ### Walks -/

/-- A line that a walk read: whether as firmware, whose stage-2 tables are, and its address. -/
abbrev Read := Bool × Nat

/-- The outcome of a walk of one stage and the lines it read. -/
structure WalkOut (α : Type) where
  out : Except TrFault α
  reads : List Read := []

/-- Whether every line of a walk's reads for a VD could be read (14 R311, R312). -/
def State.readsClean (s : State) (vdk : Nat) (l : List Read) : Bool :=
  l.all fun r => !s.unreadable (if r.1 then none else some vdk) r.2

/-- The stage-2 walk of a module from a table at a level down, in firmware's memory (08 R183, R189, R190). Tables and leaves name
physical addresses by the module's record; the leaf found gives the place in the wiring (01 R15, log 2). -/
def State.walk2 (s : State) (m : Nat) (acc : AccKind) (va ipa : Nat) : Nat → Nat → List Read → WalkOut Leaf
  | lvl, table, reads =>
    let named := table + 8 * levelIndex false lvl ipa
    let pa := s.wired m named
    let rd := reads ++ [(true, lineOf pa)]
    let fail (c : Nat) : WalkOut Leaf := ⟨.error ⟨c, va, ipa, true, acc⟩, rd⟩
    if !s.paOk m named then ⟨.error ⟨Cause.trPaRange, va, ipa, true, acc⟩, reads⟩ else
    match lvl, readDesc false lvl (leNat (s.fetch none pa 8)) with
    | _, .leaf l => if s.paOk m l.addr then ⟨.ok { l with addr := s.wired m l.addr }, rd⟩ else fail Cause.trPaRange
    | _, .bad => fail Cause.trS2Desc
    | n + 1, .table t => State.walk2 s m acc va ipa n t rd
    | _, _ => fail Cause.trS2Miss

/-- Firmware's frame of zeros of a module (14 R317): the last page of die 0's HBM (log 28). -/
def State.zeroFrame (s : State) (m : Nat) : Nat := s.hbm (s.dieOf m 0) + 2 ^ 36 - 65536

/-- The page of a window at an offset. -/
def pageAt : List (Nat × Nat × PageOrd) → Nat → Option (Nat × PageOrd)
  | [], _ => none
  | (pa, n, o) :: l, k => if k < n then some (pa, o) else pageAt l (k - n)

/-- What firmware has mapped into a VD's stage 2 for windows: granted ranges, and those of ended grants (14 R316, R317). -/
def State.overlay (s : State) (vdk ipa : Nat) : Option Leaf :=
  let granted := (s.windows.filter fun w => w.1 / 256 = vdk / 256 && w.2.open').findSome? fun w =>
    (w.2.grants.find? fun g => g.1 = vdk % 256 && g.2.1 ≤ ipa && ipa < g.2.1 + w.2.len).bind fun g =>
      (pageAt w.2.pas (ipa - g.2.1)).map fun p => ({ addr := p.1, ord := p.2, w := g.2.2, r := true } : Leaf)
  match granted with
  | some l => some l
  | none =>
    if (s.vd vdk).zeroed.any fun z => z.1 ≤ ipa && ipa < z.1 + z.2 then
      some { addr := s.zeroFrame (vdk / 256), ord := .rc, r := true }
    else none

/-- A VD's stage-2 mapping of an IPA: what windows map, else its tables (08 R189, 14 R316). -/
def State.map2 (s : State) (vdk : Nat) (acc : AccKind) (va ipa : Nat) : WalkOut Leaf :=
  match s.overlay vdk ipa with
  | some l => ⟨.ok l, []⟩
  | none => s.walk2 (vdk / 256) acc va ipa 3 (bits (s.vd vdk).s2root 51 13 * 2 ^ 13) []

/-- An IPA through a VD's stage 2, with the physical address it names (08 R183, R189). -/
def State.stage2 (s : State) (vdk : Nat) (acc : AccKind) (va ipa : Nat) : WalkOut (Leaf × Nat) :=
  let w := s.map2 vdk acc va ipa
  match w.out with
  | .error f => ⟨.error f, w.reads⟩
  | .ok l => ⟨.ok (l, l.addr + ipa % 2 ^ l.shift), w.reads⟩

/-- Whether routes lead from a die to the page of an IPA of a VD and to what maps it (01 R16, R17, 13 R278). -/
def State.pageRouted (s : State) (die vdk ipa : Nat) : Bool :=
  let w := s.stage2 vdk .none 0 ipa
  w.reads.all (fun r => s.routed die r.2) && match w.out with | .ok (_, pa) => s.routed die pa | .error _ => true

/-- The device reads n bytes of a table or record at an IPA, needing stage-2 read permission (08 R188, R189). An SO page of host
memory is refused as it is for the combined result of 08 R191 (log 58); a VD that is not open reads zeros (14 R313). -/
def State.readIpa (s : State) (vdk va ipa n : Nat) : WalkOut (List Byte × Nat) :=
  let w := s.stage2 vdk .walk va ipa
  match w.out with
  | .error f => ⟨.error f, w.reads⟩
  | .ok (l, pa) =>
    if isHostPa pa && l.ord == .so then ⟨.error ⟨Cause.prHostSo, va, ipa, false, .walk⟩, w.reads⟩
    else if !l.r then ⟨.error ⟨Cause.prRead, va, ipa, false, .walk⟩, w.reads⟩
    else if !s.vdOpen vdk then ⟨.ok (List.replicate n 0#8, pa), w.reads⟩
    else ⟨.ok (s.fetch (some vdk) pa n, pa), w.reads ++ [(false, lineOf pa)]⟩

/-- What the stage-1 walk gives: a leaf, or a first-touch descriptor with where it lies. -/
inductive Leaf1 | leaf (l : Leaf) | firstTouch (pa : Nat) (d : Nat)
  deriving DecidableEq, Repr

/-- The stage-1 walk from a table at a level down; every read goes through stage 2 (08 R189, R190). -/
def State.walk1 (s : State) (vdk : Nat) (acc : AccKind) (va : Nat) : Nat → Nat → List Read → WalkOut Leaf1
  | lvl, table, reads =>
    let r := s.readIpa vdk va (table + 8 * levelIndex true lvl va) 8
    let rd := reads ++ r.reads
    match r.out with
    | .error f => ⟨.error f, rd⟩
    | .ok (bs, pa) =>
      let fail (c : Nat) : WalkOut Leaf1 := ⟨.error ⟨c, va, 0, false, acc⟩, rd⟩
      match lvl, readDesc true lvl (leNat bs) with
      | _, .leaf l => ⟨.ok (.leaf l), rd⟩
      | _, .bad => fail Cause.trS1Desc
      | _, .firstTouch => ⟨.ok (.firstTouch pa (leNat bs)), rd⟩
      | n + 1, .table t => State.walk1 s vdk acc va n t rd
      | _, _ => fail Cause.trS1Miss

/-- The space record of 64 bytes; `bad` makes every walk of the space fault (08 R188). -/
def readSpace (bs : List Byte) : Space :=
  let d := dword bs
  let plen := d 2
  let okLen := (List.range 13).any fun k => plen == 2 ^ (k + 3)
  { root := d 0 / 2 ^ 17 % 2 ^ 35 * 2 ^ 17, fte := d 0 % 2 == 1 && okLen, pool := d 1 / 64 % 2 ^ 46 * 64, plen,
    bad := d 0 / 2 % 2 ^ 16 != 0 || d 0 / 2 ^ 52 != 0 || d 1 % 64 != 0 || d 1 / 2 ^ 52 != 0 || !okLen ||
      d 5 != 0 || d 6 != 0 || d 7 != 0 }

/-- What a two-stage walk finds. -/
inductive Found | entry (e : TlbEntry) | firstTouch (pa d : Nat)
  deriving DecidableEq, Repr

/-- The weaker index is the stronger kind: SO, then RC, then UN (08 R191). -/
def strongerOrd : PageOrd → PageOrd → PageOrd
  | .so, _ => .so | _, .so => .so | .rc, _ => .rc | _, .rc => .rc | _, _ => .un

/-- The combined translation of a stage-1 leaf and the stage-2 leaf of its IPA (08 R191). The IPA page it keeps is of the effective
size, not the whole stage-2 page (08 R193, log 57). -/
def combine (vdk asid va : Nat) (l1 l2 : Leaf) (ipa pa : Nat) : TlbEntry :=
  let sz := min l1.shift l2.shift
  { vd := vdk, asid, va := va / 2 ^ sz * 2 ^ sz, ipa := ipa / 2 ^ sz * 2 ^ sz, pa := pa / 2 ^ sz * 2 ^ sz, size := sz,
    ord := strongerOrd l1.ord l2.ord, u := l1.u, x := l1.x && l2.x, w := l1.w && l2.w, r := l1.r && l2.r }

/-- The space record at a root, read through stage 2 (08 R188). -/
def State.spaceAt (s : State) (vdk root va : Nat) : WalkOut Space :=
  let r := s.readIpa vdk va root 64
  match r.out with
  | .error f => ⟨.error f, r.reads⟩
  | .ok (bs, _) => ⟨.ok (readSpace bs), r.reads⟩

/-- The stage-1 part of a walk in a space: its leaf, or the first-touch descriptor it meets (08 R188 to R190). -/
def State.walkStage1 (s : State) (vdk va : Nat) (acc : AccKind) (sp : Space) : WalkOut Leaf1 :=
  if sp.bad then ⟨.error ⟨Cause.trS1Desc, va, 0, false, acc⟩, []⟩ else
  let w := s.walk1 vdk acc va 3 sp.root []
  match w.out with
  | .ok (.firstTouch _ _) => if sp.fte then w else ⟨.error ⟨Cause.trS1Miss, va, 0, false, acc⟩, w.reads⟩
  | _ => w

/-- The stage-2 part: the IPA that the leaf gives, and the combined translation (08 R191). -/
def State.walkStage2 (s : State) (vdk asid va : Nat) (acc : AccKind) (l1 : Leaf) : WalkOut TlbEntry :=
  let ipa := l1.addr + va % 2 ^ l1.shift
  let w := s.stage2 vdk acc va ipa
  match w.out with
  | .error f => ⟨.error f, w.reads⟩
  | .ok (l2, pa) => ⟨.ok (combine vdk asid va l1 l2 ipa pa), w.reads⟩

/-- The two-stage walk of a virtual address at one instant (08 R188 to R191), its causes in the order of 08 R201. -/
def State.walk (s : State) (vdk root asid va : Nat) (acc : AccKind) : WalkOut Found :=
  if 2 ^ 56 ≤ va then ⟨.error ⟨Cause.trVaRange, va, 0, false, acc⟩, []⟩ else
  let r := s.spaceAt vdk root va
  match r.out with
  | .error f => ⟨.error f, r.reads⟩
  | .ok sp =>
    let w := s.walkStage1 vdk va acc sp
    match w.out with
    | .error f => ⟨.error f, r.reads ++ w.reads⟩
    | .ok (.firstTouch pa d) => ⟨.ok (.firstTouch pa d), r.reads ++ w.reads⟩
    | .ok (.leaf l1) =>
      let w2 := s.walkStage2 vdk asid va acc l1
      match w2.out with
      | .error f => ⟨.error f, r.reads ++ w.reads ++ w2.reads⟩
      | .ok e => ⟨.ok (.entry e), r.reads ++ w.reads ++ w2.reads⟩

/-! ### Permissions (08 R191, R201) -/

/-- The cause for which an access of a kind and level is refused by a translation, in the order of 08 R201. -/
def TlbEntry.refuses (e : TlbEntry) (isS : Bool) (acc : AccKind) : Option Nat :=
  if isHostPa e.pa && e.ord == .so then some Cause.prHostSo
  else if !isS && !e.u then some Cause.prUser
  else
    match acc with
    | .exec => if e.x then none else some Cause.prExec
    | .read | .walk => if e.r then none else some Cause.prRead
    | .write => if e.w then none else some Cause.prWrite
    | .atomic => if !e.r then some Cause.prRead else if !e.w then some Cause.prWrite else none
    | .none => none

/-- The physical address a translation gives. -/
def TlbEntry.phys (e : TlbEntry) (va : Nat) : Nat := e.pa + va % 2 ^ e.size

/-! ### TLBs (08 R193, R194) -/

/-- Whether a cached translation serves an address of a space. -/
def TlbEntry.serves (e : TlbEntry) (vdk asid va : Nat) : Bool :=
  e.vd == vdk && e.asid == asid && e.va == va / 2 ^ e.size * 2 ^ e.size

/-- Entries of the core TLB and of the last-level TLB (08 R193). -/
def coreTlbSize : Nat := 64
def lltSize : Nat := 8192

/-- A translation put into a TLB of n entries; a full TLB drops one the model does not name (log 12). -/
def insertTlb (n draw : Nat) (l : List TlbEntry) (e : TlbEntry) : List TlbEntry :=
  if l.contains e then l
  else if l.length < n then e :: l
  else e :: l.eraseIdx (Config.tlbVictim draw % n)

/-- Live hardware identifiers of a die (08 R194). -/
def hwidCount : Nat := 2048

/-- The cores of a die, as keys. -/
def coresOf (die : Nat) : List Nat := (List.range coresPerDie).map fun c => die * coresPerDie + c

/-- Translations dropped from every TLB of a die. -/
def State.dropDie (s : State) (die : Nat) (p : TlbEntry → Bool) : State :=
  let s := s.modDie die fun d => { d with llt := d.llt.filter fun e => !p e }
  { s with cores := s.cores.map fun kc => if kc.1 / coresPerDie = die then
      (kc.1, { kc.2 with tlb := kc.2.tlb.filter fun e => !p e }) else kc }

/-- The pair bound to a hardware identifier: it becomes the most recently used; if none was free, the least recently
used pair loses its entries first (08 R194). -/
def State.bindHwid (s : State) (die : Nat) (pr : Nat × Nat) : State :=
  let l := s.hwids.getD die []
  let put (s : State) (l : List (Nat × Nat)) : State := { s with hwids := s.hwids.set die (l ++ [pr]) }
  if l.contains pr then put s (l.erase pr)
  else if l.length < hwidCount then put s l
  else
    match l with
    | [] => s
    | old :: rest =>
      put (s.dropDie die fun e => (e.vd, e.asid) == old) rest

/-- A walked translation put into the last-level TLB and, for a core, into its TLB. -/
def State.fillTlb (s : State) (die : Nat) (core : Option Nat) (e : TlbEntry) : State :=
  let s := s.bindHwid die (e.vd, e.asid)
  let (k, s) := s.draw
  let s := s.modDie die fun d => { d with llt := insertTlb lltSize k d.llt e }
  match core with
  | none => s
  | some c => s.modCore c fun x => { x with tlb := insertTlb coreTlbSize (k + 1) x.tlb e }

/-- A core's lookup: its own TLB, then the last-level TLB, which it copies from (08 R193). A hit is a use of the space's hardware
identifier (08 R194). -/
def State.lookup (s : State) (die core vdk asid va : Nat) : Option TlbEntry × State :=
  match (s.core core).tlb.find? fun e => e.serves vdk asid va with
  | some e => (some e, s.bindHwid die (vdk, asid))
  | none =>
    match (s.die die).llt.find? fun e => e.serves vdk asid va with
    | some e =>
      let (k, s) := (s.bindHwid die (vdk, asid)).draw
      (some e, s.modCore core fun x => { x with tlb := insertTlb coreTlbSize k x.tlb e })
    | none => (none, s)

/-! ### Shoot-down (08 R195, R196) -/

/-- Whether a shoot-down invalidates a translation (08 R195). -/
def Shoot.matches (h : Shoot) (e : TlbEntry) : Bool :=
  match h.kind with
  | 0 => e.vd == h.vd && e.asid == h.asid && e.va == h.addr / 2 ^ e.size * 2 ^ e.size
  | 1 => e.vd == h.vd && e.asid == h.asid
  | 2 => e.vd == h.vd
  | 3 => e.vd == h.vd && e.ipa == h.addr / 2 ^ e.size * 2 ^ e.size
  | _ => e.vd == h.vd

/-- Entries of the shoot-down log (08 R196). -/
def shootLogSize : Nat := 32

/-- A shoot-down logged on a die under the next number (08 R195, R196). -/
def State.logShoot (s : State) (die : Nat) (h : Shoot) : State :=
  s.modDie die fun d =>
    let n := (d.shootNum + 1) % 2 ^ 32
    { d with shootNum := n, shootLog := (d.shootLog ++ [{ h with num := n }]).drop (d.shootLog.length + 1 - shootLogSize) }

/-- Whether a walk that started at a number must be discarded: a later matching shoot-down is logged, or the number is older than
the oldest logged entry (08 R196). The order of numbers is that of the log. -/
def Die.discards (d : Die) (num : Nat) (m : Shoot → Bool) : Bool :=
  let since := (d.shootNum + 2 ^ 32 - num) % 2 ^ 32
  (!d.shootLog.isEmpty && d.shootLog.length ≤ since) || (d.shootLog.drop (d.shootLog.length - since)).any m

end Sys2Proof.Machine
end

