-- ==== Sys2Proof/Machine/Home.lean ====
section
/-!
DEFINITION. What happens at the home of a line: integrity (14 R309 to R312), the comparison for bells (07 R162 to R164,
R167, R169, R170), fault records (12 R274, R275), and the gate of the world tag (14 R313).
-/

namespace Sys2Proof.Machine

/-! ### Fault records (12 R274) -/

/-- Access codes of a record (12 R274). -/
def AccKind.code : AccKind → Nat
  | .read => 0 | .write => 1 | .exec => 2 | .atomic => 3 | .walk => 4 | .none => 5

/-- The 64 bytes of a record (12 R274). -/
def Rec.bytes (r : Rec) : List Byte :=
  leBytes 8 (r.tid * 2 ^ 32 + r.die % 256 * 2 ^ 24 + r.index % 256 * 2 ^ 16 + r.access.code * 2 ^ 13 + b2n r.unh * 2 ^ 12 +
    b2n r.copy * 2 ^ 11 + r.eng * 2 ^ 9 + r.cause) ++
  leBytes 8 r.va ++ leBytes 8 r.dw2 ++ leBytes 8 r.dw3 ++ List.replicate 32 0#8

/-- The bytes of a record, which names its die by the record of the die's module (12 R274, 01 R15). -/
def State.recordBytes (s : State) (r : Rec) : List Byte := { r with die := s.dieName r.die }.bytes

/-- Whether a ring size is one of the powers of two from 16 to 65,536 (12 R274). -/
def ringSizeOk (n : Nat) : Bool := (List.range 13).any fun k => n == 2 ^ (k + 4)

/-- A record in a ring that firmware has read up to `read`: it is dropped and counted where the ring is full. -/
def FwRing.put (x : FwRing) (read : Nat) (bs : List Byte) : FwRing :=
  let x := { x with cons := max x.cons (min read x.prod) }
  if !ringSizeOk x.size || x.size ≤ x.prod - x.cons then { x with lost := x.lost + 1 }
  else { x with records := x.records.set (x.prod % x.size) bs, prod := x.prod + 1 }

/-- A record in the firmware's own fault ring (12 R274). How far firmware has read its ring is not a value the manual gives (log 37). -/
def State.firmwareRecord (s : State) (m : Nat) (r : Rec) : State :=
  let (k, s) := s.draw
  s.modModule m fun x => { x with fwRing := x.fwRing.put (Config.firmwareRead k) (s.recordBytes r) }

/-- Every record reaches the firmware's log (12 R275). -/
def State.logRecord (s : State) (m : Nat) (r : Rec) : State :=
  s.modModule m fun x => { x with log := x.log ++ [s.recordBytes r] }

/-! ### On whose behalf memory is touched -/

/-- Whom an access at a home belongs to, for records and the world tag (12 R274, 14 R313): a VD or firmware (none),
the task's tid, engine, and for a copy its channel and sequence number. -/
structure Who where
  vd : Option Nat := none
  die : Nat := 0
  tid : Nat := 0
  eng : Nat := 0
  chan : Option (Nat × Nat) := none
  acc : AccKind := .none
  /-- The die and number of the task whose store it is, where the record names another agent (13 R290). -/
  by' : Option (Nat × Nat) := none
  /-- An access of the host itself (15 R327). -/
  host : Bool := false
  deriving DecidableEq, Repr

/-- The die and number of the task that makes an access. -/
def Who.task (w : Who) : Nat × Nat := w.by'.getD (w.die, w.tid)

/-- The record of a failure met by an access. -/
def Who.record (w : Who) (cause va : Nat) : Rec :=
  { tid := w.tid, die := w.die, access := w.acc, cause, va, eng := if w.chan.isSome then 1 else w.eng,
    copy := w.chan.isSome, index := (match w.chan with | some c => c.1 | none => 0),
    dw3 := (match w.chan with | some c => c.2 | none => 0) }

/-- The VD that owns a line: the owner of its window, else the VD that the tag of the access names at the line's home (14 R308, R310,
R316). -/
def State.owner (s : State) (w : Who) (pa : Nat) : Option Nat :=
  w.vd.map fun k => match s.windowAt (s.tagAt k pa / 256) pa with
    | some x => vdKey (s.tagAt k pa / 256) x.owner
    | none => s.tagAt k pa

/-! ### Counters and integrity (14 R309, R311, R312) -/

/-- The key of a child counter of the counter tree (14 R309): the stack, the level of the node that holds it, and the child. -/
def nodeKey (pa level : Nat) : Nat := (pa / 2 ^ 36 * 16 + level) * 2 ^ 24 + pa % 2 ^ 36 / 4096 / 8 ^ (level - 1)

/-- Node levels above the leaves; the counters of the last are those of the security block (14 R309). -/
def treeLevels : Nat := 8

/-- The child counters above a line advance, up to the first node that is held verified: which one that is is not a value the
manual gives (14 R309, log 61). -/
def State.countNodes (s : State) (pa : Nat) : State :=
  let (k, s) := s.draw
  (List.range (min (Config.nodeLevels k % treeLevels + 1) treeLevels)).foldl (fun s i =>
    let key := nodeKey pa (i + 1)
    { s with nodes := s.nodes.set key ((s.nodes.getD key 0 + 1) % 2 ^ 56) }) s

/-- The counters of a line advance at a write (14 R309). -/
def State.countWrite (s : State) (pa : Nat) : State :=
  let line := pa / 64
  let leaf := pa / 4096
  let s := s.countNodes pa
  if s.minors.getD line 0 = 127 then
    { s with majors := s.majors.set leaf (s.majors.getD leaf 0#64 + 1#64),
             minors := s.minors.filter fun p => p.1 / 64 ≠ leaf }
  else { s with minors := s.minors.set line (s.minors.getD line 0 + 1) }

/-- A line written takes the keys of its owner at its home (14 R308, R310). -/
def State.seal (s : State) (vd : Option Nat) (pa : Nat) : State :=
  match s.slotKeys vd pa with
  | some k => { s with sealed := s.sealed.set (pa / 64) k }
  | none => { s with sealed := NMap.erase s.sealed (pa / 64) }

/-- What the environment does to an access: a corrected word is counted for the home die (14 R312, 15 R335); damage meets the line,
or the subtree of a node (14 R311, R312). -/
def State.damage (s : State) (pa : Nat) : Integ → State
  | .ok | .sram _ _ => s
  | .corrected => s.modDie (s.home 0 pa) fun d => { d with hbmc := d.hbmc + 1#64 }
  | .mac => { s with bad := s.bad.set (pa / 64) Cause.intMac }
  | .ecc => { s with bad := s.bad.set (pa / 64) Cause.mcHbm }
  | .tree lvl =>
    let n := 64 * 8 ^ (min lvl 8)
    { s with poison := (pa / 64 / n * n, n) :: s.poison }

/-! ### Bells (07 R162 to R170) -/

/-- The runaway limit and its window in ticks (07 R167). -/
def runawayLimit : Nat := 1024
def runawayWindow : Nat := 1000

/-- The entry with its window brought up to a tick: windows are consecutive from the arming point (07 R167). -/
def Bell.roll (b : Bell) (now : Nat) : Bell :=
  if b.winStart + runawayWindow ≤ now then
    { b with winStart := b.winStart + (now - b.winStart) / runawayWindow * runawayWindow, winCount := 0 }
  else b

/-- One ring (07 R164, R167), and whether it disarmed the entry. -/
def Bell.ring (b : Bell) (now va : Nat) : Bell × Bool :=
  let b := b.roll now
  if runawayLimit ≤ b.winCount then ({ b with winCount := b.winCount + 1, state := .disarmed, why := 1#2 }, true)
  else
    let b := { b with winCount := b.winCount + 1 }
    match b.state with
    | .armed => ({ b with state := .pending, count := 1, first := BitVec.ofNat 64 va }, false)
    | .pending => ({ b with count := min (b.count + 1) 65535 }, false)
    | _ => (b, false)

/-- What a seal at a position of a ring of a size says (07 R169, R170): a message and the next position, padding to the end, or
an error. -/
inductive SealStep | message (next : Nat) | padding | error
  deriving DecidableEq, Repr

def sealStep (word pos size : Nat) : SealStep :=
  let lines := word / 2 ^ 16 % 2 ^ 16
  let kind := word / 2 ^ 8 % 2 ^ 8
  let next := pos + 64 * lines
  if word % 2 ^ 8 ≠ 0 ∨ lines = 0 then .error
  else if kind = 0 then (if next ≤ size then .message (next % size) else .error)
  else if kind = 1 ∧ next = size then .padding
  else .error

/-- What a changed seal does to a mailbox (07 R170): the entry and the cause of a record, if any. `word` is the seal as it
reads after the store. A valid seal whose ring is the one too many of a window leaves the producer position where it is, of which the
manual says nothing (DESIGN CHOICE, log 70). -/
def Bell.mailbox (b : Bell) (now word : Nat) : Bell × Option Nat :=
  match sealStep word b.pos b.len with
  | .error => ({ b with state := .disarmed, why := 2#2 }, some Cause.bellMailbox)
  | .padding => ({ b with pos := 0 }, none)
  | .message next =>
    let (b', runaway) := b.ring now (b.base.toNat + b.pos)
    if runaway then (b', some Cause.bellRunaway) else ({ b' with pos := next }, none)

/-- Whether an entry watches. -/
def Bell.watching (b : Bell) : Bool :=
  match b.state with | .armed | .pending => true | _ => false

/-- What a write of one line does to one entry: `changed` lists the addresses whose byte took a different value, in
ascending order; `read` reads memory after the write. -/
def Bell.compare (b : Bell) (now : Nat) (changed : List Nat) (read : Nat → Byte) : Bell × Option Nat :=
  let mine := changed.filter fun a => b.pa ≤ a && a < b.pa + b.len
  if !b.watching then (b, none)
  else if b.mbox then
    if mine.any fun a => b.pa + b.pos ≤ a && a < b.pa + b.pos + 8 then
      b.mailbox now (leNat ((List.range 8).map fun i => read (b.pa + b.pos + i)))
    else (b, none)
  else
    match mine with
    | [] => (b, none)
    | a :: _ =>
      let (b', runaway) := b.ring now (b.base.toNat + (a - b.pa))
      (b', if runaway then some Cause.bellRunaway else none)

/-- A number put into an ascending list. -/
def insertAsc (x : Nat) : List Nat → List Nat
  | [] => [x]
  | y :: ys => if x ≤ y then x :: y :: ys else y :: insertAsc x ys

/-- The keys of the bells of a die that watch a line, ascending. -/
def State.bellsAt (s : State) (die line : Nat) : List Nat :=
  ((s.bells.filter fun p => p.1 / 4096 = die && p.2.watching && decide (p.2.pa ≤ line ∧ line < p.2.pa + p.2.len)).map
    (·.1)).foldl (fun l k => insertAsc k l) []

/-! ### The device's own accesses -/

/-- A physical address of an IPA for a device access of a VD: it needs the given permission of stage 2 alone. -/
def State.devicePa (s : State) (vdk ipa : Nat) (write : Bool) : Except TrFault Nat :=
  match (s.stage2 vdk (if write then .write else .read) 0 ipa).out with
  | .error f => .error f
  | .ok (l, pa) =>
    if isHostPa pa && l.ord == .so then .error ⟨Cause.prHostSo, 0, ipa, true, if write then .write else .read⟩
    else if write && !l.w then .error ⟨Cause.prWrite, 0, ipa, true, .write⟩
    else if !write && !l.r then .error ⟨Cause.prRead, 0, ipa, true, .read⟩
    else .ok pa

/-- A doubleword of a VD's memory as the device reads it; an unreadable line reads as zeros. -/
def State.deviceRead (s : State) (vdk ipa n : Nat) : Except TrFault Nat :=
  match s.devicePa vdk ipa false with
  | .error f => .error f
  | .ok pa => .ok (if s.vdOpen vdk then leNat (s.fetch (some vdk) pa n) else 0)

/-- The lines that n bytes at an address touch. -/
def linesOf (pa n : Nat) : List Nat :=
  (List.range ((pa % 64 + n + 63) / 64)).map fun i => lineOf pa + 64 * i

/-- The records that reading lines gives rise to (14 R311, R312). -/
def State.readNotes (s : State) (w : Who) (va pa n : Nat) : Notes :=
  (linesOf pa n).filterMap fun l =>
    match s.owner w l with
    | none => none
    | some k =>
      let va' := if l ≤ pa then va else va + (l - pa)
      if s.poisoned l then some (k, w.record Cause.intTree va')
      else (s.lineFault w.vd l).map fun c => (k, w.record c va')

/-! ### The service ring (14 R315) -/

/-- The IPA of a record of a VD's service ring. -/
def State.serviceIpa (s : State) (vdk pos : Nat) : Nat := (s.vd vdk).field 0xA0 8 % 2 ^ 52 + pos

/-- Firmware looks at the service ring of a VD whose tag is served after a store: one that changes a byte of the seal at the ring's
position makes a request, which firmware takes as it stands; an error is recorded as a mailbox's is, and firmware then watches the
ring no more and answers nothing that comes there (14 R313, R315, 07 R169, R170; DESIGN CHOICE, log 27). -/
def State.watchService (s : State) (changed : List Nat) (vdk : Nat) : State × Notes :=
  let v := s.vd vdk
  if !v.svcOn || !s.vdOpen vdk then (s, []) else
  match s.devicePa vdk (s.serviceIpa vdk v.svcPos) false with
  | .error _ => (s, [])
  | .ok pa =>
    if !(changed.any fun a => pa ≤ a && a < pa + 8) then (s, []) else
    let line := s.fetch (some vdk) pa 64
    let notes := s.readNotes { vd := some vdk, die := s.home 0 pa, acc := .read } 0 pa 64
    match sealStep (dword line 0) v.svcPos Config.serviceRing with
    | .error => (s.modVd vdk fun v => { v with svcOn := false }, notes ++ [(vdk, { die := s.home 0 pa, cause := Cause.bellMailbox })])
    | .padding => (s.modVd vdk fun v => { v with svcPos := 0 }, notes)
    | .message next => (s.modVd vdk fun v => { v with svcPos := next, requests := v.requests ++ [line] }, notes)

/-- Firmware looks at every service ring after a store that changed some bytes. -/
def State.watchServices (s : State) (changed : List Nat) : State × Notes :=
  s.vds.foldl (fun r v => let (s, n) := r.1.watchService changed v.1; (s, r.2 ++ n)) (s, [])

/-! ### Writing a line -/

/-- The atomics that have read n bytes of host memory and have still to write there do so before another access of the device replaces or
changes them: only writes of the host, which leave them waiting, fall between (09 R208, 16 R349, R350). -/
def State.finishAtomics (s : State) (pa n : Nat) : State :=
  s.accesses.foldl (fun s a => a.2.parts.zipIdx.foldl (fun s (p, i) =>
    match p.old with
    | some (v, bs) =>
      if !bs.isEmpty && p.pa < pa + n && pa < p.pa + p.len then
        ({ s with accesses := s.accesses.upd a.1 fun b =>
            { b with parts := updAt b.parts i fun q => { q with old := some (v, []) } } } : State).poke p.pa bs
      else s
    | none => s) s) s

/-- The entries of a die's bell table compare a line after a write that changed some bytes of it (07 R162, R163). -/
def State.ringBells (s : State) (die line : Nat) (changed : List Nat) : State × Notes :=
  let now := (s.die die).clk.toNat
  (s.bellsAt die line).foldl (fun acc k =>
    let b := acc.1.bell k
    let (b', c) := b.compare now changed acc.1.byte
    (acc.1.modBell k fun _ => b',
     acc.2 ++ (match c with
       | some c => [(b.vd, { die, index := k % 4096, cause := c, dw2 := k % 4096 })]
       | none => []))) (s, [])

/-- The addresses from one upward at which some bytes differ from others. -/
def changedAt (pa : Nat) (old new : List Byte) : List Nat :=
  ((List.range new.length).filter fun i => old.getD i 0#8 != new.getD i 0#8).map (pa + ·)

/-- A write inside one line applied at its home (14 R309, R311, R312, 07 R162): memory changes, bells compare, and firmware looks at its
rings. Records it gives rise to are returned. -/
def State.applyLine (s : State) (w : Who) (rings : Bool) (va pa : Nat) (bs : List Byte) : State × Notes :=
  let looked (s : State) (changed : List Nat) : State × Notes := if rings then s.watchServices changed else (s, [])
  if isHostPa pa then
    let s := if w.host then s else s.finishAtomics pa bs.length
    looked (s.poke pa bs) (changedAt pa (s.bytes pa bs.length) bs)
  else
    let die := s.home 0 pa
    let own := s.owner w pa
    let note (c : Nat) : Notes := match own with | some k => [(k, w.record c va)] | none => []
    if s.poisoned pa then (s, note Cause.intTree) else
    let whole := bs.length == 64
    let line := lineOf pa
    let damaged := s.lineFault w.vd pa
    let old := if damaged.isSome then List.replicate 64 0#8 else s.bytes line 64
    let changed := changedAt pa ((old.drop (pa - line)).take bs.length) bs
    let s1 := (({ s with bad := s.bad.erase (pa / 64) }.seal w.vd pa).countWrite pa).poke line (patch old (pa - line) bs)
    let noted : Notes := match damaged with | some c => if whole then [] else note c | none => []
    let (s2, rung) := if rings then s1.ringBells die line changed else (s1, [])
    let (s3, more) := looked s2 changed
    (s3, noted ++ rung ++ more)

/-- The pieces of a byte string at an address that lie in one line each, ascending. -/
def pieces : Nat → Nat → List Byte → List (Nat × List Byte)
  | 0, _, _ => []
  | n + 1, pa, bs =>
    if bs.isEmpty then [] else
    let k := 64 - pa % 64
    (pa, bs.take k) :: pieces n (pa + k) (bs.drop k)

/-- A write applied line by line in ascending order (07 R162). -/
def State.applyWrite (s : State) (w : Who) (rings : Bool) (va pa : Nat) (bs : List Byte) : State × Notes :=
  (pieces (bs.length + 1) pa bs).foldl (fun acc p =>
    let (s', n) := acc.1.applyLine w rings (va + (p.1 - pa)) p.1 p.2
    (s', acc.2 ++ n)) (s, [])

/-! ### The supervisor's fault ring (12 R274) -/

/-- The control block of a ring: prod, cons, lost and size, and where prod and lost are written (12 R274). -/
structure RingHead where
  prod : Nat := 0
  cons : Nat := 0
  lost : Nat := 0
  size : Nat := 0
  prodPa : Nat := 0
  lostPa : Nat := 0

/-- The control block of a VD's ring as the device reads it; a block that it cannot read or write is refused as a whole. -/
def State.ringHead (s : State) (vdk ring : Nat) : Except TrFault RingHead := do
  let prod ← s.deviceRead vdk ring 8
  let cons ← s.deviceRead vdk (ring + 8) 8
  let lost ← s.deviceRead vdk (ring + 16) 8
  let size ← s.deviceRead vdk (ring + 24) 8
  let prodPa ← s.devicePa vdk ring true
  let lostPa ← s.devicePa vdk (ring + 16) true
  return { prod, cons, lost, size, prodPa, lostPa }

/-- The records that the device's own reads of a VD's memory give rise to, by the addresses that translate: each failing line one (14 R311,
R312). -/
def State.deviceNotes (s : State) (w : Who) (vdk ipa n : Nat) : Notes :=
  if !s.vdOpen vdk then [] else
  match s.devicePa vdk ipa false with | .error _ => [] | .ok pa => s.readNotes { w with vd := some vdk, acc := .read } 0 pa n

/-- Whether no route leads from a die to a VD's ring: to its control block, or to the slot that the next record takes (01 R16, R17,
13 R278). -/
def State.ringAway (s : State) (die vdk ring : Nat) : Bool :=
  !s.pageRouted die vdk ring ||
    match s.ringHead vdk ring with
    | .ok h => ringSizeOk h.size && !s.pageRouted die vdk (ring + 64 + 64 * (h.prod % h.size))
    | .error _ => false

/-- Records written to their VDs' rings, with what their own stores and reads give rise to; every record also reaches the log. One
whose ring no route leads to waits for one. For a VD whose tag is not served nothing is read or written (14 R313). A ring whose control
block lies in a poisoned line can take no record of that line either: it goes to firmware's ring (log 37). The bound is on the number of
records, which only a bell disarmed by a record and a control block that fails its checks can add to. -/
def State.putRecords : Nat → State → Notes → State
  | 0, s, _ => s
  | _, s, [] => s
  | n + 1, s, (vdk, r) :: rest =>
    let m := vdk / 256
    let ring := (s.vd vdk).field 0x98 8 % 2 ^ 52
    if !s.vdOpen vdk then State.putRecords n (s.logRecord m r) rest
    else if s.ringAway r.die vdk ring then State.putRecords n { s with owed := s.owed ++ [(vdk, r)] } rest else
    let s := s.logRecord m r
    let fail (s : State) (f : TrFault) : State :=
      let x : Rec := { die := r.die, access := .write, cause := f.cause, dw2 := f.ipa }
      (s.logRecord m x).firmwareRecord m x
    let w : Who := { vd := some vdk, die := r.die, acc := .write }
    match s.ringHead vdk ring with
    | .error f => State.putRecords n (fail s f) rest
    | .ok h =>
      let s := s.crossTo r.die h.prodPa
      let met := s.deviceNotes w vdk ring 32
      let dead := s.poisoned h.prodPa
      let s := if dead then met.foldl (fun s p => (s.logRecord m p.2).firmwareRecord m p.2) s else s
      let rest := if dead then rest else rest ++ met
      let drop (s : State) : State × Notes := s.applyWrite w true 0 h.lostPa (leBytes 8 (h.lost + 1))
      if !ringSizeOk h.size || h.size ≤ (h.prod + 2 ^ 64 - h.cons) % 2 ^ 64 then
        let (s, more) := drop s
        State.putRecords n s (rest ++ more)
      else
        match s.devicePa vdk (ring + 64 + 64 * (h.prod % h.size)) true with
        | .error f =>
          let (s, more) := drop (fail s f)
          State.putRecords n s (rest ++ more)
        | .ok slot =>
          let (s, more) := s.applyWrite w true 0 slot (s.recordBytes r)
          let (s, more') := s.applyWrite w true 0 h.prodPa (leBytes 8 (h.prod + 1))
          State.putRecords n s (rest ++ more ++ more')

/-- Records written to their rings, behind those that wait for a route. Each bell of the pod and each service ring can add at most one,
and each control block that fails its checks two, since a write makes it readable again, so the bound is never reached. -/
def State.flushRecords (s : State) (l : Notes) : State :=
  ({ s with owed := [] } : State).putRecords (s.owed.length + l.length + s.bells.length + 3 * s.vds.length + 1) (s.owed ++ l)

/-- Records that something gives rise to, if any. -/
def State.records (s : State) (l : Notes) : State := if l.isEmpty then s else s.flushRecords l

/-- One record to a VD's supervisor (12 R274). -/
def State.record (s : State) (vdk : Nat) (r : Rec) : State := s.records [(vdk, r)]

/-- The record of a failed translation (08 R198, 12 R275): stage-2 causes go to the firmware's ring, the others to the
supervisor's. -/
def State.faultRecord (s : State) (vdk : Nat) (r : Rec) (f : TrFault) : State :=
  let r := { r with cause := f.cause, va := f.va, access := f.access, dw2 := if f.stage2 then f.ipa else 0 }
  if f.cause = Cause.trS2Miss ∨ f.cause = Cause.trS2Desc ∨ f.cause = Cause.trPaRange then
    (s.logRecord (vdk / 256) r).firmwareRecord (vdk / 256) r
  else s.record vdk r

/-! ### Home accesses -/

/-- Whether the world tag lets an access to an address through: firmware, or a VD in RUNNING or STOPPED at the home (14 R313). -/
def State.tagOpen (s : State) (w : Who) (pa : Nat) : Bool :=
  match w.vd with
  | none => true
  | some k => s.vdOpen (s.tagAt k pa)

/-! ### Older values that a task may still see (09 R211, R222) -/

/-- The aligned doublewords that n bytes touch. -/
def doublewords (pa n : Nat) : List Nat := (List.range ((pa % 8 + n + 7) / 8)).map fun i => pa / 8 * 8 + 8 * i

/-- Whether a view is a task's. -/
def OldView.of (v : OldView) (vdk die tid : Nat) : Bool := v.vdk = vdk && v.die = die && v.tid = tid

/-- Whether a task may go on seeing what a write of VD k to the window x replaces: it belongs to another VD with a part in it (09 R222). -/
def Task.shares (t : Task) (k : Nat) (x : Option Window) : Bool :=
  match x with | some w => t.vdKey != k && t.module == k / 256 && w.serves t.vd | none => false

/-- A write of some doublewords: the tasks of the writer's VD see it, and others may go on seeing what it replaces: those of other
VDs with a part in its window, until a WREL of the writer's task and a WACQ of their own (09 R222), and the LDA of those that spin,
whose loads after the WAITV may be performed before it (18 R438). What the device writes for no task is seen by all. -/
def State.rememberViews (s : State) (w : Who) (pa : Nat) (dws : List Nat) : State :=
  match w.vd with
  | none => s
  | some k =>
    let home := s.tagAt k pa
    let x := if isHostPa pa then none else s.windowAt (home / 256) pa
    let (die, tid) := w.task
    let seers := (s.tasks.map (·.2)).filter fun t => (t.lastPoll.isSome || t.shares home x) && !(t.vdKey = k && t.die = die && t.tid.toNat = tid)
    if tid = 0 then { s with views := s.views.filter fun v => !dws.contains v.dw }
    else if seers.isEmpty && s.views.isEmpty then s else
    let mine (v : OldView) : Bool := v.vdk = k && dws.contains v.dw && !(seers.any fun t => v.of t.vdKey t.die t.tid.toNat)
    { s with views := seers.foldl (fun l t => dws.foldl (fun l d =>
        let same (v : OldView) : Bool := v.of t.vdKey t.die t.tid.toNat && v.dw = d
        let olds := match l.find? same with | some v => v.olds | none => []
        { vdk := t.vdKey, die := t.die, tid := t.tid.toNat, dw := d
          olds := olds ++ [{ bytes := s.bytes d 8, vdk := k, die, tid, spin := !t.shares home x }] } ::
          l.filter fun v => !same v) l) (s.views.filter fun v => !mine v) }

/-- Whether an access is one of LDA itself. -/
def Who.ofLda (w : Who) : Bool := w.eng == Engine.lda.code && w.chan.isNone

/-- What an agent sees of one doubleword: a task one of the values it may still see, or the present one, and nothing older ever after
(09 R207, R222); an atomic and the device see the present one. Which one is no value the manual gives (log 65). -/
def State.viewWord (s : State) (w : Who) (k d : Nat) : Option (List Byte) × State :=
  let same (v : OldView) : Bool := v.of k w.task.1 w.task.2 && v.dw = d
  match s.views.find? same with
  | none => (none, s)
  | some v =>
    let (c, s) := s.draw
    let lo := if w.ofLda then 0 else v.olds.length - (v.olds.reverse.takeWhile fun o => !o.spin).length
    let i := match w.acc with | .atomic => v.olds.length | _ => lo + Config.seenOf c % (v.olds.length + 1 - lo)
    let rest := s.views.filter fun x => !same x
    ((v.olds[i]?).map (·.bytes), { s with views := if i < v.olds.length then { v with olds := v.olds.drop i } :: rest else rest })

/-- Bytes read by an agent where it may see older values. -/
def State.viewRead (s : State) (w : Who) (pa n : Nat) (bs : List Byte) : List Byte × State :=
  match w.vd with
  | none => (bs, s)
  | some k =>
    if s.views.isEmpty then (bs, s) else
    (doublewords pa n).foldl (fun r d =>
      if r.2.unreadable w.vd d then r else
      match r.2.viewWord w k d with
      | (some old, s) =>
        let lo := max d pa
        (patch r.1 (lo - pa) ((old.drop (lo - d)).take (min (d + 8) (pa + n) - lo)), s)
      | (none, s) => (r.1, s)) (bs, s)

/-- The views of a task cut off by a condition: it sees nothing that a store of that kind has replaced, and nothing older. -/
def State.cutViews (s : State) (t : Task) (inside : Nat → Bool) (p : OldValue → Bool) : State :=
  let cut (v : OldView) : OldView := { v with olds := (v.olds.reverse.takeWhile fun o => !p o).reverse }
  let mine (v : OldView) : Bool := v.of t.vdKey t.die t.tid.toNat && inside v.dw
  { s with views := (s.views.map fun v => if mine v then cut v else v).filter fun v => !v.olds.isEmpty }

/-- Whether an address lies in a window. -/
def Window.covers (x : Window) (pa : Nat) : Bool := x.pas.any fun q => q.1 ≤ pa && pa < q.1 + q.2.1

/-- A WREL of a task: its stores to the window are released to the tasks that its scope covers (09 R222, R225). -/
def State.releaseViews (s : State) (x : Window) (t : Task) (covers : OldView → Bool) : State :=
  let mine (o : OldValue) : Bool := o.vdk = t.vdKey && o.die = t.die && o.tid = t.tid.toNat
  { s with views := s.views.map fun v => if x.covers v.dw && covers v then
      { v with olds := v.olds.map fun o => if mine o then { o with released := true } else o } else v }

/-- A WACQ of a task: it sees every store to the window that has been released to it (09 R222). -/
def State.acquireWindow (s : State) (x : Window) (t : Task) : State := s.cutViews t x.covers (·.released)

/-- An acquire of a task: it sees every store that it could only have missed by spinning (09 R213, R214, 18 R438). -/
def State.acquireViews (s : State) (t : Task) : State := s.cutViews t (fun _ => true) (·.spin)

/-- What a new task may see: nothing older than memory, or what the task that creates it may (06 R130, 07 R166). -/
def State.newViews (s : State) (t : Task) (parent : Option Task) : State :=
  let others := s.views.filter fun v => !v.of t.vdKey t.die t.tid.toNat
  let mine := match parent with
    | none => []
    | some p => (s.views.filter fun v => v.of p.vdKey p.die p.tid.toNat).map fun v => { v with vdk := t.vdKey, die := t.die, tid := t.tid.toNat }
  { s with views := mine ++ others }

/-- A window that closes leaves nothing older to be seen. -/
def State.closeViews (s : State) (x : Window) : State :=
  { s with views := s.views.filter fun v => !x.covers v.dw }

/-- A write at its home that changes no doubleword but some (07 R162, 14 R311 to R313). -/
def State.homeFill (s : State) (w : Who) (i : Integ) (va pa : Nat) (bs : List Byte) (dws : List Nat) : State :=
  if !s.tagOpen w pa then s else
  let (s, n) := ((s.rememberViews w pa dws).damage pa i).applyWrite w true va pa bs
  s.records n

/-- A write at its home (07 R162, 14 R311 to R313). -/
def State.homeWrite (s : State) (w : Who) (i : Integ) (va pa : Nat) (bs : List Byte) : State :=
  s.homeFill w i va pa bs (doublewords pa bs.length)

/-- A write that no bell watches: the fill of a first-touch frame (07 R161). -/
def State.fillFrame (s : State) (w : Who) (pa : Nat) (bs : List Byte) : State :=
  if !s.tagOpen w pa then s else
  let (s, n) := s.applyWrite w false 0 pa bs
  s.records n

/-- A read at its home (14 R310 to R313): the bytes and the state with the records it gives rise to. Host memory is neither
encrypted nor checked. -/
def State.homeRead (s : State) (w : Who) (i : Integ) (va pa n : Nat) : List Byte × State :=
  if !s.tagOpen w pa then (List.replicate n 0#8, s)
  else if isHostPa pa then
    let s := match w.acc with | .atomic => s.finishAtomics pa n | _ => s
    (s.bytes pa n, s)
  else
    let s := s.damage pa i
    let (bs, t) := s.viewRead w pa n (s.fetch w.vd pa n)
    (bs, t.records (s.readNotes w va pa n))

/-- The records that the reads of a walk give rise to (14 R311). A table line has no VA of its own: the record's is 0, and not the one
that the walk translates (DESIGN CHOICE, log 74). -/
def State.walkRecords (s : State) (w : Who) (reads : List Read) : State :=
  s.records (reads.flatMap fun r =>
    if r.1 then
      (match w.vd, s.lineFault none r.2 with
       | some k, c => if s.poisoned r.2 then [(k, { w with acc := .walk }.record Cause.intTree 0)]
                      else c.toList.map fun c => (k, { w with acc := .walk }.record c 0)
       | none, _ => [])
    else s.readNotes { w with acc := .walk } 0 r.2 1)

end Sys2Proof.Machine
end

