-- ==== Sys2Proof/Machine/Ops.lean ====
section
/-!
DEFINITION. The operations that the meanings share: slots and the delay line (00 R5, 02 R32, R35, 06 R145 to R148), traps and
the return from them (12 R265 to R271), retirement, translation at issue (08 R198), and the frame every instruction runs in.
-/

namespace Sys2Proof.Machine

/-! ### Code pointers (03 R54, 04 R84) -/

/-- Whether a code pointer passes the checks of 03 R54. -/
def pointerOk (p : W64) : Bool := bits p 1 0 == 0 && bits p 5 2 != 0

/-- The line address of a code pointer. -/
def ptrLine (p : W64) : W64 := p &&& ~~~63#64

/-- The word index of a code pointer. -/
def ptrWord (p : W64) : Nat := bits p 5 2

/-- The code pointer of a word of a line. -/
def codePtr (line : W64) (word : Nat) : W64 := line ||| BitVec.ofNat 64 (word % 16 * 4)

/-- Fields of a link word (03 R52). -/
def linkEngine (l : Line) : Nat := bits l 31 30
def linkExposed (l : Line) : Bool := bit l 29
def linkStop (l : Line) : Bool := bit l 28
def linkCount (l : Line) : Nat := bits l 27 24
def linkDelta (l : Line) : Nat := bits l 23 0

/-- A line address moved by a signed number of lines (03 R55, R56). -/
def lineOffset (line : W64) (d : Int) : W64 := line + ofInt 64 (d * 64)

/-- The code pointer that follows a word: the next word, the successor line, or for the last word of a stop line the line
itself with word index 0 (04 R84). `next` is the index of the word after the instruction. -/
def returnPoint (l : Line) (line : W64) (next : Nat) : W64 :=
  if next ≤ linkCount l then codePtr line next
  else if linkStop l then line
  else codePtr (lineOffset line (sextNat (linkDelta l) 24)) 1

/-! ### On whose behalf memory is touched -/

/-- A task's engine. -/
def Task.who (t : Task) (en : Engine) (acc : AccKind) : Who :=
  { vd := some t.vdKey, die := t.die, tid := t.tid.toNat, eng := en.code, acc }

/-- On whose behalf a copy reads and writes. -/
def State.copyWho (s : State) (c : Copy) (acc : AccKind) : Who :=
  let t := s.task c.uid
  { vd := some c.vdk, die := t.die, tid := t.tid.toNat, eng := 1, acc,
    chan := some (c.ch, (t.chans.getD c.ch {}).seq.toNat) }

/-! ### How the present slot ends -/

def State.setStatus (s : State) (x : Status) : State := { s with cur := { s.cur with status := x } }

/-- The instruction issues, unless its own effect has already ended the slot in another way. -/
def State.issued (s : State) : State :=
  match s.cur.status with
  | .start => s.setStatus .issued
  | _ => s

/-- The instruction stalls: no slot (06 R146). `sync` marks the waits of 06 R152. -/
def State.stallNow (s : State) (sync : Bool) : State :=
  (s.setStatus (.stalled sync)).modEng fun e => { e with stall := some sync, began := e.began || sync, waits := true, offer := none }

/-- The next attempts of a task's sequencers start afresh. -/
def Task.wake (t : Task) : Task := t.mapEngs fun e => { e with stall := none }

/-! ### Landing (02 R32, R35, 05 R113, 06 R147) -/

/-- Flags ORed in at a landing, and a pending arithmetic trap (05 R113, 12 R272). -/
def Task.addFlags (t : Task) (f : Flags) : Task :=
  let hit := f &&& t.arEn
  let t := { t with arFlags := t.arFlags ||| f }
  if hit = 0#9 then t
  else if t.arPend then { t with arSet := t.arSet ||| hit }
  else { t with arPend := true, arSet := hit, arSlots := 0, arStop := false }

/-- The accumulator read of the rows that land at the coming slot (10 R232). It is made after every write of the slot before, a
SELK's or VQNT's among them (log 55). -/
def Task.readAccumulators (t : Task) : Task :=
  t.modEng .exe fun e => { e with pend := e.pend.map fun p =>
    match p.rem, p.mat, p.dest with
    | 0, some m, .vec f =>
      let (row, fl) := m.result (if m.plane then t.plane1 else t.plane0) f.idx.toNat (t.vec f)
      { p with data := row, flags := p.flags ||| fl, mat := none }
    | _, _, _ => p }

/-- One due result lands; none when its QS queue is full (02 R35). -/
def Task.landOne (t : Task) (en : Engine) (p : Pend) : Option Task :=
  match p.dest with
  | .vec f => some ((t.setVec f p.data).addFlags p.flags)
  | .reg r => some ((t.modEng en fun e => e.put r (p.data.setWidth 64)).addFlags p.flags)
  | .plane => some ({ t with activePlane := !t.activePlane, side := [] }.addFlags p.flags)
  | .qs i =>
    if (t.queue (.qs i)).length < queueSize then some ((t.push (.qs i) p.data).addFlags p.flags) else none

/-- The due results in landing order: by slot M, V0, V1, X (02 R32). Of one slot, and of a sequencer without slots, the result
of the earlier instruction lands first, so that the later one's stands (log 54). -/
def dueOrder (l : List Pend) : List Pend :=
  let at' (sl : Slot) := l.filter fun p => p.slot = sl
  at' .m ++ at' .v0 ++ at' .v1 ++ at' .x

/-- Due results land in order; those whose queue is full stay. -/
def Task.landList (t : Task) (en : Engine) : List Pend → Task × List Pend
  | [] => (t, [])
  | p :: ps =>
    match t.landOne en p with
    | some t' => t'.landList en ps
    | none => let (t', rest) := t.landList en ps; (t', p :: rest)

/-- The flags of a VQNT land at the slot after its own (18 R431). -/
def Task.landFlags (t : Task) (en : Engine) : Task :=
  if (t.eng en).flagsDue = 0#9 then t
  else (t.modEng en fun e => { e with flagsDue := 0#9 }).addFlags (t.eng en).flagsDue

/-- The due results of a sequencer land (06 R147, 02 R32). -/
def Task.land (t : Task) (en : Engine) : Task :=
  let t := (if en = .exe then t.readAccumulators else t).landFlags en
  let due := (t.eng en).pend.filter fun p => p.rem = 0
  if due.isEmpty then t else
  let t := t.modEng en fun e => { e with pend := e.pend.filter fun p => p.rem ≠ 0 }
  let (t, kept) := t.landList en (dueOrder due)
  (t.modEng en fun e => { e with pend := kept ++ e.pend }).wake

/-- Whether a due result still waits for its queue. -/
def Eng.blocked (e : Eng) : Bool := e.pend.any fun p => p.rem = 0

/-- A result of the issuing instruction that becomes available n slots after its own (00 R5). A write to g0 is
discarded. -/
def State.later (s : State) (n : Nat) (d : Dest) (data : Entry) (f : Flags := 0#9) : State :=
  if d = .reg 0#5 then s
  else s.modEng fun e => { e with pend := e.pend ++ [{ rem := n, slot := s.cur.slot, dest := d, data, flags := f }] }

/-- A scalar result, available n slots later. -/
def State.result (s : State) (n : Nat) (rd : GReg) (v : W64) : State := s.later n (.reg rd) (v.setWidth 4096)

/-- A register waits for an asynchronous result (06 R145). -/
def State.awaitReg (s : State) (rd : GReg) : State :=
  if rd = 0#5 then s else s.modEng fun e => { e with async := rd :: e.async }

/-- A result that lands by itself (06 R145). -/
def State.asyncResult (s : State) (rd : GReg) (v : W64) : State :=
  if rd = 0#5 then s else
  let (id, s) := s.newId
  let t := s.me
  let a : Access := { uid := s.cur.uid, eng := s.cur.eng, purpose := .result rd v, handler := t.trBusy, vdk := t.vdKey,
                      region := linkExposed s.cur.line, die := t.die, tid := t.tid.toNat, gang := t.gang.toNat }
  ({ s with accesses := s.accesses.set id a } : State).awaitReg rd

/-- An asynchronous result lands in a register. -/
def Eng.arrive (e : Eng) (rd : GReg) (v : W64) : Eng := { e.put rd v with async := e.async.erase rd }

/-- A write at the issue slot itself, made when the slot ends (10 R234). -/
def State.write (s : State) (w : IssueWrite) : State := { s with cur := { s.cur with writes := s.cur.writes ++ [w] } }

def Task.applyWrite (t : Task) : IssueWrite → Task
  | .vec f e => t.setVec f e
  | .clear z => { t with frame := t.frame.filter fun p => p.1 / 128 ≠ z.toNat }
  | .whole z rows => (rows.zipIdx).foldl (fun u p => u.setRow z p.2 p.1) t
  | .flags f => t.modEng .exe fun e => { e with flagsDue := e.flagsDue ||| f }

/-! ### Storage errors (12 R273) -/

/-- The damaged storage reads as 0 from then on. -/
def Task.clearDamaged (t : Task) (en : Engine) (what el : Nat) : Task :=
  match what with
  | 0 => t.modEng en fun e => { e with regs := NMap.erase e.regs el }
  | 1 => { t with queues := t.queues.upd (el / 16) fun l => updAt l (el % 16) fun q => { q with val := q.val.map fun _ => 0#4096 } }
  | 2 => { t with frame := NMap.erase t.frame el }
  | 3 => t.modEng .exe fun e => { e with pend := updAt e.pend el fun p => { p with data := 0#4096, mat := none } }
  | 4 => if el < 256 then { t with plane0 := { t.plane0 with latch := updAt t.plane0.latch el fun _ => 0#4096 } }
         else { t with plane1 := { t.plane1 with latch := updAt t.plane1.latch (el - 256) fun _ => 0#4096 } }
  | 5 => { t with wbuf := NMap.erase t.wbuf el }
  | _ => { t with tiles := t.tiles.upd (el / 4096) fun x => { x with data := NMap.erase x.data (el % 4096) } }

/-- The value MC_SRAM reports: the structure and the element. -/
def sramVal (what el : Nat) : W64 := BitVec.ofNat 64 (what % 256 + el % 2 ^ 24 * 256)

/-! ### Retirement (06 R134, 12 R266) -/

/-- The quad of a task owes a decision (12 R260). -/
def State.dueDecision (s : State) (die quad : Nat) : State :=
  s.modDie die fun d => if d.decide.contains quad then d else { d with decide := d.decide ++ [quad] }

/-- The park frames of a VD that a die has free, a frame given back, and the first of them taken (12 R264). -/
def Die.freeFrames (d : Die) (vdk : Nat) : List Nat := d.parkFree.getD vdk []
def Die.giveFrame (d : Die) (vdk pa : Nat) : Die := { d with parkFree := d.parkFree.set vdk (d.freeFrames vdk ++ [pa]) }
def Die.useFrame (d : Die) (vdk : Nat) : Die := { d with parkFree := d.parkFree.set vdk (d.freeFrames vdk).tail }

/-- A packet put into the fabric. -/
def State.inject (s : State) (p : Packet) : State :=
  let (k, s) := s.newId
  { s with packets := s.packets.set k p }

/-- A member's own reply on its way to the split record of its die that awaits it: a packet of kind 7 with port 7, the model's own. What
a task has brought from another module owes none. -/
def State.replyOwed (s : State) (die vdk : Nat) (o : Owed) (yes : Bool) : State :=
  if o.split = 0 then s else
  s.inject { kind := 7, vd := vdk % 256, at' := die, port := 7, links := [o.split]
             sum := if yes then { pos := 1 } else { negs := [(o.member, Cause.fbNack)] } }

/-- A landing buffer that is never replayed: nothing in it is performed, and its members reply negative (DESIGN CHOICE, log 32). -/
def State.loseLanding (s : State) (t : Task) : State :=
  t.landing.foldl (fun s l => match l with | .write _ _ _ _ o => s.replyOwed t.die t.vdKey o false | .entry .. => s) s

/-- A task leaves: its handles, queues, tokens, slot and number go (06 R134). -/
def State.retire (s : State) (uid : Nat) : State :=
  let t := s.task uid
  let s := s.loseLanding t
  let s := if t.inFrame then s.modDie t.die fun d => d.giveFrame t.vdKey t.frameAt else s
  let mine (a : Access) : Bool :=
    a.uid = uid && match a.purpose with | .contribute .. | .arm .. => false | _ => true
  ({ s with tasks := NMap.erase s.tasks uid, accesses := s.accesses.filter fun a => !mine a.2,
            walks := s.walks.filter (fun w => w.2.uid ≠ uid)
            tlbis := s.tlbis.filter fun b => b.2.who / 2 ≠ uid } : State).dueDecision t.die t.quad

/-- Whether every operation of the DRAIN classes of a mask has completed (06 R141). -/
def State.drained (s : State) (uid mask : Nat) : Bool :=
  !(s.accesses.any fun a => a.2.uid = uid && match a.2.drain with | some c => mask / 2 ^ c % 2 == 1 | none => false) &&
  (mask / 4 % 2 == 0 || !(s.copies.any fun c => c.2.uid = uid))

/-- Whether nothing of a task is outstanding that its retirement waits for (06 R134). -/
def State.quiet (s : State) (uid : Nat) : Bool := s.drained uid 15

/-- Retirement by fault (12 R266): the sequencers stop, the record is written, and the task goes when it is quiet. -/
def State.retireFault (s : State) (uid : Nat) (r : Rec) : State :=
  let t := s.task uid
  let s := s.record t.vdKey { r with tid := t.tid.toNat, die := t.die }
  let s := s.modTask uid fun t => { (t.mapEngs fun e => { e with run := .idle }) with dying := true, raised := [] }
  if s.quiet uid then s.retire uid else s

/-! ### Traps (12 R265 to R268, R271) -/

/-- The streams running, one bit for each engine (12 R267). -/
def Task.runBits (t : Task) : Nat :=
  engines.foldl (fun acc e => acc + (match (t.eng e).run with | .idle => 0 | _ => 2 ^ e.code)) 0

/-- Taking a trap (12 R265): engine, code, value, where that engine resumes, and the line it came from for the codes
that report it. A trap while one is handled is a double trap, a vector that fails 03 R54 leaves the trap unhandled
(12 R266). -/
def State.takeTrap (s : State) (uid : Nat) (en : Engine) (code : Nat) (val epc src : W64) : State :=
  let t := s.task uid
  if t.trBusy then
    s.retireFault uid { cause := Cause.doubleTrap, eng := en.code, dw3 := code + t.trCode.toNat * 2 ^ 16 }
  else if !pointerOk t.trVec then
    s.retireFault uid { cause := code, eng := en.code, unh := true, dw3 := val.toNat }
  else
    let bank (e : Engine) : Eng :=
      { run := if e = .ctl then .running else .idle, pc := if e = .ctl then t.trVec else 0#64, ord := (t.eng e).ord,
        stop := match (t.eng e).stop with | .none => .none | _ => if e = .ctl then .asked 0 else .stopped }
    -- A TLBI that the trapping CTL stands at has not issued, and begins anew if it is executed again (12 R265, 08 R195).
    ({ s with tlbis := s.tlbis.filter fun b => !(en == .ctl && b.2.who == uid * 2) } : State).setTask uid { t with
      held := some { ctl := { t.ctl with stop := .none }, lda := { t.lda with stop := .none },
                     exe := { t.exe with stop := .none }, sta := { t.sta with stop := .none } }
      lastPoll := none, arStop := false, trBusy := true, trCode := BitVec.ofNat 9 code, trEpc := epc, trVal := val, trFrom := src
      trEng := BitVec.ofNat 2 en.code, trRun := BitVec.ofNat 4 t.runBits, exeOwn := false
      ctl := bank .ctl, lda := bank .lda, exe := bank .exe, sta := bank .sta }

/-- The issuing instruction traps: nothing of it, or of its bundle, issues (04 R102, 12 R265). -/
def State.trapFrom (s : State) (code : Nat) (val src : W64) : State :=
  (s.takeTrap s.cur.uid s.cur.eng code val s.eng.pc src).setStatus .trapped

def State.trapNow (s : State) (code : Nat) (val : W64) : State := s.trapFrom code val 0#64

/-- The first word of the failing instruction and its word index, as most decode and operand traps report (12 R268). -/
def State.wordVal (s : State) : W64 :=
  BitVec.ofNat 64 (bits s.cur.line (32 * s.cur.word + 31) (32 * s.cur.word) + s.cur.word * 2 ^ 32)

/-- The return from a trap (12 R271): the held streams resume, the raising one at tr.epc with its line read again. One that was at its RDV
resumes there, if tr.epc still names it. -/
def Task.trapReturn (t : Task) : Task :=
  match t.held with
  | none => { t with trBusy := false }
  | some h =>
    let back (e now : Eng) : Eng :=
      { e with ord := now.ord, stall := none, stop := match t.ctl.stop, e.run with
          | .none, _ => .none | _, .idle => .stopped | _, _ => .asked 0 }
    let t := { t with ctl := back h.ctl t.ctl, lda := back h.lda t.lda, exe := back h.exe t.exe, sta := back h.sta t.sta,
                      held := none, trBusy := false }
    t.modEng (Engine.ofCode t.trEng.toNat) fun e =>
      { e with pc := t.trEpc, line := none, src := 0#64, entry := .fresh, began := false, waits := false, offer := none,
               run := match e.run with | .joining => if t.trEpc = e.pc then .joining else .running | r => r }

/-! ### Tokens (06 R136, R138, 09 R204) -/

/-- Two order contexts put together: later accesses follow what either names. -/
def OrdCtx.join (a b : OrdCtx) : OrdCtx :=
  let up (m n : NMap Nat) : NMap Nat := n.foldl (fun m p => m.set p.1 (max (m.getD p.1 0) p.2)) m
  { known := up a.known b.known, fenced := up a.fenced b.fenced, rels := (a.rels ++ b.rels).dedup,
    holds := (a.holds ++ b.holds).dedup }

/-- What a token carries of an order (log 34): what releases and FENCEX hold back, and nothing between accesses to one location. -/
def OrdCtx.ofToken (c : OrdCtx) : OrdCtx := { c with known := [], fenced := [] }

/-- n tokens added with the order they carry. -/
def Task.addTokens (t : Task) (k n : Nat) (c : OrdCtx) : Task :=
  if n = 0 then t else { t with tokens := t.tokens.set k (t.tokens.getD k [] ++ [(n, c)]) }

/-- n tokens taken, oldest first: what is left, and the order they carried. -/
def takeTokens : Nat → List (Nat × OrdCtx) → OrdCtx → List (Nat × OrdCtx) × OrdCtx
  | _, [], c => ([], c)
  | n, (m, x) :: l, c =>
    if n = 0 then ((m, x) :: l, c)
    else if n < m then ((m - n, x) :: l, c.join x)
    else takeTokens (n - m) l (c.join x)

/-! ### Translation at issue (08 R192, R198) -/

/-- A piece of an access inside one 64 KiB page: virtual address, physical address, length, offset in the access, kind, and the
first virtual address of the effective page (08 R191, R192). -/
structure Piece where
  va : Nat := 0
  pa : Nat := 0
  len : Nat := 0
  off : Nat := 0
  ord : PageOrd := .rc
  page : Nat := 0
  deriving DecidableEq, Repr, Inhabited

/-- An address translated by an entry. -/
def TlbEntry.piece (e : TlbEntry) (va : Nat) : Piece := { va, pa := e.phys va, ord := e.ord, page := e.va }

/-- The outcome of translating an access at issue. -/
inductive Trans | ok (ps : List Piece) (s : State) | miss (s : State) | fault (f : TrFault) (s : State)

/-- A walk starts for an address of a task's space, on its own die (08 R196). -/
def State.addWalk (s : State) (by' : WalkFor) (uid : Nat) (va : Nat) (acc : AccKind) : State :=
  let t := s.task uid
  let (id, s) := s.newId
  let w : Walk := { die := t.die, core := t.core.getD 0, by', uid, va, access := acc, num := (s.die t.die).shootNum,
                    vdk := t.vdKey, root := t.s1root.toNat, asid := t.asid.toNat }
  { s with walks := s.walks.set id w }

/-- Whether a shoot-down may matter to a walk that failed: any of its VD. -/
def Walk.touched (w : Walk) (h : Shoot) : Bool := h.vd == w.vdk

/-- A missing translation: the walk that is made for it in the task's present space (08 R184) goes on, one that failed gives the
failure unless a shoot-down has come since (08 R196, R198), and otherwise a walk starts. -/
def State.missing (s : State) (by' : WalkFor) (uid va : Nat) (acc : AccKind) : Except TrFault Unit × State :=
  let t := s.task uid
  match List.find? (fun w : Nat × Walk => w.2.by' = by' && w.2.va / 65536 = va / 65536 && w.2.root = t.s1root.toNat &&
      w.2.asid = t.asid.toNat) s.walks with
  | none => (.ok (), s.addWalk by' uid va acc)
  | some (id, w) =>
    match w.failed, w.result with
    | true, some (.failed f) =>
      if (s.die w.die).discards w.num w.touched then (.ok (), ({ s with walks := NMap.erase s.walks id } : State).addWalk by' uid va acc)
      else (.error { f with va, access := acc }, s)
    | _, _ => (.ok (), s)

/-- One address of a task translated through its core's TLBs (08 R182, R193, R198). -/
def State.translate1 (s : State) (by' : WalkFor) (uid va : Nat) (acc : AccKind) : Trans :=
  let t := s.task uid
  if 2 ^ 56 ≤ va then .fault ⟨Cause.trVaRange, va, 0, false, acc⟩ s else
  let (e, s) := s.lookup t.die (t.core.getD 0) t.vdKey t.asid.toNat va
  match e with
  | none =>
    (match s.missing by' uid va acc with
     | (.ok _, s) => .miss s
     | (.error f, s) => .fault f s)
  | some e =>
    match e.refuses t.priv.isS acc with
    | some c => .fault ⟨c, va, 0, false, acc⟩ s
    | none => .ok [e.piece va] s

/-- The pieces of n bytes at a virtual address: at most one page boundary in every 64 KiB (08 R192). -/
def pagePieces : Nat → Nat → Nat → Nat → List (Nat × Nat × Nat)
  | 0, _, _, _ => []
  | k + 1, va, n, off =>
    if n = 0 then [] else
    let m := min n (65536 - va % 65536)
    (va, m, off) :: pagePieces k ((va + m) % 2 ^ 64) (n - m) (off + m)

/-- The place of a cause in the order of 08 R201. -/
def TrFault.rank (f : TrFault) : Nat :=
  if f.cause = Cause.trVaRange then 0
  else if f.cause = Cause.prHostSo then 2
  else if f.cause = Cause.prUser then 3
  else if f.cause = Cause.prRead ∨ f.cause = Cause.prWrite ∨ f.cause = Cause.prExec then 4
  else 1

/-- The parts of an access translated so far (08 R192): their pieces, the failure to report, and whether one waits for its walk. -/
structure Parts where
  ps : List Piece := []
  fault : Option TrFault := none
  missed : Bool := false

/-- One more part fails: of several causes the first in the order of 08 R201 is reported, and of equal ones the lower part's. -/
def Parts.fail (r : Parts) (f : TrFault) : Parts :=
  { r with fault := match r.fault with | some g => some (if f.rank < g.rank then f else g) | none => some f }

/-- The failed walks of a requester, taken. -/
def State.takeFailed (s : State) (by' : WalkFor) : State :=
  { s with walks := s.walks.filter fun w => !(w.2.by' = by' && w.2.failed) }

/-- n bytes at a virtual address translated: every part must translate before anything issues (08 R198), and a failure is
reported once none of them waits for a walk (08 R201). -/
def State.translate (s : State) (by' : WalkFor) (uid va n : Nat) (acc : AccKind) : Trans :=
  let (r, s) := (pagePieces (n / 65536 + 2) (va % 2 ^ 64) n 0).foldl (fun (r : Parts × State) p =>
    match r.2.translate1 by' uid p.1 acc with
    | .ok l s => ({ r.1 with ps := r.1.ps ++ (l.take 1).map fun q => { q with len := p.2.1, off := p.2.2 } }, s)
    | .miss s => ({ r.1 with missed := true }, s)
    | .fault f s => (r.1.fail f, s)) (({} : Parts), s)
  if r.missed then .miss s
  else
    match r.fault with
    | some f => .fault f (s.takeFailed by')
    | none => .ok r.ps s

/-! ### Translation faults (08 R198, 12 R264) -/

/-- Whether a copy with a tile or weight-buffer endpoint of a task is outstanding (12 R264). -/
def State.tileCopies (s : State) (uid : Nat) : Bool :=
  s.copies.any fun c => c.2.uid = uid &&
    match c.2.src, c.2.dst with
    | .mem _, .mem _ => false
    | _, _ => true

/-- Whether a park frame of a task's VD is free on its die (12 R264). -/
def State.frameFree (s : State) (t : Task) : Bool := !((s.die t.die).freeFrames t.vdKey).isEmpty

/-- A context moves into a park frame. -/
def State.intoFrame (s : State) (uid : Nat) : State :=
  let t := s.task uid
  (s.modDie t.die fun d => d.useFrame t.vdKey).modTask uid
    fun u => { u with inFrame := true, frameAt := ((s.die t.die).freeFrames t.vdKey).headD 0, core := none, parkAfter := false
                      atActive := false }

/-- The task in the standby slot of a core (02 R49). -/
def State.standbyOf (s : State) (core : Nat) : Option Nat :=
  (List.find? (fun p : Nat × Task => p.2.core = some core &&
    ((p.2.place = .standby && !p.2.atActive) || (p.2.place = .held && !p.2.parkAfter))) s.tasks).map (·.1)

/-- The task in the active slot of a core: an active one, or one that was held there and still waits to be parked (12 R264). -/
def State.activeOf (s : State) (core : Nat) : Option Nat :=
  (List.find? (fun p : Nat × Task => p.2.core = some core &&
    (p.2.place = .active || (p.2.place = .standby && p.2.atActive) || (p.2.place = .held && p.2.parkAfter))) s.tasks).map (·.1)

/-- A TLBI that a task's CTL stands at has not issued: stopped there, it begins anew (06 R150, 08 R195, 12 R263). -/
def State.dropTlbis (s : State) (uid : Nat) : State := { s with tlbis := s.tlbis.filter fun b => b.2.who / 2 ≠ uid }

/-- A task stopped by a failed translation is held and saved full (08 R198): into a park frame at once, in its slot until
its copies are done, or in its core's standby slot while no frame is free (12 R264). Its quad decides again. -/
def State.holdFault (s : State) (uid : Nat) (f : TrFault) : State :=
  let t := s.task uid
  let plain := t.mapEngs fun e => { e with stall := none, stop := .none }
  let s := (s.dropTlbis uid).setTask uid
    { plain with place := .held, fault := some f, retryDue := false, parkAfter := false, lastPoll := none, yielded := false, starving := false }
  let s := s.dueDecision t.die t.quad
  if s.frameFree t then
    if s.tileCopies uid then s.modTask uid fun t => { t with parkAfter := true } else s.intoFrame uid
  else
    match t.core, t.core.bind fun c => (List.find? (fun p : Nat × Task => p.2.core = some c && p.2.place = .standby) s.tasks).map (·.1) with
    | some c, some other =>
      let tasks := s.tasks.map fun p => (p.1, if p.2.dest = some c then { p.2 with dest := none } else p.2)
      (({ s with tasks } : State).modTask other fun t => { t with parkAfter := false, dest := none }).modCore c fun x =>
        { x with plan := some ⟨none, some other, false⟩ }
    | some c, none => s.modCore c fun x => { x with plan := x.plan.map fun p => ⟨none, p.inn, true⟩ }
    | none, _ => s

/-- The record of a translation failure of a task (08 R198, 12 R274). -/
def State.faultOf (s : State) (uid : Nat) (en : Engine) (f : TrFault) : State :=
  let t := s.task uid
  let s := s.modTask uid fun t => { t with faultWritten := some f.cause, faultEng := en.code }
  s.faultRecord t.vdKey { tid := t.tid.toNat, die := t.die, eng := en.code } f

/-- A memory instruction, or a line's fetch, whose translation fails: it does not issue (08 R198). -/
def State.faultNow (s : State) (uid : Nat) (en : Engine) (f : TrFault) : State :=
  ((s.holdFault uid f).faultOf uid en f).setStatus .gone

/-- An access is over: it goes, and the task's waiting streams look again. -/
def State.dropAccess (s : State) (id : Nat) : State :=
  match NMap.find? s.accesses id with
  | none => s
  | some a =>
    let s := { s with accesses := NMap.erase s.accesses id }
    if (NMap.find? s.tasks a.uid).isSome then s.modTask a.uid Task.wake else s

/-! ### The frame of every instruction -/

/-- What an instruction's own checks answer. -/
inductive Chk
  | ok
  | latch
  | stall (sync : Bool)
  | trap (code : Nat) (val : W64)
  | fault (f : TrFault)
  deriving DecidableEq, Repr

/-- The value an operand trap reports (12 R268). -/
def State.operandVal (s : State) (i : Instr) (code : Nat) : W64 :=
  if code = Cause.qRole then
    (match i with
     | .sigtImm k _ | .sigtReg k _ | .waittImm k _ | .waittReg k _ => k.setWidth 64
     | _ => 0#64)
  else s.wordVal

/-- The level check of an instruction (04 R97, 12 R275): `tr.val` 0. -/
def State.needS (s : State) (k : Chk) : Chk := if s.me.priv.isS then k else .trap Cause.priv 0#64

def State.needF (s : State) (k : Chk) : Chk := if s.me.priv.isF then k else .trap Cause.priv 0#64

/-- Whether an access has still something to perform, or a value to get (09 R214, R215): an MST until its ack has been stored, a
BELLSET until its arming point, any other while a part of it is left. An MST whose lines lie in landing buffers counts as complete for its
writer, but for its record (09 R220, 13 R291). -/
def Access.pending (a : Access) : Bool :=
  match a.purpose with
  | .pref _ | .result _ _ | .reply _ => false
  | .arm .. => true
  | .mst .. => !a.landed || a.parts.any (·.stat != .done)
  | _ => a.parts.any (·.stat != .done)

/-- Whether one of the listed accesses is still to be performed, or one of the listed copies to complete. -/
def State.anyLive (s : State) (ids : List Nat) : Bool :=
  ids.any fun a => (match NMap.find? s.accesses a with | some x => x.pending | none => false) || (NMap.find? s.copies a).isSome

/-- A load or store held by a FENCEX (09 R215), or by an implied fence of an earlier instruction (09 R213). -/
def State.heldBack (s : State) (cls : Option PathClass) : Bool :=
  s.anyLive s.eng.hold || s.eng.ord.holds.any fun h => some h.1 = cls && s.anyLive h.2

/-- The frame of every instruction. The checks of 04 R101 come first; then due results land; then, in this order, the
instruction waits for a queue (02 R35), takes an empty slot in an interlocked region while an operand has a pending
result (03 R60), waits for asynchronous results (06 R145) and for implied fences (09 R213), makes its own checks, and
issues with its effect. In a bundle whose members have all passed, only the effect remains. -/
def issueFrame (i : Instr) (cls : Option PathClass) (chk : State → Chk) (eff : State → State) (s : State) : State :=
  match i.operandTrap s.cur.eng with
  | some c => s.trapNow c (s.operandVal i c)
  | none =>
    if s.cur.commit then (eff s).issued
    else
      let s := s.modMe fun t => t.land s.cur.eng
      if s.eng.blocked then s.stallNow true
      else if !linkExposed s.cur.line && clashes s.eng i then s.setStatus .empty
      else if awaits s.eng i || s.heldBack cls then s.stallNow false
      else
        match chk s with
        | .ok => (eff s).issued
        | .stall b => s.stallNow b
        | .latch => (s.stallNow false).setStatus .latching
        | .trap c v => s.trapNow c v
        | .fault f => s.faultNow s.cur.uid s.cur.eng f

/-- `issueFrame` as the outcome of `exec`. -/
def issue (i : Instr) (chk : State → Chk) (eff : State → State) (s : State) : Result State :=
  .next (issueFrame i none chk eff s)

/-- The same for an instruction of a path class (09 R203). -/
def issueClass (i : Instr) (cls : PathClass) (chk : State → Chk) (eff : State → State) (s : State) : Result State :=
  .next (issueFrame i (some cls) chk eff s)

/-- No further check. -/
def noCheck (_ : State) : Chk := .ok

/-- An effect on the pieces of n bytes at a virtual address of the issuing task: while a walk is needed the instruction
stalls, and a failed translation stops the task (08 R198). -/
def State.withPieces (s : State) (va n : Nat) (acc : AccKind) (k : List Piece → State → State) : State :=
  match s.translate (.task s.cur.uid s.cur.eng) s.cur.uid va n acc with
  | .ok ps s => k ps s
  | .miss s => s.stallNow false
  | .fault f s => s.faultNow s.cur.uid s.cur.eng f

/-- Whether the core of a task is frozen (12 R273). -/
def State.frozen (s : State) (uid : Nat) : Bool := match (s.task uid).core with | some c => (s.core c).freeze | none => false

/-! ### The end of a slot -/

/-- The delay line of a sequencer advances by one slot (00 R5). -/
def Eng.advance (e : Eng) : Eng := { e with pend := e.pend.map fun p => { p with rem := p.rem - 1 } }

/-- Whether a WLD waits for a pending result (10 R229): a plane switch, or a row of an MMA issued against the idle plane. -/
def Pend.latchWaits (active : Bool) (p : Pend) : Bool :=
  p.dest == .plane || (match p.mat with | some m => m.plane != active | none => false)

/-- In the stall of a WLD, the results that it waits for come one place nearer; every other one keeps its slots (00 R5, log 19). -/
def Task.deliverForLatch (t : Task) : Task :=
  t.modEng .exe fun e =>
    { e with pend := e.pend.map fun p => if p.latchWaits t.activePlane then { p with rem := p.rem - 1 } else p }

/-- What every slot of a sequencer does when it ends: writes at issue, one step of the delay line, the counts of slots that
a stop (12 R263) and a pending arithmetic trap (12 R272) go by. Slots of EXE in a handler's stream count towards a trap that was pending
when the handler was entered, of which the manual says nothing (DESIGN CHOICE, log 72). -/
def Task.endSlot (t : Task) (en : Engine) (ws : List IssueWrite) : Task :=
  let t := ws.foldl Task.applyWrite t
  let t := if en = .exe ∧ t.arPend then { t with arSlots := t.arSlots + 1 } else t
  (t.modEng en fun e =>
    { e.advance with began := false, waits := false, offer := none, stop := match e.stop with | .asked n => .asked (n + 1) | x => x }).wake

/-- A sequencer moves on after an instruction or bundle has issued: to the target of a taken transfer, which ends a guard
span (04 R95), else to the word that follows (03 R55). -/
def Eng.moveOn (e : Eng) (c : Cur) : Eng :=
  let here := ptrLine e.pc
  let e := { e with region := some (linkExposed c.line) }
  match c.target with
  | some t => { e with pc := codePtr t.line t.word, line := none, src := here, entry := t.kind, guardLeft := 0 }
  | none =>
    let e := { e with pc := returnPoint c.line here c.next }
    if c.next ≤ linkCount c.line ∨ linkStop c.line then e else { e with line := none, src := here, entry := .succession }

/-- The end of an issue slot (00 R5, 10 R234). A stream at its RDV stays there (06 R133). -/
def State.endIssue (s : State) : State :=
  s.modMe fun t => (t.endSlot s.cur.eng s.cur.writes).modEng s.cur.eng fun e =>
    match e.run with | .joining => e | _ => e.moveOn s.cur

/-- The end of the present attempt: an issue slot, an empty slot, or none. In a WLD's stall only what it waits for moves on,
without a slot being counted (log 19). -/
def State.finish (s : State) : State :=
  let s := match s.cur.status with
    | .issued => s.endIssue
    | .empty => s.modMe fun t => t.endSlot s.cur.eng []
    | .latching => s.modMe Task.deliverForLatch
    | _ => s
  { s with cur := {} }

end Sys2Proof.Machine
end

