-- ==== Sys2Proof/Machine/Control.lean ====
section
/-!
DEFINITION. Guards and transfers (04 R94, R95, 16 R356 to R359, R368, R369, R376, 17 R391).
-/

namespace Sys2Proof.Machine

/-! ### GRD -/

/-- The major opcode of a word of a line. -/
def majorAt (l : Line) (w : Nat) : Nat := bits l (32 * w + 30) (32 * w + 24)

/-- The instructions a span covers, from a word on: a cause if it passes the last word of the line (03 R57) or covers GRD, RDV
or TRET (04 R95). Reaching past the line is found first. -/
def spanTrap (l : Line) : Nat → Nat → Bool → Option Nat
  | 0, _, bad => if bad then some Cause.unguardable else none
  | n + 1, w, bad =>
    let m := majorAt l w
    let k := if twoWord m then 2 else 1
    if linkCount l < w + k - 1 then some Cause.guardSpan
    else spanTrap l n (w + k) (bad || m == 0x02 || m == 0x21 || m == 0x2E)

/-- The checks of a GRD against its line (04 R101, step 10): word is its own index. -/
def grdTrap (l : Line) (word : Nat) (span : BitVec 2) : Option Nat := spanTrap l (span.toNat + 1) (word + 1) false

/-- The value a GRD resolves: whether the guarded instructions take effect (04 R94). -/
def grdValue (v : W64) (b : BitVec 6) (sense : Bool) : Bool := bit v b.toNat != sense

/-- GRD (04 R94, R95, 16 R368). -/
def execGrd (r : GReg) (b : BitVec 6) (sense : Bool) (span : BitVec 2) (s : State) : Result State :=
  issue (.grd r b sense span)
    (fun s => match grdTrap s.cur.line s.cur.word span with | some c => .trap c s.wordVal | none => .ok)
    (fun s => s.modEng fun e => { e with guardLeft := span.toNat + 1, guardVal := grdValue (s.reg r) b sense }) s

/-! ### Transfers -/

/-- The target a delta form names (16 R356). -/
def deltaTarget (s : State) (d : Int) (word : BitVec 4) : Target :=
  { line := lineOffset (ptrLine s.eng.pc) d, word := word.toNat, kind := .delta }

/-- A delta form with word 0 traps whatever its guard (16 R357). -/
def targetCheck (s : State) (d : Int) (word : BitVec 4) : Chk :=
  if word = 0#4 then .trap Cause.targetWord (codePtr (deltaTarget s d word).line 0) else .ok

/-- The delta-form check of an instruction that has one (16 R357). -/
def formCheck (i : Instr) (s : State) : Chk :=
  match i with
  | .br d w => targetCheck s d.toInt w
  | .call d w => targetCheck s d.toInt w
  | .loop _ d w => targetCheck s d.toInt w
  | _ => .ok

/-- Control passes to a target when the slot ends (03 R56). -/
def State.transfer (s : State) (t : Target) : State := { s with cur := { s.cur with target := some t } }

/-- BR (16 R356). -/
def execBr (d : BitVec 20) (word : BitVec 4) (s : State) : Result State :=
  issue (.br d word) (formCheck (.br d word)) (fun s => s.transfer (deltaTarget s d.toInt word)) s

/-- CALL (16 R359): g31 receives the return point. -/
def execCall (d : BitVec 20) (word : BitVec 4) (s : State) : Result State :=
  issue (.call d word) (formCheck (.call d word)) (fun s =>
    (s.result 1 31#5 (returnPoint s.cur.line (ptrLine s.eng.pc) s.cur.next)).transfer (deltaTarget s d.toInt word)) s

/-- The check of a code pointer at a transfer (03 R54, 16 R357). -/
def pointerCheck (r : GReg) (s : State) : Chk := if pointerOk (s.reg r) then .ok else .trap Cause.targetPointer (s.reg r)

/-- A transfer to the code pointer in a register. -/
def jumpTo (r : GReg) (s : State) : State :=
  s.transfer { line := ptrLine (s.reg r), word := ptrWord (s.reg r), kind := .pointer }

/-- JR (16 R369). -/
def execJr (r : GReg) (s : State) : Result State := issue (.jr r) (pointerCheck r) (jumpTo r) s

/-- RET (17 R391). -/
def execRet (s : State) : Result State := issue .ret (pointerCheck 31#5) (jumpTo 31#5) s

/-- LOOP (16 R376). -/
def execLoop (r : GReg) (d : BitVec 15) (word : BitVec 4) (s : State) : Result State :=
  issue (.loop r d word) (formCheck (.loop r d word)) (fun s =>
    let n := s.reg r
    if n = 0#64 then s
    else
      let s := s.result 1 r (n - 1#64)
      if n = 1#64 then s else s.transfer (deltaTarget s d.toInt word)) s

end Sys2Proof.Machine
end

