-- ==== Sys2Proof/Machine/Birth.lean ====
section
/-!
DEFINITION. The gang table (12 R256), placement (12 R253, R254), and the creation of tasks (06 R128, R129).
-/

namespace Sys2Proof.Machine

/-! ### The gang table (12 R256) -/

/-- An entry of the gang table, as the drover reads it: absent, unreadable and ill-formed entries read as zeros. -/
structure GangEntry where
  cquad : Nat := 0
  cdie : Nat := 0
  cpkg : Nat := 0
  cpod : Nat := 0
  spin : Nat := 0
  land : Nat := 0
  deriving DecidableEq, Repr

/-- The fields of the 16 bytes of an entry. -/
def gangFields (bs : List Byte) : GangEntry :=
  let a := dword bs 0
  let b := dword bs 1
  if a / 2 ^ 48 ≠ 0 ∨ b / 2 ^ 48 ≠ 0 then {}
  else { cquad := a % 2 ^ 16, cdie := a / 2 ^ 16 % 2 ^ 16, cpkg := a / 2 ^ 32 % 2 ^ 16, cpod := b % 2 ^ 32,
         spin := b / 2 ^ 32 % 2 ^ 8, land := b / 2 ^ 40 % 2 ^ 8 }

/-- The IPA of a gang's entry. -/
def State.gangIpa (s : State) (vdk gang : Nat) : Nat := (s.vd vdk).field 0x90 8 % 2 ^ 52 + 16 * gang

/-- Whether no route leads from a die to a gang's entry: what needs it waits (01 R16, R17, 13 R278). -/
def State.gangAway (s : State) (vdk die gang : Nat) : Bool := gang ≠ 0 && !s.pageRouted die vdk (s.gangIpa vdk gang)

/-- The gang table's entry of a gang (12 R256). -/
def State.gangEntry (s : State) (vdk gang : Nat) : GangEntry :=
  if gang = 0 then {} else
  match s.devicePa vdk (s.gangIpa vdk gang) false with
  | .error _ => {}
  | .ok pa => if s.vdOpen vdk then gangFields (s.fetch (some vdk) pa 16) else {}

/-- The records that a read of an entry on a die gives rise to (12 R256). -/
def State.gangRecords (s : State) (vdk die gang : Nat) : State :=
  if gang = 0 then s else
  let ipa := s.gangIpa vdk gang
  match s.devicePa vdk ipa false with
  | .error f => s.faultRecord vdk { die } f
  | .ok pa => (s.crossTo die pa).records (s.readNotes { vd := some vdk, die, acc := .read } 0 pa 16)

/-- The records that reading the entries of some gangs gives rise to, each read once (12 R256). -/
def State.gangsRead (s : State) (die : Nat) (l : List (Nat × Nat)) : State :=
  l.dedup.foldl (fun s g => s.gangRecords g.1 die g.2) s

/-- The spin limit of a gang (12 R256, R259). -/
def GangEntry.spinLimit (g : GangEntry) : Nat := if g.spin = 0 then 32 else g.spin

/-- The member count of a scope (06 R143). -/
def GangEntry.barCount (g : GangEntry) : Scope → Nat
  | .quad => g.cquad | .die => g.cdie | .pkg => g.cpkg | .pod => g.cpod | _ => 0

/-! ### Placement (12 R253, R254) -/

/-- The quad of a core of a die. -/
def quadOf (core : Nat) : Nat := core % coresPerDie / 4

/-- The cores of a quad of a die, ascending. -/
def quadCores (die quad : Nat) : List Nat := (List.range 4).map fun i => die * coresPerDie + quad * 4 + i

/-- The word of a VD's configuration that belongs to a die: its partition mask and quotas (14 R304). -/
def State.dieWord (s : State) (vdk die : Nat) : Nat := (s.vd vdk).field (0x10 + 8 * s.dieInModule die) 8

/-- The quads of a VD's partition on a die (12 R254). -/
def State.partition (s : State) (vdk die : Nat) : List Nat :=
  (List.range quadsPerDie).filter fun q => s.dieWord vdk die / 2 ^ q % 2 == 1

def State.bellQuota (s : State) (vdk die : Nat) : Nat := s.dieWord vdk die / 2 ^ 36 % 2 ^ 12

def State.taskQuota (s : State) (vdk die : Nat) : Nat := s.dieWord vdk die / 2 ^ 48 % 2 ^ 16

/-- Live tasks of a die that satisfy a condition. -/
def State.countTasks (s : State) (die : Nat) (p : Task → Bool) : Nat :=
  (s.tasks.filter fun t => t.2.die = die && p t.2).length

/-- The quad of a partition with the fewest live tasks; ties go to the lower number (12 R254). -/
def State.homeQuad (s : State) (vdk die : Nat) : Option Nat :=
  (s.partition vdk die).foldl (fun best q =>
    let n := s.countTasks die fun t => t.quad = q
    match best with
    | some (b, m) => if n < m then some (q, n) else some (b, m)
    | none => some (q, n)) (none : Option (Nat × Nat)) |>.map (·.1)

/-- Whether the standby slot of a core is empty and no switch or restore is about to fill it. -/
def State.standbyFree (s : State) (core : Nat) : Bool :=
  (s.standbyOf core).isNone && (s.core core).plan.isNone && !(s.tasks.any fun t => t.2.dest = some core)

/-- A core of a quad whose standby slot is free; the lowest. -/
def State.freeSlot (s : State) (die quad : Nat) : Option Nat := (quadCores die quad).find? s.standbyFree

/-- Whether the VD's task quota of a die allows one more task (12 R254). -/
def State.quotaOk (s : State) (vdk die : Nat) : Bool :=
  s.countTasks die (fun t => t.vdKey = vdk) < s.taskQuota vdk die

/-! ### Creation -/

/-- A task number that no live task of the die holds: any one, at the device's choice (06 R127, log 14). -/
def State.freshTid (s : State) (die : Nat) : BitVec 32 × State :=
  let taken (n : BitVec 32) : Bool := s.tasks.any fun t => t.2.die = die && t.2.tid = n
  let (k, s) := s.draw
  let want := Config.tid k
  if want ≠ 0#32 ∧ !taken want then (want, s)
  else
    (BitVec.ofNat 32 ((leastFrom 1 (fun n => !taken (BitVec.ofNat 32 n)) (s.tasks.length + 2)).getD 1), s)

/-- The converters loaded from rng.key (05 R116). -/
def Task.loadConverters (t : Task) : Task :=
  { t with conv0 := convLoad (bits t.rngKey 31 0), conv1 := convLoad (bits t.rngKey 63 32) }

/-- A base priority under its VD's ceiling (12 R254). -/
def State.ceiling (s : State) (vdk : Nat) (p : BitVec 6) : BitVec 6 :=
  let c := (s.vd vdk).field 0x50 1 % 64
  if c < p.toNat then BitVec.ofNat 6 c else p

/-- A task as it is created (06 R129), before its presets. -/
def newTask (module die vd : Nat) (entry : W64) (quad now : Nat) : Task :=
  { module, die, vd, quad, readySince := now, ctl := { run := .running, pc := entry } }

/-- A task put where 12 R253 says: into a free standby slot of its home quad, else into a park frame; none if there is
neither. The quad decides. Answers the task's number in the model. -/
def State.enrol (s : State) (t : Task) : Option (Nat × State) :=
  let uid := s.nextUid
  let put (t : Task) (s : State) : Nat × State :=
    (uid, (({ s with tasks := s.tasks.set uid t, nextUid := uid + 1 } : State).newViews t none).dueDecision t.die t.quad)
  match s.freeSlot t.die t.quad with
  | some c => some (put { t with place := .standby, core := some c } s)
  | none =>
    if s.frameFree t then
      some (put { t with place := .parked, inFrame := true, frameAt := ((s.die t.die).freeFrames t.vdKey).headD 0 }
        (s.modDie t.die fun d => d.useFrame t.vdKey))
    else none

end Sys2Proof.Machine
end

