-- ==== Sys2Proof/Machine/Functions.lean ====
section
/-!
DEFINITION. e^x, ln x, √x, 1/√x and tanh x as exact values or as values so close that no rounding of the manual can
tell the difference (18 R418; log 10), and their special values (18 R419).

An irrational result is given as the middle of an interval of relative width below 2^-400. UNVERIFIED (log 10): that no
rounding boundary of f32, bf16 or f16 falls inside such an interval. Unsafe where one did.
-/

namespace Sys2Proof.Machine

/-- Fraction bits of the fixed-point computations. -/
def fxBits : Nat := 960

/-- The sum of the exponential series for y/2^fxBits from the given term on. -/
def expSeries (y : Nat) : Nat → Nat → Nat → Nat → Nat
  | 0, _, _, acc => acc
  | fuel + 1, k, term, acc =>
    let t := term * y / 2 ^ fxBits / k
    expSeries y fuel (k + 1) t (acc + t)

/-- Repeated squaring of a fixed-point value. -/
def squares : Nat → Nat → Nat
  | 0, x => x
  | n + 1, x => squares n (x * x / 2 ^ fxBits)

/-- e^(n/d) for 0 ≤ n/d ≤ 2^11, scaled by 2^fxBits. -/
def expFixed (n d : Nat) : Nat :=
  let y := n * 2 ^ fxBits / (d * 2 ^ 23)
  squares 23 (expSeries y 120 1 (2 ^ fxBits) (2 ^ fxBits))

/-- The value in the middle of [v, v+1] scaled by 2^fxBits. -/
def middle (neg : Bool) (v : Nat) : Num := .fin neg (2 * v + 1) (2 ^ (fxBits + 1))

/-- e^x of a finite x; exact at 0. Beyond 2^11 in magnitude any value past every format's range serves. -/
def expNum (neg : Bool) (n d : Nat) : Num :=
  if n = 0 then .fin false 1 1 else
  if d * 2 ^ 11 < n then (if neg then .fin false 1 (2 ^ 2000 + 1) else .fin false (2 ^ 2000 + 1) 1) else
  match neg, middle false (expFixed n d) with
  | false, x => x
  | true, .fin _ a b => .fin false b a
  | true, x => x

/-- The odd-power series of atanh for t/2^fxBits: the sum of t^(2i+1)/(2i+1) from the given power on. -/
def atanhSeries (t2 : Nat) : Nat → Nat → Nat → Nat → Nat
  | 0, _, _, acc => acc
  | fuel + 1, k, pw, acc => atanhSeries t2 fuel (k + 2) (pw * t2 / 2 ^ fxBits) (acc + pw / k)

/-- 2·atanh(a/b) scaled by 2^fxBits. -/
def twoAtanh (a b : Nat) : Nat :=
  let t := a * 2 ^ fxBits / b
  2 * atanhSeries (t * t / 2 ^ fxBits) 330 1 t 0

/-- ln x of a positive finite x; exact at 1. -/
def lnNum (n d : Nat) : Num :=
  if n = d then .fin false 0 1 else
  let e := log2Quot n d
  let n' := if 0 ≤ e then n else n * 2 ^ (-e).toNat
  let d' := if 0 ≤ e then d * 2 ^ e.toNat else d
  let v : Int := (twoAtanh (n' - d') (n' + d') : Int) + e * (twoAtanh 1 3 : Nat)
  middle (v < 0) v.natAbs

/-- tanh of a positive finite x. -/
def tanhNum (n d : Nat) : Num :=
  if d * 2 ^ 9 < n then .fin false (2 ^ 1400 - 1) (2 ^ 1400) else
  let e2 := expFixed (2 * n) d
  .fin false (2 * (e2 - 2 ^ fxBits) + 1) (2 * (e2 + 2 ^ fxBits))

/-- ⌊√v⌋, bit by bit. -/
def isqrt (v : Nat) : Nat :=
  (List.range (Nat.log2 v / 2 + 1)).foldr
    (fun i r => if (r + 2 ^ i) * (r + 2 ^ i) ≤ v then r + 2 ^ i else r) 0

/-- √(n/d): exact when n·d is a perfect square at the working precision, else the middle of a tight interval. -/
def sqrtNum (n d : Nat) : Num :=
  let v := n * d * 4 ^ 100
  let s := isqrt v
  if s * s = v then .fin false s (d * 2 ^ 100) else .fin false (2 * s + 1) (2 * d * 2 ^ 100)

/-- VEXP (18 R418, R419). -/
def funExp : Num → Num × Flags
  | .nan => (.nan, 0)
  | .inf s => (if s then .fin false 0 1 else .inf false, 0)
  | .fin s n d => (expNum s n d, 0)

/-- VLOG (18 R418, R419). -/
def funLog : Num → Num × Flags
  | .nan => (.nan, 0)
  | .inf s => if s then (.nan, flNV) else (.inf false, 0)
  | .fin s n d => if n = 0 then (.inf true, flDZ) else if s then (.nan, flNV) else (lnNum n d, 0)

/-- VRCP (18 R418, R419). -/
def funRcp : Num → Num × Flags
  | .nan => (.nan, 0)
  | .inf s => (.fin s 0 1, 0)
  | .fin s n d => if n = 0 then (.inf s, flDZ) else (.fin s d n, 0)

/-- VRSQ (18 R418, R419). -/
def funRsq : Num → Num × Flags
  | .nan => (.nan, 0)
  | .inf s => if s then (.nan, flNV) else (.fin false 0 1, 0)
  | .fin s n d => if n = 0 then (.inf s, flDZ) else if s then (.nan, flNV) else (sqrtNum d n, 0)

/-- VSQRT (18 R418, R419). -/
def funSqrt : Num → Num × Flags
  | .nan => (.nan, 0)
  | .inf s => if s then (.nan, flNV) else (.inf false, 0)
  | .fin s n d => if n = 0 then (.fin s 0 1, 0) else if s then (.nan, flNV) else (sqrtNum n d, 0)

/-- VTANH (18 R418, R419). -/
def funTanh : Num → Num × Flags
  | .nan => (.nan, 0)
  | .inf s => (.fin s 1 1, 0)
  | .fin s n d =>
    if n = 0 then (.fin s 0 1, 0) else
    (match tanhNum n d with
     | .fin _ a b => .fin s a b
     | x => x, 0)

/-! ### SMPL (05 R121) -/

/-- The Gumbel noise of one word: fl32(-fl32(ln(fl32(-fl32(ln u))))), u = ((w >> 8) + 0.5) · 2^-24. -/
def gumbel (w : Nat) : W32 :=
  let u : Num := .fin false (2 * (w / 2 ^ 8) + 1) (2 ^ 25)
  let a := (fl32 (funLog u).1).1
  let b := (fl32 (funLog (f32val (fneg32 a))).1).1
  fneg32 b

/-- Of the better of the indices so far and j: the larger score wins, ties go to the lower index, a NaN ranks lowest. -/
def betterScore (best : Option (Nat × Num)) (j : Nat) (x : Num) : Option (Nat × Num) :=
  match best with
  | none => some (j, x)
  | some (i, y) => if (y.isNan && !x.isNan) || Num.lt y x then some (j, x) else some (i, y)

/-- The index smpl(l, T) returns, with NV when T is NaN. -/
def smplIndex (key : W64) (ctr : BitVec 128) (l : Entry) (t : W32) : Nat × Flags :=
  let tv := f32val t
  let greedy := tv.isNan || !Num.lt (.fin false 0 1) tv
  let r := (fl32 (funRcp tv).1).1
  let score (j : Nat) : Num :=
    if greedy then f32val (lane l j)
    else
      let p := (fl32 (Num.mul (f32val (lane l j)) (f32val r)).1).1
      f32val (fadd32 p (gumbel (philoxLane key ctr j))).1
  let best := (List.range 128).foldl (fun b j => betterScore b j (score j)) none
  ((match best with | some (i, _) => i | none => 0), flagIf tv.isNan flNV)

end Sys2Proof.Machine
end

