-- ==== Sys2Proof/Machine/Operands.lean ====
section
/-!
DEFINITION. The operand forms: packed values of an entry (02 R39), vector sources with queue pops and scalar broadcasts
(02 R34, 04 R74, R75), vector destinations (02 R35), and effective addresses (04 R83).
-/

namespace Sys2Proof.Machine

/-! ### Packed values (02 R39) -/

/-- Value e of width w of an entry. -/
def elemAt (w : Nat) (x : Entry) (e : Nat) : Nat := x.toNat / 2 ^ (w * e) % 2 ^ w

/-- The entry whose first n values of width w are f. -/
def ofElems (w n : Nat) (f : Nat → Nat) : Entry :=
  BitVec.ofNat 4096 ((List.range n).foldr (fun e acc => f e % 2 ^ w + acc * 2 ^ w) 0)

/-- Values of width w in an entry. -/
def elemCount (w : Nat) : Nat := 4096 / w

/-- The lane and packed position of value e (02 R39, 05 R117). -/
def elemPlace (w e : Nat) : Nat × Nat := (w * e / 32, e % (32 / w))

/-- The entry and the flags of a computation made on every value. -/
def eachElem (w n : Nat) (f : Nat → Nat × Flags) : Entry × Flags :=
  let rs := (List.range n).map f
  (BitVec.ofNat 4096 (rs.foldr (fun r acc => r.1 % 2 ^ w + acc * 2 ^ w) 0), rs.foldl (fun a r => a ||| r.2) 0#9)

/-- A scalar broadcast to a position that reads values of width w (04 R75). -/
def broadcast (w : Nat) (g : W64) : Entry := ofElems w (elemCount w) fun _ => g.toNat

/-! ### Vector sources and destinations -/

/-- A vector source, read at the issue slot; a queue gives its oldest entry (02 R34, 04 R75). -/
def State.source (s : State) (w : Nat) (src : VSrc) : Entry × State :=
  match src with
  | .vec f => (s.me.vec f, s)
  | .qv i => ((s.me.front (.qv i)).getD 0#4096, s.modMe fun t => t.pop (.qv i))
  | .bcast g => (broadcast w (s.breg g), s)

/-- Where a vector destination lands (02 R35). -/
def landing (d : VDst) : Dest :=
  match d with
  | .vec f => .vec f
  | .qs i => .qs i

/-- A vector result, available n slots later. -/
def State.deliver (s : State) (n : Nat) (d : VDst) (r : Entry × Flags) : State := s.later n (landing d) r.1 r.2

/-- How often an instruction names each QV queue (02 R34). -/
def namings (i : Instr) (q : BitVec 2) : Nat := (instrPops i).count q

/-- Whether every pop of an instruction finds its entry (02 R34). -/
def State.popsReady (s : State) (i : Instr) : Bool :=
  (instrPops i).all fun q => namings i q ≤ arrived (s.me.queue (.qv q))

/-- A vector instruction waits for the entries it pops (02 R34). -/
def vectorCheck (i : Instr) (s : State) : Chk := if s.popsReady i then .ok else .stall true

/-! ### Rounding (05 R116, R117) -/

/-- The converter of the issuing slot steps when the rounding is `.rsr`; its new state serves every lane. -/
def State.converter (s : State) (r : Rnd) : W32 × State :=
  if r = .rsr then
    (match s.cur.slot with
     | .v1 => let c := lfsrStep s.me.conv1; (c, s.modMe fun t => { t with conv1 := c })
     | _ => let c := lfsrStep s.me.conv0; (c, s.modMe fun t => { t with conv0 := c }))
  else (0#32, s)

/-- The u of value e of width w (05 R117). -/
def dither (c : W32) (w e : Nat) : Nat := ditherU c (elemPlace w e).1 (elemPlace w e).2

/-- The counter of the Philox stream advances by 32 (05 R119); the state, and the key and counter as they stood. -/
def State.drawRow (s : State) : W64 × BitVec 128 × State :=
  (s.me.rngKey, s.me.rngCtr, s.modMe fun t => { t with rngCtr := t.rngCtr + 32#128 })

/-! ### Addresses (04 R83) -/

/-- A register plus a signed offset, modulo 2^64. -/
def State.address (s : State) (ra : GReg) (off : Int) : Nat := (s.reg ra + ofInt 64 off).toNat

end Sys2Proof.Machine
end

