-- ==== Sys2Proof/Machine/Units.lean ====
section
/-!
DEFINITION. The units of a transfer: what a copy reads and writes, doubleword by doubleword (11 R242 to R247), and where in physical
memory that is, for the orders that it keeps with other accesses (09 R204, R207, R222). Log 23.
-/

namespace Sys2Proof.Machine

/-- The number of elements (11 R244). -/
def Copy.elements (c : Copy) : Nat := c.counts.foldl (· * ·) 1

/-- The index list of a gather or scatter. -/
def Copy.list? (c : Copy) : Option Nat :=
  match c.kind with | .gather _ l => some l | .scatter _ l => some l | _ => none

/-- A place a unit reads or writes: memory, bytes of a tile row, bytes of a weight-buffer entry. -/
inductive Spot | mem (va : Nat) | tile (h row off : Nat) | wbuf (entry off : Nat)
  deriving DecidableEq, Repr, Inhabited

/-- What a unit moves, a doubleword: nothing to read means zeros, nothing to write means no effect. -/
structure Move where
  src : Option Spot := none
  dst : Option Spot := none
  deriving DecidableEq, Repr, Inhabited

/-- The line, the row or the entry that a place lies in. -/
def Spot.line : Spot → Spot
  | .mem va => .mem (va / 64 * 64)
  | .tile h row _ => .tile h row 0
  | .wbuf e _ => .wbuf e 0

/-- The bytes of a place before it in its line, row or entry. -/
def Spot.off : Spot → Nat
  | .mem va => va % 64
  | .tile _ _ o => o
  | .wbuf _ o => o

/-- The place o bytes into an element at an offset, in the units of its endpoint (11 R242, R244). -/
def Endpoint.spot (e : Endpoint) (t : Task) (off : Int) (o : Nat) : Spot :=
  match e with
  | .mem va => .mem ((va + off + o) % 2 ^ 64).toNat
  | .tile h row0 =>
    let r := (t.tiles.getD h {}).rlen
    .tile h ((row0 : Int) + off + (o / r : Nat)).toNat (o % r)
  | .wbuf n => .wbuf (((n : Int) + off + (o / 512 : Nat)) % 512).toNat (o % 512)

/-- The digits of an element's number by the counts (11 R244). -/
def nestDigits : List Nat → Nat → List Nat
  | [], _ => []
  | c :: cs, e => e % c :: nestDigits cs (e / c)

/-- An element's offset by its digits and strides. -/
def nestOffset (counts : List Nat) (strides : List W64) (e : Nat) : Int :=
  ((nestDigits counts e).zip strides).foldl (fun acc p => acc + p.1 * p.2.toInt) 0

/-- Doublewords of an element, a pixel or a row; every one of them is a multiple of 8 bytes (11 R242). -/
def Copy.words (c : Copy) : Nat := c.bytes / 8

/-- The number of units of a copy: a unit is a doubleword of an element. -/
def Copy.units (c : Copy) : Nat :=
  match c.kind with
  | .nest | .reduce _ _ => c.elements * c.words
  | .window _ _ _ _ taps => c.n * taps * c.words
  | .gather .. | .scatter .. => c.n * c.words

/-- The index a unit needs. -/
def Copy.needs (c : Copy) (u : Nat) : Option Nat :=
  match c.list? with | some _ => some (u / c.words) | none => none

/-- The sentinel of an index list (11 R246). -/
def sentinel : Nat := 0xFFFFFFFF

/-- What unit u of a copy moves (11 R244 to R246). -/
def Copy.move (c : Copy) (t : Task) (u : Nat) : Move :=
  let e := u / c.words
  let o := 8 * (u % c.words)
  let run (x : Endpoint) : Nat := match x with | .tile h _ => e * (c.bytes / (t.tiles.getD h {}).rlen) | _ => e * c.bytes
  match c.kind with
  | .nest | .reduce _ _ =>
    { src := some (c.src.spot t (nestOffset c.counts c.sstrides e) o), dst := some (c.dst.spot t (nestOffset c.counts c.dstrides e) o) }
  | .window win lpad dil str taps =>
    let p : Int := e / taps * str + e % taps * dil - lpad
    { src := if 0 ≤ p ∧ p < win then some (c.src.spot t (p * c.bytes) o) else none
      dst := some (match c.dst with | .tile h row0 => .tile h (row0 + e / taps) (e % taps * c.bytes + o) | d => d.spot t 0 o) }
  | .gather bound _ =>
    let x := c.index.getD e sentinel
    { src := if x = sentinel ∨ bound ≤ x then none else some (c.src.spot t (x * c.bytes : Nat) o), dst := some (c.dst.spot t (run c.dst) o) }
  | .scatter bound _ =>
    let x := c.index.getD e sentinel
    { src := some (c.src.spot t (run c.src) o), dst := if x = sentinel ∨ bound ≤ x then none else some (c.dst.spot t (x * c.bytes : Nat) o) }

/-- The numbers under which a copy's lines wait for walks and keep their failures: a source line, a destination line, an index, the
event doubleword (11 R249). -/
def srcLine (va : Nat) : Nat := va / 64 * 4
def dstLine (va : Nat) : Nat := va / 64 * 4 + 1
def indexLine (j : Nat) : Nat := j * 4 + 2
def eventLine : Nat := 3

/-- Whether a copy's line is stopped by a failure (11 R249). -/
def Copy.stopped (c : Copy) (line : Nat) : Bool := (NMap.find? c.faulted line).isSome

/-! ### Where a copy's places are -/

/-- Where an address of a copy's space is, with the kind of its page: by the last-level TLB of its die, else by its tables as they stand;
none where it does not translate. -/
def State.copyPlace (s : State) (c : Copy) (va : Nat) : Option (Nat × PageOrd) :=
  let e : Option TlbEntry :=
    match (s.die (s.task c.uid).die).llt.find? fun e => e.serves c.vdk c.asid va with
    | some e => some e
    | none => match (s.walk c.vdk c.root c.asid va .read).out with | .ok (.entry e) => some e | _ => none
  e.map fun e => (e.phys va, e.ord)

/-- The memory that a copy's units read, or write, as far as its indices tell: addresses and lengths. With them its list, and its event
doubleword (11 R246, R250). `p` picks units, `q` indices. -/
def Copy.spots (c : Copy) (t : Task) (write : Bool) (p q : Nat → Bool) : List (Nat × Nat) :=
  ((List.range c.units).filter p).filterMap (fun u =>
    match (if write then (c.move t u).dst else (c.move t u).src) with | some (.mem va) => some (va, 8) | _ => none) ++
  (if write then (if c.event = 0 then [] else [(c.event, 8)])
   else match c.list? with
    | some l => ((List.range c.n).filter q).map fun j => ((l + 4 * j) % 2 ^ 64, 4)
    | none => [])

/-- What a copy has still to write and to read (11 R244). -/
def Copy.left (c : Copy) (t : Task) : List (Nat × Nat) :=
  let todo (u : Nat) : Bool := !c.done.contains u
  let unread (u : Nat) : Bool := todo u && (NMap.find? c.staged u).isNone
  let unlisted (j : Nat) : Bool := (NMap.find? c.index j).isNone
  c.spots t true todo unlisted ++ c.spots t false unread unlisted

/-- What a copy may read and write in all. An index that has not been read may be any below the bound (11 R246). -/
def Copy.spread (c : Copy) (t : Task) : List (Nat × Nat) :=
  let all (_ : Nat) : Bool := true
  let may (x : Copy) : List (Nat × Nat) := x.spots t true all all ++ x.spots t false all all
  let open' : List Nat := match c.list? with
    | some _ => (List.range c.n).filter fun j => (NMap.find? c.index j).isNone
    | none => []
  let bound : Nat := match c.kind with | .gather b _ | .scatter b _ => b | _ => 0
  may c ++ (List.range bound).flatMap fun x => if open'.isEmpty then [] else may { c with index := open'.foldl (fun m j => m.set j x) c.index }

/-- Whether a copy touches a window (09 R222). -/
def State.copyTouches (s : State) (c : Copy) (w : Window) : Bool :=
  (c.spread (s.task c.uid)).any fun x =>
    match s.copyPlace c x.1 with
    | some (pa, _) => w.pas.any fun q => pa < q.1 + q.2.1 && q.1 < pa + x.2
    | none => false

end Sys2Proof.Machine
end

