-- ==== Sys2Proof/Machine/Device.lean ====
section
/-!
DEFINITION. What the device reads and writes for a virtual device at an IPA, through stage 2 alone (12 R256, R274, 13 R290,
R292, 14 R304, 15 R327).
-/

namespace Sys2Proof.Machine

/-- The parts of n bytes at an IPA that lie in one 64 KiB page each: offset and length. -/
def ipaPages (ipa n : Nat) : List (Nat × Nat) :=
  (List.range ((ipa % 65536 + n + 65535) / 65536)).map fun i =>
    let lo := if i = 0 then 0 else 65536 * i - ipa % 65536
    (lo, min n (65536 * (i + 1) - ipa % 65536) - lo)

/-- n bytes at an IPA as pieces: physical address, offset and length; every one must grant the access. -/
def State.devicePieces (s : State) (vdk ipa n : Nat) (write : Bool) : Except TrFault (List (Nat × Nat × Nat)) :=
  (ipaPages ipa n).foldl (fun r p =>
    match r with
    | .error f => .error f
    | .ok l =>
      match s.devicePa vdk ((ipa + p.1) % 2 ^ 52) write with
      | .error f => .error f
      | .ok pa => .ok (l ++ [(pa, p.1, p.2)])) (.ok [])

/-- n bytes at an IPA as the device reads them; an unreadable line reads as zeros (14 R311). -/
def State.deviceBytes (s : State) (vdk ipa n : Nat) : Except TrFault (List Byte) :=
  match s.devicePieces vdk ipa n false with
  | .error f => .error f
  | .ok l => .ok (if s.vdOpen vdk then l.flatMap (fun p => s.fetch (some vdk) p.1 p.2.2) else List.replicate n 0#8)

/-- The same read made at its homes, with the records it gives rise to and the links it crosses (13 R277). -/
def State.deviceLoad (s : State) (w : Who) (vdk ipa n : Nat) : Except TrFault (List Byte × State) :=
  match s.devicePieces vdk ipa n false with
  | .error f => .error f
  | .ok l => .ok (l.foldl (fun r p => let (bs, s) := (r.2.crossTo w.die p.1).homeRead w .ok 0 p.1 p.2.2; (r.1 ++ bs, s)) ([], s))

/-- On whose behalf the device writes a member's block, or what a task of another die has sent for a context: then that task is the
author (13 R290, R292, 12 R262). -/
def blockWho (vdk die : Nat) (author : Option (Nat × Nat) := none) : Who := { vd := some vdk, die, acc := .write, by' := author }

/-- Bytes put at pieces, over the links on their way. -/
def State.putPieces (s : State) (w : Who) (l : List (Nat × Nat × Nat)) (bs : List Byte) : State :=
  l.foldl (fun s p => (s.crossTo w.die p.1).homeWrite w .ok 0 p.1 ((bs.drop p.2.1).take p.2.2)) s

/-- Bytes written at an IPA: all of them, or none where a page refuses. -/
def State.deviceStore (s : State) (w : Who) (vdk ipa : Nat) (bs : List Byte) : Except TrFault State :=
  match s.devicePieces vdk ipa bs.length true with
  | .error f => .error f
  | .ok l => .ok (s.putPieces w l bs)

/-- A record of a stage-2 failure in the firmware's own ring, of an access that no task made (12 R274, 13 R290, R298). -/
def State.deviceFault (s : State) (vdk die : Nat) (acc : AccKind) (f : TrFault) : State :=
  let r : Rec := { die, access := acc, cause := f.cause, dw2 := f.ipa }
  (s.logRecord (vdk / 256) r).firmwareRecord (vdk / 256) r

/-- Whether routes lead from a die to n bytes at an IPA of a VD and to what maps them (01 R16, R17, 13 R278). -/
def State.ipaRouted (s : State) (die vdk ipa n : Nat) : Bool := (ipaPages ipa n).all fun p => s.pageRouted die vdk ((ipa + p.1) % 2 ^ 52)

/-! ### Entries of queues -/

/-- The access of an entry that has entered its queue is over, but for QW, where the fill port has still to write it (10 R228). -/
def State.entered (s : State) (id code : Nat) : State :=
  if code = Queue.code .qw then { s with accesses := s.accesses.upd id fun a => { a with entered := true, parts := [] } }
  else s.dropAccess id

/-! ### Free orders -/

/-- One of several things that the manual does not order: the only one, or a free choice (log 7). -/
def State.pick (s : State) (l : List Nat) : Nat × State :=
  match l with
  | [x] => (x, s)
  | l => let (k, s) := s.draw; (l.getD (Config.nextOf k % l.length) (l.headD 0), s)

/-- Things that the manual does not order, in an order of free choices (log 7). -/
def State.anyOrder : Nat → List Nat → State → List Nat × State
  | 0, l, s => (l, s)
  | n + 1, l, s =>
    let (x, s) := s.pick l
    if l.isEmpty then ([], s) else
    let (rest, s) := State.anyOrder n (l.erase x) s
    (x :: rest, s)

/-! ### One-sided writes at a member (13 R290, 20 R448) -/

/-- Where a member's receive area begins and its length, as the block's bytes give them (13 R292). -/
def receiveArea (bs : List Byte) : Nat × Nat := (dword bs 0 / 64 % 2 ^ 46 * 64, dword bs 1)

/-- The page kind of a physical address that a VD's stage 2 gives for an IPA (13 R290, 17 R385). -/
def State.deviceOrd (s : State) (vdk ipa : Nat) : PageOrd :=
  match (s.stage2 vdk .none 0 ipa).out with | .ok (l, _) => l.ord | .error _ => .rc

/-- The lines at an IPA: address and page kind; none where one is no local HBM that may be written (13 R290). Of several lines that
fail, the last one counts: a failed translation there is the one recorded, and none is where that line merely lies in no local HBM
(DESIGN CHOICE, log 32). -/
def State.lineSpots (s : State) (vdk die ipa n : Nat) : Except (Option TrFault) (List (Nat × PageOrd)) :=
  (List.range (n / 64)).foldr (fun i r =>
    match r, s.devicePa vdk ((ipa + 64 * i) % 2 ^ 52) true with
    | .error f, _ => .error f
    | _, .error f => .error (some f)
    | .ok l, .ok pa =>
      if isHostPa pa || s.home 0 pa != die then .error none else .ok ((pa, s.deviceOrd vdk ((ipa + 64 * i) % 2 ^ 52)) :: l)) (.ok [])

/-- The lines of an MST's member that are still to be performed, as parts of its access; the member's are over. -/
def State.memberDone (s : State) (id m : Nat) : State :=
  { s with accesses := s.accesses.upd id fun a =>
      match a.purpose with
      | .mst .. => { a with parts := a.parts.map fun (q : Part) => if q.off = m then { q with stat := .done } else q }
      | _ => a }

/-- The lines of a delivery written, in any order (09 R220). -/
def State.writeLines (s : State) (w : Who) (l : List (Nat × PageOrd)) (body : List Byte) : State :=
  let (order, s) := s.anyOrder l.length (List.range l.length)
  order.foldl (fun s i => s.homeWrite w .ok 0 (l.getD i (0, .rc)).1 ((body.drop (64 * i)).take 64)) s

/-- The checks of a one-sided write at a member, by the block and the stage 2 as they stand: the lines that it writes, none where the
member refuses it, with the records that the checks give rise to (13 R290). -/
def State.memberSpots (s : State) (die vdk block off n : Nat) : Option (List (Nat × PageOrd)) × State :=
  match s.deviceLoad { vd := some vdk, die, acc := .read } vdk (block + 24) 16 with
  | .error f => (none, s.deviceFault vdk die .read f)
  | .ok (bs, u) =>
    let (area, len) := receiveArea bs
    if len = 0 ∨ len < off + n then (none, u)
    else
      match s.lineSpots vdk die (area + off) n with
      | .error (some f) => (none, u.deviceFault vdk die .read f)
      | .error none => (none, u)
      | .ok l => (some l, u)

end Sys2Proof.Machine
end

