-- ==== Sys2Proof/Machine/Walks.lean ====
section
/-!
DEFINITION. Walks and their fills, first-touch service, and the retry of held tasks and copies (08 R188, R194 to R200,
11 R249).
-/

namespace Sys2Proof.Machine

/-! ### Walks (08 R196) -/

/-- Whether a TLBI is in progress on a die. -/
def State.tlbiOn (s : State) (die : Nat) : Bool := s.tlbis.any fun b => b.2.dies.contains die

/-- A walk starts again with the present shoot-down number; under a new identifier, since a discarded walk counts as
retired. One that has been discarded four times in a row waits before it starts (08 R196). -/
def State.restartWalk (s : State) (id : Nat) (w : Walk) (tries : Nat) : State :=
  let (k, s) := ({ s with walks := NMap.erase s.walks id } : State).newId
  let w := { w with num := (s.die w.die).shootNum, tries, result := none, failed := false, waiting := decide (4 ≤ tries) }
  { s with walks := s.walks.set k w }

/-- On whose behalf a walk reads. -/
def State.walkWho (s : State) (w : Walk) : Who :=
  let (e, ch) := match w.by' with
    | .task _ e => (e.code, none)
    | .copy k _ => (1, some ((s.copies.getD k {}).ch, ((s.task w.uid).chans.getD (s.copies.getD k {}).ch {}).seq.toNat))
    | .pref _ => (1, none)
  { vd := some w.vdk, die := w.die, tid := (s.task w.uid).tid.toNat, eng := e, chan := ch, acc := .walk }

/-- The record of a copy line that failed (11 R249, 12 R274), and FAULTED in the channel's status (11 R250). -/
def State.copyFault (s : State) (k unit : Nat) (f : TrFault) : State :=
  let c := s.copies.getD k {}
  let t := s.task c.uid
  let s := { s with copies := s.copies.set k { c with faulted := c.faulted.set unit f } }
  let ch := t.chans.getD c.ch {}
  let s := s.modTask c.uid fun t => { t with chans := t.chans.set c.ch { ch with status := ch.status ||| 0x100#32 } }
  s.faultRecord t.vdKey { tid := t.tid.toNat, die := t.die, eng := 1, copy := true, index := c.ch, dw3 := ch.seq.toNat } f

/-- A walk fails: a copy's line stops with a record (11 R249), a PREF is abandoned (17 R389), and an instruction takes
the failure at its next attempt (08 R198). The failure is one of the access that asked for the walk, whose kind it keeps. -/
def State.failWalk (s : State) (id : Nat) (w : Walk) (f : TrFault) : State :=
  let f := { f with access := w.access }
  let gone (s : State) : State := { s with walks := NMap.erase s.walks id }
  match w.by' with
  | .task _ _ => { s with walks := s.walks.set id { w with result := some (.failed f), failed := true } }
  | .copy k u => if (NMap.find? s.copies k).isSome then (gone s).copyFault k u f else gone s
  | .pref a => { gone s with accesses := NMap.erase s.accesses a }

/-- The valid descriptor of a first-touch page: its permissions and kind, and the frame (08 R200). -/
def firstTouchLeaf (d frame : Nat) : Nat := frame / 65536 * 65536 % 2 ^ 52 + d % 256 / 4 * 4 + 1

/-- The unit's swap of a first-touch descriptor for a leaf with a frame (08 R200). Like every write of the unit it can ring, but
for the fill of the frame (07 R161, log 59). -/
def State.swapDescriptor (s : State) (die vdk pa d frame : Nat) : State :=
  s.homeWrite { vd := some vdk, die, acc := .write } .ok 0 pa (leBytes 8 (firstTouchLeaf d frame))

/-- First-touch service of a walk that met a first-touch descriptor (08 R200). -/
def State.serveFirstTouch (s : State) (id : Nat) (w : Walk) (pa d : Nat) : State :=
  match w.by' with
  | .pref a => { s with walks := NMap.erase s.walks id, accesses := NMap.erase s.accesses a }
  | _ =>
    match (s.die w.die).frames.getD w.vdk [] with
    | [] => s.failWalk id w ⟨Cause.trFtEmpty, w.va, 0, false, w.access⟩
    | f :: rest =>
      if !s.routed w.die pa then s else
      let s :=
        if leNat (s.fetch (some w.vdk) pa 8) = d then
          (s.modDie w.die fun x => { x with frames := x.frames.set w.vdk rest }).swapDescriptor w.die w.vdk pa d f
        else s
      s.restartWalk id w w.tries

/-- The records that a walk's reads give rise to; a PREF's walk writes none (17 R389). -/
def State.noteReads (s : State) (w : Walk) (reads : List Read) : State :=
  match w.by' with | .pref _ => s | _ => s.walkRecords (s.walkWho w) reads

/-- The die's copy of a space record (08 R188). -/
def Die.spaceCopy (d : Die) (vdk root asid : Nat) : Option Space :=
  (d.spaces.find? fun c => c.vd = vdk && c.root = root && c.asid = asid).map (·.space)

/-- The copies of space records that a condition names are discarded (08 R188). -/
def State.dropSpaces (s : State) (die : Nat) (p : SpaceCopy → Bool) : State :=
  s.modDie die fun d => { d with spaces := d.spaces.filter fun c => !p c }

/-- The space record a walk goes by: the die's copy, while it is kept, or the record as it stands, which the die then keeps
(08 R188, log 12). -/
def State.spaceFor (s : State) (w : Walk) : WalkOut Space × State :=
  let (k, s) := s.draw
  match (if Config.spaceKept k then (s.die w.die).spaceCopy w.vdk w.root w.asid else none) with
  | some sp => (⟨.ok sp, []⟩, s)
  | none =>
    let r := s.spaceAt w.vdk w.root w.va
    match r.out with
    | .error _ => (r, s)
    | .ok sp =>
      let mine (c : SpaceCopy) : Bool := c.vd = w.vdk && c.root = w.root && c.asid = w.asid
      let copy : SpaceCopy := { vd := w.vdk, root := w.root, asid := w.asid, space := sp }
      (r, s.modDie w.die fun d => { d with spaces := copy :: d.spaces.filter fun c => !mine c })

/-- Whether a walk's reads need memory that no route leads to: the walk then waits (01 R16, 13 R278). -/
def State.away (s : State) (w : Walk) (reads : List Read) : Bool := reads.any fun r => !s.routed w.die r.2

/-- The links that a walk's reads from a die have crossed (13 R277). -/
def State.crossReads (s : State) (die : Nat) (reads : List Read) : State := reads.foldl (fun s r => s.crossTo die r.2) s

/-- The space record and the tables of stage 1 are read, with the records the reads give rise to. -/
def State.readStage1 (s : State) (id : Nat) (w : Walk) : State :=
  let ends (s : State) (r : WalkResult) : State := { s with walks := s.walks.set id { w with result := some r } }
  if 2 ^ 56 ≤ w.va then ends s (.failed ⟨Cause.trVaRange, w.va, 0, false, w.access⟩) else
  let held := s
  let (r, s) := s.spaceFor w
  match r.out with
  | .error f => if s.away w r.reads then held else ((ends s (.failed f)).crossReads w.die r.reads).noteReads w r.reads
  | .ok sp =>
    let x := s.walkStage1 w.vdk w.va w.access sp
    if s.away w (r.reads ++ x.reads) then held else
    let res := match x.out with
      | .error f => WalkResult.failed f
      | .ok (.leaf l) => .stage1 l
      | .ok (.firstTouch pa d) => .firstTouch pa (BitVec.ofNat 64 d)
    ((ends s res).crossReads w.die (r.reads ++ x.reads)).noteReads w (r.reads ++ x.reads)

/-- The tables of stage 2 are read for the IPA that stage 1 gave, which may be later: a walk may pair an old leaf of stage 1
with a new one of stage 2 (08 R197). -/
def State.readStage2 (s : State) (id : Nat) (w : Walk) (l : Leaf) : State :=
  let r := s.walkStage2 w.vdk w.asid w.va w.access l
  if s.away w r.reads then s else
  let res := match r.out with | .error f => WalkResult.failed f | .ok e => .filled e
  (({ s with walks := s.walks.set id { w with result := some res } } : State).crossReads w.die r.reads).noteReads w r.reads

/-- A walk's fill is installed (08 R193); that of a PREF is not where its access would be refused or its line lies in a
poisoned subtree, at the level at which it was issued (17 R389). -/
def State.installFill (s : State) (id : Nat) (w : Walk) (e : TlbEntry) : State :=
  let s := { s with walks := NMap.erase s.walks id }
  match w.by' with
  | .task _ _ => s.fillTlb w.die (some w.core) e
  | .copy _ _ => s.fillTlb w.die none e
  | .pref a =>
    let u := { s with accesses := NMap.erase s.accesses a }
    let isS := (s.task w.uid).level.isS || (s.accesses.getD a {}).handler
    if (e.refuses isS .read).isSome || s.poisoned (e.phys w.va) then u else u.fillTlb w.die (some w.core) e

/-- TLB_WALK (08 R196): a walk reads its tables; its fill is then checked against the shoot-down log, and installed or
discarded. One that waits starts, under the number of that moment, when its die has no TLBI in progress. -/
def execTlbWalk (id : Nat) (s : State) : Result State :=
  match NMap.find? s.walks id with
  | none => .next s
  | some w =>
    let again (m : Shoot → Bool) (s' : State) : Result State :=
      if (s.die w.die).discards w.num m then .next (s.restartWalk id w (w.tries + 1)) else .next s'
    if w.failed then .next s
    else if w.waiting then
      (if s.tlbiOn w.die then .next s
       else .next (s.readStage1 id { w with waiting := false, num := (s.die w.die).shootNum }))
    else
      match w.result with
      | none => .next (s.readStage1 id w)
      | some (.stage1 l) => .next (s.readStage2 id w l)
      | some (.filled e) => again (·.matches e) (s.installFill id w e)
      | some (.failed f) => again w.touched (s.failWalk id w f)
      | some (.firstTouch pa d) => again w.touched (s.serveFirstTouch id w pa d.toNat)

/-! ### The pool of zeroed frames (08 R188, R200) -/

/-- Zeroed frames the unit holds for a VD. -/
def frameCap : Nat := 8

/-- Bytes of a 64 KiB frame, zero. -/
def zeroPage : List Byte := List.replicate 65536 0#8

/-- One frame taken from a space's ring, zeroed and held: the ring lists 8-byte IPAs (log 22). What does not translate or grant
the access is recorded, and cons stays (log 59). -/
def State.takeFrame (s : State) (die vdk root : Nat) : State :=
  let w : Who := { vd := some vdk, die, acc := .write }
  let fails (s : State) (f : TrFault) : State := s.faultRecord vdk { die } f
  match s.deviceLoad { w with acc := .read } vdk root 64 with
  | .error f => fails s f
  | .ok (bs, s) =>
    let pool := dword bs 1 / 64 * 64
    let plen := dword bs 2
    let cons := dword bs 4
    if dword bs 0 % 2 = 0 ∨ cons = dword bs 3 ∨ plen = 0 then s else
    match s.deviceLoad { w with acc := .read } vdk (pool + 8 * (cons % plen)) 8, s.devicePa vdk (root + 32) true with
    | .ok (slot, s), .ok consPa =>
      let frame := leNat slot / 65536 * 65536 % 2 ^ 52
      (match s.devicePa vdk frame true with
       | .error f => fails s f
       | .ok pa =>
         let s := (s.fillFrame w pa zeroPage).homeWrite w .ok 0 consPa (leBytes 8 (cons + 1))
         s.modDie die fun d => { d with frames := d.frames.set vdk (d.frames.getD vdk [] ++ [frame]) })
    | .error f, _ => fails s f
    | _, .error f => fails s f

/-- Whether a space's first-touch ring has a frame to give. -/
def State.ringReady (s : State) (vdk root : Nat) : Bool :=
  match s.deviceBytes vdk root 64 with
  | .ok bs => !(readSpace bs).bad && (readSpace bs).fte && dword bs 3 != dword bs 4
  | .error _ => false

/-- Whether a space record fails its checks where the unit looks for a ring: it reads as zeros, with a record (14 R311, R312). -/
def State.ringFails (s : State) (vdk root : Nat) : Bool := !(s.deviceNotes {} vdk root 64).isEmpty

/-- Whether no route leads to what taking a frame reads and writes: the record, the ring's slot, and the frame (01 R16, R17, 13 R278). -/
def State.ringFar (s : State) (die vdk root : Nat) : Bool :=
  !s.ipaRouted die vdk root 64 ||
    match s.deviceBytes vdk root 64 with
    | .error _ => false
    | .ok bs =>
      let slot := dword bs 1 / 64 * 64 + 8 * (dword bs 4 % dword bs 2)
      dword bs 0 % 2 = 1 && dword bs 2 ≠ 0 && (!s.ipaRouted die vdk slot 8 ||
        match s.deviceBytes vdk slot 8 with
        | .error _ => false
        | .ok f => !s.pageRouted die vdk (leNat f / 65536 * 65536 % 2 ^ 52))

/-- FIRST_TOUCH_POOL_REFILL (08 R200): for the space of a live task of the VD on the die whose ring has a frame. -/
def execFirstTouchPoolRefill (die vd : Nat) (s : State) : Result State :=
  let vdk := vdKey (s.moduleOf die) vd
  if frameCap ≤ ((s.die die).frames.getD vdk []).length then .next s else
  let of (p : Nat → Bool) : Option (Nat × Task) :=
    List.find? (fun t : Nat × Task => t.2.die = die && t.2.vdKey = vdk && p t.2.s1root.toNat) s.tasks
  match (of (s.ringReady vdk)).orElse fun _ => of (s.ringFails vdk) with
  | none => .next s
  | some t =>
    let root := t.2.s1root.toNat
    .next (if s.ringFar die vdk root then s else s.takeFrame die vdk root)

/-! ### Retries (08 R199, 11 R249) -/

/-- Whether a TLBI matches a failed translation (08 R199). A protection fault is one of stage 1: the manual names the two stages
only (log 60). -/
def Shoot.retries (h : Shoot) (vdk asid : Nat) (f : TrFault) : Bool :=
  h.vd = vdk &&
  match h.kind, f.stage2 with
  | 0, false => h.asid = asid && h.addr / 65536 = f.va / 65536
  | 1, false => h.asid = asid
  | 2, false => true
  | 3, true => h.addr / 65536 = f.ipa / 65536
  | 4, true => true
  | _, _ => false

/-- A translation tried again in a space and at a level, on someone's behalf: the failure, if it still fails, of the same access, and the
state with the records of the lines it read (14 R311). -/
def State.retry (s : State) (w : Who) (die vdk root asid : Nat) (isS : Bool) (f : TrFault) : Option TrFault × State :=
  let r := s.walk vdk root asid f.va f.access
  let out : Option TrFault := match r.out with
    | .error g => some { g with access := f.access }
    | .ok (.firstTouch _ _) =>
      if ((s.die die).frames.getD vdk []).isEmpty then some ⟨Cause.trFtEmpty, f.va, 0, false, f.access⟩ else none
    | .ok (.entry e) => (e.refuses isS f.access).map fun c => ⟨c, f.va, 0, false, f.access⟩
  (out, (s.crossReads die r.reads).walkRecords w r.reads)

/-- One thing out of a landing buffer: an entry enters its queue, and a one-sided write is performed as one step of checks and writes,
which can ring bells; the member's reply follows (07 R161, 09 R220, 13 R290, 20 R448). -/
def State.replayOne (s : State) (uid : Nat) : Landing → State
  | .entry queue tag e => (s.modTask uid fun t => t.fill queue tag e).entered tag queue
  | .write block off bs author owed =>
    let t := s.task uid
    match s.memberSpots t.die t.vdKey block off bs.length with
    | (none, s) => s.replyOwed t.die t.vdKey owed false
    | (some l, s) => (s.writeLines (blockWho t.vdKey t.die (some author)) l bs).replyOwed t.die t.vdKey owed true

/-- The landing buffer applied in arrival order (12 R262). -/
def State.replay (s : State) (uid : Nat) : State :=
  ((s.task uid).landing.foldl (fun s l => s.replayOne uid l) s).modTask uid fun t => { t with landing := [] }

/-- A held task whose translation now succeeds becomes ready (08 R199, 12 R253, R264): parked, or in standby, which one that waits
in the active slot for its tile copies leaves for its frame. In a slot it takes what its landing buffer has gathered first (12
R262). -/
def State.unhold (s : State) (uid : Nat) : State :=
  let t := s.task uid
  let now := (s.die t.die).clk.toNat
  let u := { t with fault := none, faultWritten := none, retryDue := false, readySince := now }
  let u :=
    if t.inFrame then { u with place := .parked }
    else if t.parkAfter then { u with place := .standby, atActive := true }
    else { u with place := .standby, parkAfter := t.rehome }
  let s := (s.setTask uid u).dueDecision t.die t.quad
  if t.inFrame then s else s.replay uid

/-- Whether no route leads from a die to what a translation tried again reads (01 R16, R17, 13 R278). -/
def State.retryAway (s : State) (die vdk root asid : Nat) (f : TrFault) : Bool :=
  (s.walk vdk root asid f.va f.access).reads.any fun r => !s.routed die r.2

/-- A held task's translation tried again, once routes lead to what it reads. -/
def State.retryTask (s : State) (uid : Nat) : State :=
  let t := s.task uid
  match t.place, t.fault with
  | .held, some f =>
    if s.retryAway t.die t.vdKey t.s1root.toNat t.asid.toNat f then s.modTask uid fun t => { t with retryDue := true } else
    (match s.retry (t.who (Engine.ofCode t.faultEng) f.access) t.die t.vdKey t.s1root.toNat t.asid.toNat t.priv.isS f with
     | (none, s) => s.unhold uid
     | (some g, s) =>
       let s := s.modTask uid fun t => { t with fault := some g, retryDue := false }
       if t.faultWritten = some g.cause then s else s.faultOf uid (Engine.ofCode t.faultEng) g)
  | _, _ => s

/-- The held tasks of a die that a TLBI matches are tried again. -/
def State.retryHeld (s : State) (die : Nat) (quad : Option Nat) (h : Shoot) : State :=
  s.tasks.foldl (fun s p =>
    let t := p.2
    match t.fault with
    | some f =>
      if t.die = die && (match quad with | some q => t.quad == q | none => true) && h.retries t.vdKey t.asid.toNat f then s.retryTask p.1
      else s
    | none => s) s

/-! ### The ack record of an MST (13 R291, 17 R384) -/

/-- A space that the device translates in for an agent, without a walk that the model counts: the agent, the root, the ASID and the
level. -/
structure Space1 where
  who : Who := {}
  root : Nat := 0
  asid : Nat := 0
  isS : Bool := false

/-- The VD whose space it is. -/
def Space1.vdk (x : Space1) : Nat := x.who.vd.getD 0

/-- An address of such a space walked as the tables stand. -/
def State.look (s : State) (x : Space1) (va : Nat) : WalkOut Found := s.walk x.vdk x.root x.asid va x.who.acc

/-- Whether a table line or the memory that an address of such a space names is one that no route leads to (01 R16, R17, 13 R278). -/
def State.lookAway (s : State) (x : Space1) (va : Nat) : Bool :=
  let r := s.look x va
  r.reads.any (fun l => !s.routed x.who.die l.2) ||
    match r.out with
    | .ok (.entry e) => !s.routed x.who.die (e.phys va)
    | .ok (.firstTouch pa _) => !s.routed x.who.die pa
    | .error _ => false

/-- First-touch service for an address of such a space, where it is needed and a frame is held (08 R200). -/
def State.touchIn (s : State) (x : Space1) (va : Nat) : State :=
  if s.lookAway x va then s else
  match (s.look x va).out, (s.die x.who.die).frames.getD x.vdk [] with
  | .ok (.firstTouch pa d), f :: rest =>
    (s.modDie x.who.die fun y => { y with frames := y.frames.set x.vdk rest }).swapDescriptor x.who.die x.vdk pa d f
  | _, _ => s

/-- An address of such a space translated as it stands, with the records of the lines read (14 R311). -/
def State.translateNow (s : State) (x : Space1) (va : Nat) : Except TrFault Nat × State :=
  let r := s.look x va
  let out : Except TrFault Nat := match r.out with
    | .error f => .error { f with access := x.who.acc }
    | .ok (.firstTouch _ _) => .error ⟨Cause.trFtEmpty, va, 0, false, x.who.acc⟩
    | .ok (.entry e) =>
      match e.refuses x.isS x.who.acc with
      | some c => .error ⟨c, va, 0, false, x.who.acc⟩
      | none => .ok (e.phys va)
  (out, (s.crossReads x.who.die r.reads).walkRecords x.who r.reads)

/-- The pieces of n bytes of such a space, one for each 64 KiB page (08 R192); the lowest failure, where one fails; none while no route
leads to what one of them needs. -/
def State.piecesNow (s : State) (x : Space1) (va n : Nat) : Option (Except TrFault (List Piece)) × State :=
  let pages := pagePieces (n / 65536 + 2) (va % 2 ^ 64) n 0
  let s := pages.foldl (fun s p => s.touchIn x p.1) s
  if pages.any fun p => s.lookAway x p.1 then (none, s) else
  let (r, s) := pages.foldl (fun (r : Except TrFault (List Piece) × State) p =>
    match r with
    | (.error f, s) => (.error f, s)
    | (.ok l, s) =>
      match s.translateNow x p.1 with
      | (.ok pa, s) => (.ok (l ++ [{ va := p.1, pa, len := p.2.1, off := p.2.2 }]), s)
      | (.error f, s) => (.error f, s)) (.ok [], s)
  (some r, s)

/-- The space in which the ack record of a task's MST is written. -/
def Task.ackSpace (t : Task) : Space1 := { who := t.who .sta .write, root := t.s1root.toNat, asid := t.asid.toNat, isS := t.priv.isS }

/-- The ack record of an MST written through its task's translation as it stands, each page of it through its own (13 R291,
17 R384): the MST is then complete. A failure is recorded, and the record waits for a TLBI that matches it; while no route leads to what
the write needs, it waits for one (13 R278). -/
def State.storeAck (s : State) (id : Nat) (bs : List Byte) : State :=
  match NMap.find? s.accesses id with
  | none => s
  | some a =>
    match a.purpose with
    | .mst w va _ was =>
      (match s.piecesNow (s.task a.uid).ackSpace va bs.length with
       | (none, s) => { s with accesses := s.accesses.set id { a with purpose := .mst w va bs none } }
       | (some (.ok ps), s) =>
         let who : Who := { vd := some a.vdk, die := a.die, tid := a.tid, eng := Engine.sta.code, acc := .write }
         let s := ps.foldl (fun s p => (s.crossTo a.die p.pa).homeWrite who .ok p.va p.pa ((bs.drop p.off).take p.len)) s
         let s := { s with accesses := NMap.erase s.accesses id }
         if (NMap.find? s.tasks a.uid).isSome then s.modTask a.uid Task.wake else s
       | (some (.error f), s) =>
         let s := { s with accesses := s.accesses.set id { a with purpose := .mst w va bs (some f) } }
         if was.map (·.cause) = some f.cause then s
         else s.faultRecord (s.task a.uid).vdKey { tid := a.tid, die := a.die, eng := Engine.sta.code } f)
    | _ => s

/-- The ack records that wait for a TLBI that matches them are tried again (08 R199, 17 R384). -/
def State.retryAcks (s : State) (die : Nat) (quad : Option Nat) (h : Shoot) : State :=
  s.accesses.foldl (fun s a =>
    let t := s.task a.2.uid
    match a.2.purpose with
    | .mst _ _ bs (some f) =>
      if a.2.die = die && (match quad with | some q => t.quad == q | none => true) && h.retries a.2.vdk t.asid.toNat f then
        s.storeAck a.1 bs
      else s
    | _ => s) s

/-- A failed line of a copy tried again, once routes lead to what its translation reads (11 R249). -/
def State.retryCopy (s : State) (k line : Nat) : State :=
  let c := s.copies.getD k {}
  let t := s.task c.uid
  match NMap.find? s.copies k, NMap.find? c.faulted line with
  | some _, some f =>
    let due (b : Bool) (s : State) : State := { s with copies := s.copies.upd k fun c =>
      { c with retryDue := c.retryDue.filter (· ≠ line) ++ if b then [line] else [] } }
    if s.retryAway t.die c.vdk c.root c.asid f then due true s else
    (match s.retry (s.copyWho c f.access) t.die c.vdk c.root c.asid c.isS f with
     | (none, s) => due false { s with copies := s.copies.upd k fun c => { c with faulted := NMap.erase c.faulted line } }
     | (some g, s) => due false (if g.cause = f.cause then s else s.copyFault k line g))
  | _, _ => s

/-- The copy lines of a die that a TLBI matches are tried again. -/
def State.retryCopies (s : State) (die : Nat) (quad : Option Nat) (h : Shoot) : State :=
  s.copies.foldl (fun s c =>
    let t := s.task c.2.uid
    if t.die = die && (match quad with | some q => t.quad == q | none => true) then
      c.2.faulted.foldl (fun s u => if h.retries c.2.vdk c.2.asid u.2 then s.retryCopy c.1 u.1 else s) s
    else s) s

/-- The action `resume`: what the device does on its own account and has waited for a route is tried again: retries, and records on
their way to their rings (01 R16, R17, 13 R278). -/
def State.resume (s : State) : State :=
  let s := s.tasks.foldl (fun s t => if t.2.retryDue then s.retryTask t.1 else s) s
  (s.copies.foldl (fun s c => c.2.retryDue.foldl (fun s l => s.retryCopy c.1 l) s) s).flushRecords []

end Sys2Proof.Machine
end

