-- ==== Sys2Proof/Machine/Access.lean ====
section
/-!
DEFINITION. Memory accesses in flight: their parts, the orders they keep (09 R203 to R216), the packets that carry the parts
of peer memory (13 R279, R283), and their completion (06 R142, 16 R374). Logs 6 and 7.
-/

namespace Sys2Proof.Machine

/-! ### Parts -/

/-- A piece cut at the multiples of k. -/
def cutPiece (k : Nat) : Nat → Piece → List Piece
  | 0, _ => []
  | n + 1, p =>
    if p.len = 0 then [] else
    let m := min p.len (k - p.pa % k)
    { p with len := m } :: cutPiece k n { p with va := p.va + m, pa := p.pa + m, off := p.off + m, len := p.len - m }

/-- Whether a physical address is reached over the fabric from a die: HBM of another die (08 R183, 01 R16), and host memory from any
die but die 0 of the module (01 R17). -/
def State.isPeer (s : State) (die pa : Nat) : Bool := s.home (s.moduleOf die) pa != die

def Piece.part (p : Piece) (write : Bool) (bs : List Byte) : Part :=
  { pa := p.pa, va := p.va, len := p.len, off := p.off, ord := p.ord, page := p.page, write, bytes := (bs.drop p.off).take p.len }

/-- A piece cut where its offset in the access is a multiple of a queue entry's 512 bytes (13 R283). -/
def cutEntries : Nat → Piece → List Piece
  | 0, _ => []
  | n + 1, p =>
    if p.len = 0 then [] else
    let m := min p.len (512 - p.off % 512)
    { p with len := m } :: cutEntries n { p with va := p.va + m, pa := p.pa + m, off := p.off + m, len := p.len - m }

/-- The parts of a read: one for each aligned doubleword, or one packet for each piece in peer memory (09 R208, 13 R283). -/
def State.readParts (s : State) (die : Nat) (ps : List Piece) : List Part :=
  ps.flatMap fun p =>
    if s.isPeer die p.pa then [p.part false []] else (cutPiece 8 (p.len + 1) p).map fun q => q.part false []

/-- The parts of a write: one for each line, or one packet of at most eight for a piece of whole lines in peer memory (07 R162,
13 R280, R283). -/
def State.writeParts (s : State) (die : Nat) (ps : List Piece) (bs : List Byte) : List Part :=
  ps.flatMap fun p =>
    if s.isPeer die p.pa && p.pa % 64 == 0 && p.len % 64 == 0 then (cutEntries (p.len + 1) p).map fun q => q.part true bs
    else (cutPiece 64 (p.len + 1) p).map fun q => q.part true bs

/-! ### Packets (13 R279, R280) -/

/-- The packet of a part in peer memory: 0 read, 2 write, 4 atomic. -/
def State.partPacket (s : State) (id i : Nat) (a : Access) (p : Part) : Packet :=
  let kind := match a.purpose with | .atom .. => 4 | _ => if p.write then 2 else 0
  let b := match a.purpose with
    | .atom _ _ _ b _ => b
    | _ => if p.write then (if p.len < 64 then BitVec.ofNat 64 ((2 ^ p.len - 1) * 2 ^ (p.pa % 64)) else 0xFFFFFFFFFFFFFFFF#64)
           else BitVec.ofNat 64 ((p.pa % 64 + p.len + 63) / 64)
  let c := match a.purpose with | .atom _ _ _ _ c => c | _ => 0#64
  { kind, vd := a.vdk % 256, gang := a.gang, src := a.die, dst := s.home (s.moduleOf a.die) p.pa, at' := a.die, a := BitVec.ofNat 64 p.pa,
    b, c, body := p.bytes, acc := id, part := i }

/-- Whether a part's packet is in the fabric. -/
def State.onItsWay (s : State) (id i : Nat) : Bool :=
  s.packets.any fun k => k.2.acc = id && k.2.part = i && match k.2.kind with | 0 | 2 | 4 => true | _ => false

/-- The action `send`: a part of an access in peer memory leaves as a packet. In what order parts leave no rule says, so that plain
accesses of a task to another die are performed in any order that 09 R207 leaves them (09 R211, R212, R224). The lines of an MST go in a
packet of their own (13 R289). -/
def State.sendPart (s : State) (id i : Nat) : State :=
  match NMap.find? s.accesses id with
  | none => s
  | some a =>
    match a.purpose, a.parts[i]? with
    | .mst .., _ | _, none => s
    | _, some p => if s.isPeer a.die p.pa && p.stat == .ready && !s.onItsWay id i then s.inject (s.partPacket id i a p) else s

/-! ### Orders (09 R204, R213 to R215) -/

/-- What an access needs before it and what it leaves after it (09 R213). -/
inductive Before | none | rel | full
  deriving DecidableEq, Repr

inductive After | none | acq | full
  deriving DecidableEq, Repr

structure Ordering where
  before : Before := .none
  after : After := .none
  deriving DecidableEq, Repr

def ldOrdering : LdOrd → Ordering
  | .plain => {} | .acq _ => ⟨.none, .acq⟩ | .sc _ => ⟨.full, .acq⟩

def stOrdering : StOrd → Ordering
  | .plain => {} | .rel _ => ⟨.rel, .none⟩ | .sc _ => ⟨.rel, .full⟩

def atomOrdering : AtomOrd → Ordering
  | .relaxed => {} | .acq => ⟨.none, .acq⟩ | .rel => ⟨.rel, .none⟩ | .ar => ⟨.rel, .full⟩

/-- The orderings of an SO page: `.sc.pod`, and `.ar.pod` for ATOM (09 R210, 16 R350). -/
def soLoad : Ordering := ⟨.full, .acq⟩
def soStore : Ordering := ⟨.rel, .full⟩

/-- Whether an access of the LD, ST or FB class still counts for a fence (09 R214). -/
def Access.fences (a : Access) : Bool :=
  (match a.cls with | some .ld | some .st | some .fb => true | _ => false) && a.pending

/-- Whether an access is a load or ATOM whose value has not returned (09 R214). -/
def Access.isLoad (a : Access) : Bool :=
  a.fences && match a.purpose with
  | .load _ _ | .entry _ _ | .atom .. | .contribute .. => true
  | _ => false

/-- The accesses of a task that satisfy a condition. -/
def State.pendingIds (s : State) (uid : Nat) (p : Access → Bool) : List Nat :=
  (s.accesses.filter fun a => a.2.uid = uid && p a.2).map (·.1)

/-- The accesses a FENCEX of a class waits for (09 R215). -/
def State.classIds (s : State) (uid : Nat) (c : PathClass) : List Nat :=
  match c with
  | .cp => (s.copies.filter fun x => x.2.uid = uid).map (·.1)
  | .bl => s.pendingIds uid fun a => a.cls = some .bl && a.pending
  | c => s.pendingIds uid fun a => a.cls = some c && a.fences

/-- Everything known to precede counts as fenced (09 R212). -/
def OrdCtx.fenceAll (c : OrdCtx) : OrdCtx := { c with fenced := c.known }

/-- A release: later stores and ATOMs wait for what is pending (09 R214). -/
def State.release (s : State) : State :=
  let ids := s.pendingIds s.cur.uid Access.fences
  s.modEng fun e => { e with ord := { (e.ord.fenceAll) with rels := (e.ord.rels ++ ids).dedup } }

/-- A full or acquire fence that the executing sequencer has waited for: what LDA loads after it comes after what a WAITV before it has
seen (09 R213, R214, 18 R438). A fence of another sequencer orders nothing for an LDA that runs (09 R214). -/
def State.acquireNow (s : State) : State :=
  let t := s.me
  if s.cur.eng = .lda ∨ t.lda.run = .idle then s.acquireViews t else s

/-- An implied fence that the sequencer was left waiting for is over (09 R213). -/
def State.holdOver (s : State) : State :=
  if s.eng.hold.isEmpty then s else (s.modEng fun e => { e with hold := [] }).acquireNow

/-- The accesses an ordered access leaves its sequencer waiting for (09 R213). -/
def State.holdFor (s : State) (o : After) : State :=
  match o with
  | .none => s
  | .acq => let ids := s.pendingIds s.cur.uid Access.isLoad; s.modEng fun e => { e with hold := ids, ord := e.ord.fenceAll }
  | .full => let ids := s.pendingIds s.cur.uid Access.fences; s.modEng fun e => { e with hold := ids, ord := e.ord.fenceAll }

/-- An access that issues: it takes its place in task order. Its parts in peer memory leave when they may (`send`). -/
def State.addAccess (s : State) (a : Access) : State :=
  let (id, s) := s.newId
  let t := s.me
  let e := s.eng
  let live (l : List Nat) := l.filter fun x => (NMap.find? s.accesses x).isSome
  let writes := match a.purpose with | .atom .. => true | .mst .. => true | _ => a.parts.any (·.write)
  let a : Access := { a with uid := s.cur.uid, eng := s.cur.eng, known := e.ord.known, fenced := e.ord.fenced,
                             deps := if writes then live e.ord.rels else [], region := linkExposed s.cur.line,
                             handler := t.trBusy, vdk := t.vdKey, gang := t.gang.toNat, tid := t.tid.toNat, die := t.die }
  let s := s.modEng fun e => { e with ord := { e.ord with known := e.ord.known.set s.cur.eng.code id } }
  { s with accesses := s.accesses.set id a }

/-- The frame of a memory access (09 R210, R213, 08 R198): translation, the fence before it, the access, the fence after. -/
def State.memory (s : State) (va n : Nat) (acc : AccKind) (o so : Ordering) (go : List Piece → State → State) : State :=
  s.holdOver.withPieces va n acc fun ps s =>
    let o := if ps.any fun p => p.ord == .so then so else o
    if o.before = .full && !(s.pendingIds s.cur.uid Access.fences).isEmpty then s.stallNow false
    else
      let s := match o.before with | .rel => s.release | .full => s.acquireNow | .none => s
      (go ps s).holdFor o.after

/-! ### When a part may be performed (07 R162, 09 R207, R211, R212, R214) -/

/-- Whether two parts share a byte. -/
def Part.meets (p q : Part) : Bool := p.pa < q.pa + q.len && q.pa < p.pa + p.len

/-- Whether an access makes no later store wait: the reads of MCTB and MLDR, which may see stores that follow them (17 R378). -/
def Access.loose (a : Access) : Bool := match a.purpose with | .contribute .. => true | _ => false

/-- Whether an earlier copy has still to read or write what a part of an access touches, neither on a UN page (09 R204, R207). What of the
copy's places does not translate, or depends on an index not yet read, is not waited for (log 23). -/
def State.followsCopy (s : State) (a : Access) (p : Part) : Bool :=
  p.ord != .un && s.copies.any fun c =>
    c.2.uid = a.uid && (c.1 ≤ a.known.getD Engine.lda.code 0) &&
    (c.2.left (s.task c.2.uid)).any fun x =>
      match s.copyPlace c.2 x.1 with
      | some (pa, ord) => ord != .un && pa < p.pa + p.len && p.pa < pa + x.2
      | none => false

/-- Whether an earlier access's part must be performed first: it precedes in task order, touches the same location and is
not performed; between UN accesses only if a fence separates them. -/
def State.mustFollow (s : State) (a : Access) (p : Part) : Bool :=
  (s.accesses.any fun b =>
    b.2.uid = a.uid && (b.1 ≤ a.known.getD b.2.eng.code 0) && !(b.2.loose && p.write) &&
    b.2.parts.any fun q =>
      q.stat == .ready && p.meets q && ((p.ord != .un && q.ord != .un) || b.1 ≤ a.fenced.getD b.2.eng.code 0)) ||
  s.followsCopy a p

/-- Whether a copy's read or write of n bytes on a page of a kind waits for an earlier access of its task to the same location
(09 R204, R207): a write for every one, a read for those that read, since no store of the task need be seen by a copy's read (09 R218). -/
def State.copyFollows (s : State) (c : Copy) (write : Bool) (pa n : Nat) (ord : PageOrd) : Bool :=
  ord != .un && s.accesses.any fun b =>
    b.2.uid = c.uid && (b.1 ≤ c.known.getD b.2.eng.code 0) && !(b.2.loose && write) &&
    (write || match b.2.purpose with | .store | .mst .. => false | _ => true) &&
    b.2.parts.any fun q => q.stat == .ready && q.ord != .un && q.pa < pa + n && pa < q.pa + q.len

/-- Whether a lower line of the same store at the same home is still to be applied (07 R162). The two parts of a store that spans
effective pages are not ordered (08 R191, 09 R208). The lines of all entries of one STR keep this order too: the manual orders those of one
entry and leaves the entries free, and here STR is one store (DESIGN CHOICE, log 7). -/
def State.lineWaits (s : State) (a : Access) (p : Part) : Bool :=
  match a.purpose with
  | .store => a.parts.any fun q =>
      q.write && q.stat == .ready && q.off < p.off && q.page == p.page && isHostPa q.pa == isHostPa p.pa && s.home 0 q.pa == s.home 0 p.pa
  | _ => false

/-- Whether a part of an access may be performed now. -/
def State.mayPerform (s : State) (a : Access) (p : Part) : Bool :=
  p.stat == .ready && !s.anyLive a.deps && !s.mustFollow a p && !s.lineWaits a p

/-- On whose behalf an access touches memory. -/
def Access.who (a : Access) : Who :=
  { vd := some a.vdk, die := a.die, tid := a.tid, eng := a.eng.code,
    acc := match a.purpose with | .atom .. => .atomic | _ => if a.parts.any (·.write) then .write else .read }

/-! ### Atomics (16 R349) -/

/-- What an atomic stores over an old value of n bytes; none where it stores nothing. -/
def atomNew (op : AtomOp) (n old b c : Nat) : Option Nat :=
  let w := 8 * n
  let b := b % 2 ^ w
  match op with
  | .swap => some b
  | .cas => if old = c % 2 ^ w then some b else none
  | .add => some ((old + b) % 2 ^ w)
  | .and => some (old &&& b)
  | .or => some (old ||| b)
  | .xor => some (old ^^^ b)
  | .min => some (if sextNat old w ≤ sextNat b w then old else b)
  | .max => some (if sextNat b w ≤ sextNat old w then old else b)
  | .minn => some (Nat.min old b)
  | .maxn => some (Nat.max old b)
  | .fadd => some (fadd32 (BitVec.ofNat 32 old) (BitVec.ofNat 32 b)).1.toNat

/-- An atomic performed at its home: the old value and the state. -/
def State.homeAtomic (s : State) (w : Who) (i : Integ) (op : AtomOp) (n : Nat) (b c : W64) (va pa : Nat) : Nat × State :=
  let (bs, s) := s.homeRead w i va pa n
  let old := leNat bs
  match atomNew op n old b.toNat c.toNat with
  | none => (old, s)
  | some v => (old, s.homeWrite w .ok va pa (leBytes n v))

/-! ### Completion -/

/-- A part of an access changed. -/
def State.modPart (s : State) (id i : Nat) (f : Part → Part) : State :=
  { s with accesses := s.accesses.upd id fun a => { a with parts := updAt a.parts i f } }

/-- An atomic's next step at its home: in HBM it reads and writes at one instant; in host memory it reads, and at a later step
writes what it has still to write, so that a write of the host may fall between (16 R350). Answers the old value once it has been
performed. -/
def State.atomicStep (s : State) (id i : Nat) (a : Access) (p : Part) (g : Integ) (op : AtomOp) (n : Nat) (b c : W64) :
    Option Nat × State :=
  if !isHostPa p.pa then let (old, s) := s.homeAtomic a.who g op n b c p.va p.pa; (some old, s)
  else
    match p.old with
    | none =>
      let (bs, s) := s.homeRead a.who g p.va p.pa n
      let left : List Byte := match atomNew op n (leNat bs) b.toNat c.toNat with | none => [] | some v => leBytes n v
      (none, s.modPart id i fun p => { p with old := some (leNat bs, left) })
    | some (old, left) => (some old, if left.isEmpty then s else s.homeWrite a.who .ok p.va p.pa left)

/-- A store all of whose parts are performed is complete (06 R142). -/
def State.settle (s : State) (id : Nat) : State :=
  match NMap.find? s.accesses id with
  | none => s
  | some a => match a.purpose with
    | .store => if a.parts.all (·.stat == .done) then s.dropAccess id else s
    | _ => s

/-- The bytes a read brought back, in the order of its address. -/
def Access.data (a : Access) : List Byte :=
  a.parts.foldl (fun bs p => patch bs p.off p.bytes) (List.replicate (a.parts.foldl (fun n p => max n (p.off + p.len)) 0) 0#8)

/-- A sequencer of the stream that made an access: the held one if a handler has taken over since (12 R265). -/
def Task.modStream (t : Task) (handler : Bool) (e : Engine) (f : Eng → Eng) : Task :=
  if handler = t.trBusy then t.modEng e f
  else if handler then t
  else
    { t with held := t.held.map fun h =>
        match e with
        | .ctl => { h with ctl := f h.ctl } | .lda => { h with lda := f h.lda }
        | .exe => { h with exe := f h.exe } | .sta => { h with sta := f h.sta } }

/-- A result lands in its register (06 R145). -/
def State.landResult (s : State) (id : Nat) (a : Access) (rd : GReg) (v : W64) : State :=
  let s := s.dropAccess id
  if (NMap.find? s.tasks a.uid).isSome then s.modTask a.uid fun t => (t.modStream a.handler a.eng fun e => e.arrive rd v).wake
  else s

/-- The value a load of a width gives (04 R79). -/
def widthValue (w : Width) (v : Nat) : W64 :=
  match w with
  | .n8 | .n16 | .n32 | .w64 => BitVec.ofNat 64 v
  | .i8 => ofInt 64 (sextNat v 8)
  | .i16 => ofInt 64 (sextNat v 16)
  | .i32 => ofInt 64 (sextNat v 32)

/-- Access sizes (04 R79). -/
def widthBytes : Width → Nat
  | .n8 | .i8 => 1 | .n16 | .i16 => 2 | .n32 | .i32 => 4 | .w64 => 8

/-! ### Queue entries (16 R373, R374) -/

/-- Whether every reservation before a tag in a queue has been filled. -/
def earlierFilled (l : List QSlot) (tag : Nat) : Bool :=
  match l with
  | [] => true
  | q :: l => q.tag = tag || (q.val.isSome && earlierFilled l tag)

/-- The places of a queue that hold a reservation of a stream: the queue itself, or what a spill set aside. -/
def Task.placesOf (t : Task) (code tag : Nat) : List QSlot :=
  let q := t.queues.getD code []
  if q.any fun x => x.tag = tag then q else match t.held with | some h => h.late.getD code [] | none => []

/-- Bytes that one thing takes in a landing buffer (log 11), and those a task's buffer holds. -/
def Landing.size : Landing → Nat
  | .entry _ _ _ => 512
  | .write _ _ bs _ _ => bs.length
def Task.landed (t : Task) : Nat := t.landing.foldl (fun n l => n + l.size) 0

/-- The bytes of a task's landing buffer, by the gang table (12 R256, R262). -/
def State.landingRoom (s : State) (t : Task) : Nat := max 1 (s.gangEntry t.vdKey t.gang.toNat).land * 65536

/-- Something for a task that is parked or held goes into its landing buffer. A full buffer refuses it, and a parked task is then
treated as starving (12 R262). The gang table's entry is read (12 R256), once a route leads to it. Answers whether the buffer has taken
it. -/
def State.intoLanding (s : State) (uid : Nat) (l : Landing) : Bool × State :=
  let t := s.task uid
  if s.gangAway t.vdKey t.die t.gang.toNat then (false, s) else
  let s := s.gangRecords t.vdKey t.die t.gang.toNat
  if t.landed + l.size ≤ s.landingRoom t then (true, s.modTask uid fun t => { t with landing := t.landing ++ [l] })
  else (false, s.modTask uid fun t => { t with starving := t.starving || t.place == .parked })

/-- Whether an entry of a queue's reservation is in the buffer. -/
def Landing.isFor (l : Landing) (tag : Nat) : Bool := match l with | .entry _ k _ => k == tag | .write .. => false

/-- An entry enters its queue (16 R374), or, for a task that is parked or held, its landing buffer (12 R262, 13 R284). -/
def State.enterQueue (s : State) (id uid code tag : Nat) (e : Entry) : State :=
  let t := s.task uid
  match t.place with
  | .parked | .held =>
    if t.landing.any fun l => l.isFor tag then s else (s.intoLanding uid (.entry code tag e)).2
  | _ =>
    if !earlierFilled (t.placesOf code tag) tag then s
    else
      let s := s.modTask uid fun t => (t.fill code tag e).wake
      s.entered id code

/-! ### Events at homes and in cores -/

/-- HOME_READ_APPLY (14 R310): a part of a read in local or host memory is served. -/
def execHomeReadApply (id i : Nat) (g : Integ) (s : State) : Result State :=
  match NMap.find? s.accesses id with
  | none => .next s
  | some a =>
    match a.parts[i]? with
    | none => .next s
    | some p =>
      match a.purpose with
      | .atom .. => .next s
      | _ =>
        if p.write || s.isPeer a.die p.pa || !s.mayPerform a p then .next s
        else
          let (bs, s) := s.homeRead a.who g p.va p.pa p.len
          .next (s.modPart id i fun p => { p with bytes := bs, stat := .done })

/-- HOME_WRITE_APPLY (07 R162): a part of a write, or an atomic, in local or host memory is performed. Of an MST it is the ack record, once
more where no route led to it (13 R278, R291). -/
def execHomeWriteApply (id i : Nat) (g : Integ) (s : State) : Result State :=
  match NMap.find? s.accesses id with
  | none => .next s
  | some a =>
    match a.purpose, a.parts[i]? with
    | .mst _ _ (b :: bs) none, _ => .next (s.storeAck id (b :: bs))
    | .mst .., _ => .next s
    | _, none => .next s
    | purpose, some p =>
      if s.isPeer a.die p.pa || !s.mayPerform a p then .next s
      else
        match purpose with
        | .atom _ op n b c =>
          .next (match s.atomicStep id i a p g op n b c with
            | (some old, s) => s.modPart id i fun p => { p with bytes := leBytes n old, stat := .done }
            | (none, s) => s)
        | _ =>
          if p.write then
            .next (((s.homeWrite a.who g p.va p.pa p.bytes).modPart id i fun p => { p with stat := .done }).settle id)
          else .next s

/-- QUEUE_ENTRY_ARRIVAL (16 R374): an entry whose data have returned. -/
def execQueueEntryArrival (id : Nat) (s : State) : Result State :=
  match NMap.find? s.accesses id with
  | none => .next s
  | some a =>
    match a.purpose with
    | .entry code tag | .tileRead _ _ code tag =>
      if a.parts.isEmpty || !(a.parts.all (·.stat == .done)) then .next s
      else .next (s.enterQueue id a.uid code tag (ofBytes 4096 a.data))
    | _ => .next s

/-- DELAY_LINE_LANDING (03 R59, 06 R147): the due results of a sequencer land, unless its core is frozen (12 R273). -/
def execDelayLineLanding (uid : Nat) (e : Engine) (s : State) : Result State :=
  .next (if s.frozen uid then s else s.modTask uid fun t => t.land e)

end Sys2Proof.Machine
end

