-- ==== Sys2Proof/Machine/System.lean ====
section
/-!
DEFINITION. Control registers, TLBI and RNGADV (01 R23, R24, 04 R91, R93, 05 R113, R116, R119, 06 R127, 08 R185 to R187,
R195, R199, 12 R267, R269, R272, 14 R303, 16 R361, R362, 17 R392, R405).
-/

namespace Sys2Proof.Machine

/-! ### Control registers -/

/-- The level a register's read needs, and its write; none for a register no level writes (04 R93). -/
def csrLevels : Csr → Level × Option Level
  | .cfgPlace | .cfgTask | .cfgVd | .clkRef => (.t, none)
  | .rngKey | .rngCtrLo | .rngCtrHi | .arFlags | .arTrap => (.t, some .t)
  | .vmS2root | .vmVd => (.f, some .f)
  | _ => (.s, some .s)

/-- Whether a task's level is at least another (00 R10). -/
def Level.covers : Level → Level → Bool
  | .f, _ => true
  | .s, .f => false
  | .s, _ => true
  | .t, .t => true
  | .t, _ => false

/-- Codes of the levels in cfg.task (06 R127). -/
def Level.code : Level → Nat
  | .t => 0 | .s => 1 | .f => 2

/-- cfg.place of a task on its core: lengths and coordinates come from the module's record (01 R15, R24, 15 R342). -/
def State.place (s : State) (t : Task) : Nat :=
  let ((lx, ly, lz), (mx, my, mz)) := (s.module (s.moduleOf t.die)).placed
  let n := s.dieInModule t.die
  (lz / 2 - 1) * 2 ^ 30 + (ly / 2 - 1) * 2 ^ 27 + (lx / 2 - 1) * 2 ^ 24 + (2 * mz + n / 4) * 2 ^ 20 + (2 * my + n / 2 % 2) * 2 ^ 16 +
    (2 * mx + n % 2) * 2 ^ 12 + n * 2 ^ 8 + (t.core.getD 0) % coresPerDie

/-- cfg.task (06 R127). -/
def Task.cfg (t : Task) : Nat :=
  t.gang.toNat * 2 ^ 48 + t.prio.toNat * 2 ^ 42 + t.origin.toNat * 2 ^ 40 + t.level.code * 2 ^ 38 + t.quad * 2 ^ 32 + t.tid.toNat

/-- The value a control register reads as. -/
def State.csr (s : State) (c : Csr) : W64 :=
  let t := s.me
  match c with
  | .cfgPlace => BitVec.ofNat 64 (s.place t)
  | .cfgTask => BitVec.ofNat 64 t.cfg
  | .cfgVd => BitVec.ofNat 64 (b2n (s.vd t.vdKey).mig * 2 ^ 16 + t.vd)
  | .clkRef => (s.die t.die).clk
  | .rngKey => t.rngKey
  | .rngCtrLo => t.rngCtr.setWidth 64
  | .rngCtrHi => (t.rngCtr >>> 64).setWidth 64
  | .arFlags => t.arFlags.setWidth 64
  | .arTrap => t.arEn.setWidth 64 ||| (if t.arPend then 0x10000#64 else 0#64)
  | .trCause => t.trCode.setWidth 64 ||| (if t.trBusy then 0x8000000000000000#64 else 0#64)
  | .trEpc => t.trEpc
  | .trVal => t.trVal
  | .trFrom => t.trFrom
  | .trVec => t.trVec
  | .trEng => BitVec.ofNat 64 (t.trRun.toNat * 16 + t.trEng.toNat)
  | .exeOwn => BitVec.ofNat 64 (t.exeSpill.toNat * 2 ^ 16) ||| (if t.exeOwn then 0x8000000000000000#64 else 0#64)
  | .vmS1root => t.s1root
  | .vmAsid => t.asid.setWidth 64
  | .vmS2root => (s.vd t.vdKey).s2root
  | .vmVd => BitVec.ofNat 64 t.vd

/-- The failures of walks made in a task's present space are no longer taken: a new space governs its later accesses (08 R184). -/
def State.newSpace (s : State) : State :=
  { s with walks := s.walks.filter fun w =>
      !(w.2.failed && match w.2.by' with | .task u _ => u == s.cur.uid | _ => false) }

/-- A control register written: reserved and read-only bits stay (16 R361). A new root discards the die's copies of the two
records (08 R188). -/
def State.setCsr (s : State) (c : Csr) (v : W64) : State :=
  match c with
  | .rngKey => s.modMe fun t => { t with rngKey := v, conv0 := convLoad (bits v 31 0), conv1 := convLoad (bits v 63 32) }
  | .rngCtrLo => s.modMe fun t => { t with rngCtr := setBits t.rngCtr 0 64 v.toNat }
  | .rngCtrHi => s.modMe fun t => { t with rngCtr := setBits t.rngCtr 64 64 v.toNat }
  | .arFlags => s.modMe fun t => { t with arFlags := v.setWidth 9 }
  | .arTrap => s.modMe fun t => { t with arEn := v.setWidth 9 }
  | .trCause => s.modMe fun t => { t with trCode := v.setWidth 9 }
  | .trEpc => s.modMe fun t => { t with trEpc := v }
  | .trVal => s.modMe fun t => { t with trVal := v }
  | .trFrom => s.modMe fun t => { t with trFrom := v }
  | .trVec => s.modMe fun t => { t with trVec := v }
  | .exeOwn => s.modMe fun t => { t with exeSpill := (v >>> 16).setWidth 40 }
  | .vmS1root =>
    let old := s.me.s1root
    let new := v &&& 0x000FFFFFFFFFFFC0#64
    ((s.newSpace).dropSpaces s.me.die fun c => c.vd = s.me.vdKey && (c.root = old.toNat || c.root = new.toNat)).modMe
      fun t => { t with s1root := new }
  | .vmAsid => (s.newSpace).modMe fun t => { t with asid := v.setWidth 16 }
  | .vmS2root => s.modVd s.me.vdKey fun d => { d with s2root := v &&& 0x000FFFFFFFFFE000#64 }
  | .trEng | .vmVd | .cfgPlace | .cfgTask | .cfgVd | .clkRef => s

/-- The level checks of an access, in their order (16 R361). -/
def csrCheck (c : Csr) (write : Bool) (s : State) : Chk :=
  let l := s.me.priv
  if !l.covers (csrLevels c).1 then .trap Cause.priv 1#64
  else if write && !(match (csrLevels c).2 with | some w => l.covers w | none => false) then .trap Cause.priv 2#64
  else .ok

/-- A read or exchange: rd takes the old value, the register the new one if there is one. -/
def State.exchange (s : State) (rd : GReg) (c : Csr) (new : Option W64) : State :=
  let old := s.csr c
  (match new with | some v => s.setCsr c v | none => s).asyncResult rd old

/-- CSRR (04 R93, 16 R361). -/
def execCsrr (rd : GReg) (c : Csr) (s : State) : Result State :=
  issue (.csrr rd c) (csrCheck c false) (fun s => s.exchange rd c none) s

/-- CSRW (04 R93, 16 R361). -/
def execCsrw (rd ra : GReg) (c : Csr) (s : State) : Result State :=
  issue (.csrw rd ra c) (csrCheck c true) (fun s => s.exchange rd c (some (s.reg ra))) s

/-- CSRS (04 R93, 16 R361). -/
def execCsrs (rd ra : GReg) (c : Csr) (s : State) : Result State :=
  issue (.csrs rd ra c) (csrCheck c true) (fun s => s.exchange rd c (some (s.csr c ||| s.reg ra))) s

/-- CSRC (04 R93, 16 R361). -/
def execCsrc (rd ra : GReg) (c : Csr) (s : State) : Result State :=
  issue (.csrc rd ra c) (csrCheck c true) (fun s => s.exchange rd c (some (s.csr c &&& ~~~(s.reg ra)))) s

/-! ### RNGADV -/

/-- RNGADV (17 R392). -/
def execRngadv (ra rb : GReg) (s : State) : Result State :=
  issue (.rngadv ra rb) noCheck (fun s =>
    let step : BitVec 128 := (s.reg rb).setWidth 128 <<< 64 ||| (s.reg ra).setWidth 128
    s.modMe fun t => { t with rngCtr := t.rngCtr + step }) s

/-! ### TLBI (04 R91, 08 R195, 17 R405) -/

/-- The dies of a scope around a task (00 R11, 08 R195). -/
def State.diesOf (s : State) (die : Nat) : Scope → List Nat
  | .pkg => (List.range 8).map fun n => s.dieOf (s.moduleOf die) n
  | .pod => s.podOf (s.moduleOf die)
  | _ => [die]

/-- The executing stream, as TLBIs and barriers note it. -/
def State.whoNow (s : State) : Nat := s.cur.uid * 2 + b2n s.me.trBusy

/-- The TLBI the executing stream has under way. -/
def State.myTlbi (s : State) : Option (Nat × Tlbi) :=
  List.find? (fun b : Nat × Tlbi => b.2.who = s.whoNow) s.tlbis

/-- A TLBI as a die sees it: entries carry the number of their VD, so on a die of another module it meets the entries of the
VD with the same number there (08 R193, R195, log 52). -/
def State.shootOn (s : State) (die : Nat) (h : Shoot) : Shoot := { h with vd := vdKey (s.moduleOf die) (h.vd % 256) }

/-- The first half of a TLBI: on every die of its scope the shoot-down is logged and what it matches is dropped (08 R195);
at `.core` and `.quad` the last-level TLB keeps its entries. -/
def State.shoot (s : State) (sc : Scope) (h : Shoot) : State :=
  let t := s.me
  let core := t.core.getD 0
  let mine : List Nat := match sc with | .core => [core] | .quad => quadCores t.die (quadOf core) | _ => []
  match sc with
  | .core | .quad =>
    mine.foldl (fun s c => s.modCore c fun x => { x with tlb := x.tlb.filter fun e => !h.matches e }) (s.logShoot t.die h)
  | _ => (s.diesOf t.die sc).foldl (fun s d => (s.logShoot d (s.shootOn d h)).dropDie d (s.shootOn d h).matches) s

/-- Whether a walk has started and has not retired: one that has failed has, and one that waits for its fifth start has not begun
(08 R195, R196). -/
def Walk.underWay (w : Walk) : Bool := !w.failed && !w.waiting

/-- The waits of TLBI before it acts (08 R195), or for walks that started before it did. -/
def tlbiCheck (s : State) : Chk :=
  match s.myTlbi with
  | some (_, b) => if b.walks.any fun w => (NMap.find? s.walks w).any fun x => !x.failed then .stall false else .ok
  | none =>
    if s.accesses.any fun a => a.2.uid = s.cur.uid && a.2.drain == some 1 then .stall false else .ok

/-- A TLBI that has completed discards copies of space records (08 R188) and retries what it matches (08 R199). -/
def State.tlbiDone (s : State) (sc : Scope) (h : Shoot) : State :=
  let t := s.me
  let quad := match sc with | .core | .quad => some t.quad | _ => none
  (s.diesOf t.die sc).foldl (fun s d =>
    let h := s.shootOn d h
    let s := s.dropSpaces d fun c => c.vd = h.vd && (h.kind = 2 || (h.kind = 1 && c.asid = h.asid))
    ((s.retryHeld d quad h).retryCopies d quad h).retryAcks d quad h) s

/-- TLBI's effect: it shoots down, waits while a walk from before is still under way, and completes. -/
def State.tlbi (s : State) (sc : Scope) (h : Shoot) : State :=
  match s.myTlbi with
  | some (k, b) => ({ s with tlbis := NMap.erase s.tlbis k } : State).tlbiDone sc b.shoot
  | none =>
    let dies := s.diesOf s.me.die sc
    let s := s.shoot sc h
    let walks := (s.walks.filter fun w => dies.contains w.2.die && w.2.underWay).map (·.1)
    if walks.isEmpty then s.tlbiDone sc h
    else
      let (k, s) := s.newId
      ({ s with tlbis := s.tlbis.set k { who := s.whoNow, dies, walks, shoot := h } } : State).stallNow false

/-- TLBI kind 0: one page of one ASID of the executing VD. -/
def execTlbiVa (sc : Scope) (ra rb : GReg) (s : State) : Result State :=
  issue (.tlbiVa sc ra rb) (fun s => s.needS (tlbiCheck s)) (fun s =>
    let h : Shoot := { kind := 0, vd := s.me.vdKey, asid := bits (s.reg rb) 15 0, addr := bits (s.reg ra) 55 16 * 65536 }
    s.tlbi sc h) s

/-- TLBI kind 1: one ASID of the executing VD. -/
def execTlbiAsid (sc : Scope) (rb : GReg) (s : State) : Result State :=
  issue (.tlbiAsid sc rb) (fun s => s.needS (tlbiCheck s)) (fun s =>
    s.tlbi sc { kind := 1, vd := s.me.vdKey, asid := bits (s.reg rb) 15 0 }) s

/-- TLBI kind 2: the executing VD. -/
def execTlbiVd (sc : Scope) (s : State) : Result State :=
  issue (.tlbiVd sc) (fun s => s.needS (tlbiCheck s)) (fun s => s.tlbi sc { kind := 2, vd := s.me.vdKey }) s

/-- TLBI kind 3, at level F: one IPA page of a VD. -/
def execTlbiIpa (sc : Scope) (ra rb : GReg) (s : State) : Result State :=
  issue (.tlbiIpa sc ra rb) (fun s => s.needF (tlbiCheck s)) (fun s =>
    let h : Shoot := { kind := 3, vd := vdKey s.me.module (bits (s.reg rb) 7 0), addr := bits (s.reg ra) 51 16 * 65536 }
    s.tlbi sc h) s

/-- TLBI kind 4, at level F: a VD's stage 2. -/
def execTlbiS2Vd (sc : Scope) (rb : GReg) (s : State) : Result State :=
  issue (.tlbiS2Vd sc rb) (fun s => s.needF (tlbiCheck s)) (fun s =>
    s.tlbi sc { kind := 4, vd := vdKey s.me.module (bits (s.reg rb) 7 0) }) s

end Sys2Proof.Machine
end

