-- ==== Sys2Proof/Machine/Bells.lean ====
section
/-!
DEFINITION. BELLSET, BELLCLR and BELLQRY, the end of a runaway window, and the loss of a watched frame (07 R155 to R160, R167,
R168, R172, 16 R352 to R354).
-/

namespace Sys2Proof.Machine

/-- Entries of a die's bell table (07 R155). -/
def bellCount : Nat := 4096

/-- The translation of an address of a space for a read at level S, by a walk that reports no fault (07 R158). A first-touch page, which
no access serves here, and a host page whose kind is SO count as unmapped: DESIGN CHOICE, log 68. -/
def State.quietWalk (s : State) (vdk : Nat) (root : W64) (asid : BitVec 16) (va : Nat) : Option TlbEntry :=
  match (s.walk vdk root.toNat asid.toNat va .read).out with
  | .ok (.entry e) => if (e.refuses true .read).isSome then none else some e
  | _ => none

/-- What such walks for some addresses read. -/
def State.quietReads (s : State) (vdk : Nat) (root : W64) (asid : BitVec 16) (l : List Nat) : List Read :=
  (l.flatMap fun p => (s.walk vdk root.toNat asid.toNat p .read).reads).dedup

/-- They are made: links are crossed (13 R277), and a line that cannot be read is recorded as for any reader (14 R311, R312). -/
def State.quietLook (s : State) (x : Access) (root : W64) (asid : BitVec 16) (l : List Nat) : State :=
  let reads := s.quietReads x.vdk root asid l
  (s.crossReads x.die reads).walkRecords { vd := some x.vdk, die := x.die, tid := x.tid, eng := 0, acc := .read } reads

/-- The addresses at which the 64 KiB pages of a range begin, the range's base first. -/
def rangePages (va n : Nat) : List Nat :=
  (List.range ((va % 65536 + n + 65535) / 65536)).map fun i => if i = 0 then va else va / 65536 * 65536 + i * 65536

/-- A failed BELLSET (07 R172). -/
def bellStatus (n : Nat) : W64 := BitVec.ofNat 64 (2 ^ 63 + n)

/-- Entries of a die that a VD holds (07 R156). -/
def State.bellsHeld (s : State) (die vdk : Nat) : Nat :=
  (s.bells.filter fun b => b.1 / bellCount = die && b.2.state != .free && b.2.vd = vdk).length

/-- The lowest free index of a die. -/
def State.freeBell (s : State) (die : Nat) : Option Nat :=
  leastFrom 0 (fun i => (s.bell (die * bellCount + i)).state == .free) bellCount

/-- A bell entry armed from a range, its physical place, a descriptor, and the space and vector of the task that arms it
(07 R157, R158). -/
def armed (vdk : Nat) (base : W64) (len pa now : Nat) (d : List Byte) (root : W64) (asid : BitVec 16) (trVec : W64) : Bell :=
  let dw2 := dword d 2
  { state := .armed, vd := vdk, base, len, pa, entry := BitVec.ofNat 64 (dword d 0), stops := BitVec.ofNat 64 (dword d 1),
    gang := BitVec.ofNat 16 (dw2 / 2 ^ 48), prio := BitVec.ofNat 6 (dw2 / 2 ^ 42),
    level := if dw2 / 2 ^ 40 % 4 = 1 then .s else .t, mbox := dw2 / 2 ^ 39 % 2 == 1, arg := BitVec.ofNat 64 (dword d 3),
    key := BitVec.ofNat 64 (dword d 4), ctr := BitVec.ofNat 128 (dword d 5 + dword d 6 * 2 ^ 64),
    stride := BitVec.ofNat 64 (dword d 7), s1root := root, asid, trVec, winStart := now }

/-- Whether a BELLSET's operands are in form (07 R158). -/
def armForm (ra rb rc : W64) : Bool :=
  ra.toNat % 64 == 0 && rb.toNat % 64 == 0 && 64 ≤ rb.toNat && rb.toNat ≤ 2 ^ 20 && rc.toNat % 64 == 0

/-- The page of a BELLSET's range, or the status that refuses it (07 R158, R172). -/
def State.armRange (s : State) (x : Access) (a n : Nat) (root : W64) (asid : BitVec 16) : Except Nat TlbEntry :=
  if (rangePages a n).any fun p => (s.quietWalk x.vdk root asid p).isNone then .error 4 else
  match s.quietWalk x.vdk root asid a with
  | none => .error 4
  | some e =>
    if e.va + 2 ^ e.size < a + n then .error 2
    else if isHostPa (e.phys a) || s.home 0 (e.phys a) != x.die then .error 3
    else .ok e

/-- BELLSET's work: the value of rd, and the state (07 R158). The access says for whom it is done. -/
def State.bellset (s : State) (x : Access) (ra rb rc root : W64) (asid : BitVec 16) (trVec : W64) : W64 × State :=
  let a := ra.toNat
  let n := rb.toNat
  if !armForm ra rb rc then (bellStatus 2, s) else
  let s' := s.quietLook x root asid (rangePages a n)
  match s.armRange x a n root asid with
  | .error c => (bellStatus c, s')
  | .ok e =>
    let s' := s'.quietLook x root asid [rc.toNat]
    match s.quietWalk x.vdk root asid rc.toNat with
    | none => (bellStatus 4, s')
    | some f =>
      let w : Who := { vd := some x.vdk, die := x.die, tid := x.tid, eng := 0, acc := .read }
      let (d, s) := (s'.crossTo x.die (f.phys rc.toNat)).homeRead w .ok rc.toNat (f.phys rc.toNat) 64
      let dw2 := dword d 2
      if !pointerOk (BitVec.ofNat 64 (dword d 0)) || 1 < dw2 / 2 ^ 40 % 4 || dw2 % 2 ^ 39 != 0 then (bellStatus 5, s)
      else if s.bellQuota x.vdk x.die ≤ s.bellsHeld x.die x.vdk then (bellStatus 1, s)
      else
        match s.freeBell x.die with
        | none => (bellStatus 1, s)
        | some i =>
          (BitVec.ofNat 64 i, s.modBell (x.die * bellCount + i) fun _ =>
            armed x.vdk ra n (e.phys a) (s.die x.die).clk.toNat d root asid trVec)

/-- BELLSET (07 R158, 15 R330, 16 R354): the entry is armed at a later moment, from which on stores are watched. -/
def execBellset (rd ra rb rc : GReg) (s : State) : Result State :=
  issueClass (.bellset rd ra rb rc) .bl (fun s => s.needS .ok) (fun s =>
    let t := s.me
    (s.addAccess { cls := some .bl
                   purpose := .arm rd (s.reg ra) (s.reg rb) (s.reg rc) t.s1root t.asid t.trVec }).awaitReg rd) s

/-- Whether no route leads to a table that a BELLSET's walks read, or to its descriptor: it then waits (01 R16, R17, 13 R278). -/
def State.armAway (s : State) (x : Access) (ra rb rc root : W64) (asid : BitVec 16) : Bool :=
  let far (l : List Nat) : Bool := (s.quietReads x.vdk root asid l).any fun r => !s.routed x.die r.2
  armForm ra rb rc && (far (rangePages ra.toNat rb.toNat) ||
    match s.armRange x ra.toNat rb.toNat root asid, s.quietWalk x.vdk root asid rc.toNat with
    | .error _, _ => false
    | .ok _, some f => far [rc.toNat] || !s.routed x.die (f.phys rc.toNat)
    | .ok _, none => far [rc.toNat])

/-- The arming point of a BELLSET (07 R158): its result is then on its way. -/
def State.armNow (s : State) (id : Nat) (x : Access) (rd : GReg) (ra rb rc root : W64) (asid : BitVec 16) (trVec : W64) : State :=
  let (v, s) := s.bellset x ra rb rc root asid trVec
  { s with accesses := s.accesses.set id { x with purpose := .result rd v } }

/-- ASYNC_RESULT_LANDING (06 R145): a result lands in its register; that of a BELLSET comes after its arming point (07 R158), which
is a step of its own. -/
def execAsyncResultLanding (id : Nat) (s : State) : Result State :=
  match NMap.find? s.accesses id with
  | none => .next s
  | some a =>
    let back := a.parts.all (·.stat == .done)
    match a.purpose with
    | .result rd v => .next (s.landResult id a rd v)
    | .arm rd base len desc root asid trVec =>
      .next (if s.armAway a base len desc root asid then s else s.armNow id a rd base len desc root asid trVec)
    | .load rd w => if back then .next (s.landResult id a rd (widthValue w (leNat a.data))) else .next s
    | .atom rd _ _ _ _ => if back then .next (s.landResult id a rd (BitVec.ofNat 64 (leNat a.data))) else .next s
    | _ => .next s

/-- The checks of BELLCLR (07 R159). -/
def bellclrCheck (ra : GReg) (s : State) : Chk :=
  let v := s.reg ra
  let b := s.bell (s.me.die * bellCount + v.toNat)
  if bellCount ≤ v.toNat || b.state == .free || b.vd != s.me.vdKey then .trap Cause.bellIndex v else .ok

/-- BELLCLR (07 R159, 16 R352). -/
def execBellclr (ra : GReg) (s : State) : Result State :=
  issueClass (.bellclr ra) .bl (fun s => s.needS (bellclrCheck ra s))
    (fun s => s.modBell (s.me.die * bellCount + (s.reg ra).toNat) fun _ => {}) s

/-- Codes of the bell states (07 R160). -/
def BellState.code : BellState → Nat
  | .free => 0 | .armed => 1 | .pending => 2 | .disarmed => 3

/-- The state word of an entry (07 R160). -/
def Bell.word (b : Bell) : W64 :=
  let why := match b.state with | .disarmed => b.why.toNat | _ => 0
  BitVec.ofNat 64 (b.state.code * 2 ^ 62 + why * 2 ^ 60 + b.count * 2 ^ 32 + b.len)

/-- BELLQRY (07 R160, 16 R353). -/
def execBellqry (rd ra : GReg) (s : State) : Result State :=
  issueClass (.bellqry rd ra) .bl
    (fun s => if bellCount ≤ (s.reg ra).toNat then .trap Cause.bellIndex (s.reg ra) else .ok)
    (fun s =>
      let b := s.bell (s.me.die * bellCount + (s.reg ra).toNat)
      s.asyncResult rd (if b.state != .free && b.vd = s.me.vdKey then b.word else 0#64)) s

/-- RUNAWAY_WINDOW_END (07 R167): an entry's window of 1000 ticks has passed, and a new count begins. -/
def execRunawayWindowEnd (k : Nat) (s : State) : Result State :=
  .next (s.modBell k fun b => if b.watching then b.roll (s.die (k / bellCount)).clk.toNat else b)

/-- A frame's stage-2 mapping changes: the bells that watch part of it are disarmed, with records (07 R168). -/
def State.unmapBells (s : State) (vdk pa n : Nat) : State :=
  let hit := s.bells.filter fun b => b.2.vd = vdk && b.2.watching && decide (b.2.pa < pa + n ∧ pa < b.2.pa + b.2.len)
  let s := hit.foldl (fun s b => s.modBell b.1 fun b => { b with state := .disarmed, why := 3#2, count := 0 }) s
  s.records (hit.map fun b =>
    (vdk, { die := b.1 / bellCount, index := b.1 % bellCount, cause := Cause.bellUnmapped, dw2 := b.1 % bellCount }))

end Sys2Proof.Machine
end

