-- ==== Sys2Proof/Machine/Spill.lean ====
section
/-!
DEFINITION. The spill area of a handler: the delay-line image (06 R148, R149) and the sections of the interrupted state,
written by the first FORK of a handler and read back by TRET (12 R264, R269, R271). Log 11 says what the manual leaves
open about the layout.
-/

namespace Sys2Proof.Machine

/-! ### The delay-line image (06 R148) -/

def Slot.code : Slot → Nat
  | .m => 0 | .v0 => 1 | .v1 => 2 | .x => 3

/-- The pending results in landing order: ascending remaining count, then M, V0, V1, X. -/
def imageOrder (l : List Pend) : List Pend :=
  (List.range 133).flatMap fun r => dueOrder (l.filter fun p => p.rem = r)

/-- Kind and destination of a descriptor. -/
def Dest.image : Dest → Nat × Nat
  | .vec f => (0, f.field) | .reg r => (1, r.toNat) | .qs i => (2, 12 + i.toNat) | .plane => (3, 0)

/-- The payload of a descriptor. -/
def Pend.payload (p : Pend) : List Byte :=
  if p.slot = .m then [] else
  match p.dest with
  | .reg _ => toBytes 8 p.data
  | _ => toBytes 512 p.data

/-- A descriptor with its payload at an offset. `rem` counts the slots until landing, from 1. -/
def Pend.descriptor (p : Pend) (poff : Nat) : List Byte :=
  let (k, d) := p.dest.image
  leBytes 8 ((p.rem + 1) * 2 ^ 56 + p.slot.code * 2 ^ 54 + k * 2 ^ 52 + d * 2 ^ 40 + (if p.slot = .m then 0 else poff)) ++
    leBytes 8 p.flags.toNat

/-- Descriptors and payloads from an offset on. -/
def imageParts : List Pend → Nat → List Byte × List Byte
  | [], _ => ([], [])
  | p :: ps, off =>
    let (ds, ys) := imageParts ps (off + p.payload.length)
    (p.descriptor off ++ ds, p.payload ++ ys)

/-- The image of a delay line. -/
def delayImage (l : List Pend) : List Byte :=
  let l := imageOrder l
  let nm := (l.filter fun p => p.slot = .m).length
  let (ds, ys) := imageParts l (16 + 16 * l.length)
  leBytes 8 ((l.length - nm) * 256 + nm) ++ leBytes 8 0 ++ ds ++ ys

/-- The destination a descriptor names, if its slot accepts it (04 R74, 06 R149). -/
def imageDest (slot kind dest : Nat) : Option Dest :=
  match slot, kind with
  | 0, 3 => if dest = 0 then some .plane else none
  | 0, 0 => match Opnd.ofField dest with | some (.vec f) => (match f.dir with | .h => some (.vec f) | _ => none) | _ => none
  | _, 0 => if slot = 0 then none else match Opnd.ofField dest with | some (.vec f) => some (.vec f) | _ => none
  | 3, 1 => if dest < 16 then some (.reg (BitVec.ofNat 5 dest)) else none
  | _, 2 => if slot = 0 ∨ dest < 12 ∨ 15 < dest then none else some (.qs (BitVec.ofNat 2 (dest - 12)))
  | _, _ => none

/-- The slot of a code. -/
def Slot.ofCode (n : Nat) : Slot := match n with | 0 => .m | 1 => .v0 | 2 => .v1 | _ => .x

/-- A descriptor read back: none if it is discarded (06 R149). `saved` lists the operations of the open batch in order; an M descriptor
takes the next of them. -/
def readDescriptor (img : Nat → Nat → Nat) (i : Nat) (saved : List Pend) : Option Pend × List Pend :=
  let d0 := img (16 + 16 * i) 8
  let d1 := img (24 + 16 * i) 8
  let rem := d0 / 2 ^ 56
  let slot := d0 / 2 ^ 54 % 4
  let rest := if slot = 0 then saved.tail else saved
  if rem = 0 ∨ 132 < rem ∨ d0 / 2 ^ 32 % 2 ^ 8 ≠ 0 ∨ 512 ≤ d1 ∨ (slot = 0 ∧ d0 % 2 ^ 32 ≠ 0) then (none, rest) else
  match imageDest slot (d0 / 2 ^ 52 % 4) (d0 / 2 ^ 40 % 2 ^ 12) with
  | none => (none, rest)
  | some d =>
    let poff := d0 % 2 ^ 32
    let old := saved.headD { rem := 0, dest := d }
    let data : Entry := if slot = 0 then old.data else match d with
      | .reg _ => BitVec.ofNat 4096 (img poff 8)
      | _ => BitVec.ofNat 4096 (img poff 512)
    (some { rem := rem - 1, slot := Slot.ofCode slot, dest := d, data, flags := BitVec.ofNat 9 d1,
            mat := if slot = 0 then old.mat else none }, rest)

/-- A delay line read back: the results kept, and the number discarded. -/
def readImage (img : Nat → Nat → Nat) : Nat → Nat → List Pend → List Pend × Nat
  | 0, _, _ => ([], 0)
  | n + 1, i, saved =>
    let (p, saved) := readDescriptor img i saved
    let (ps, k) := readImage img n (i + 1) saved
    match p with
    | some p => (p :: ps, k)
    | none => (ps, k + 1)

/-! ### The sections (12 R264, R269) -/

/-- The 13 queue codes in the order of the frame (12 R264). -/
def queueCodes : List Nat := [0, 1, 2, 3, 4, 5, 6, 7, 8, 12, 13, 14, 15]

/-- Entries of a queue that have arrived without a gap. -/
def arrivedEntries : List QSlot → List Entry
  | ⟨_, some e⟩ :: l => e :: arrivedEntries l
  | _ => []

/-- A run of n entries read from an offset on. -/
def entriesAt (at' : Nat → Nat → Nat) (off n : Nat) : List Entry :=
  (List.range n).map fun i => BitVec.ofNat 4096 (at' (off + 512 * i) 512)

/-! ### Planes and the open batch (10 R229 to R232, log 11) -/

/-- Where the sections lie in a frame or a spill area (12 R264), and the parts of the section of planes and batch: each plane's 64 KiB,
the rows, the side entries, the bytes of the cursors' and planes' formats, and what each row of the batch is for. -/
def countsAt : Nat := 0x1420
def fillAt : Nat := 0x1435
def imageAt : Nat := 0x6000
def queuesAt : Nat := 0x14000
def planeAt : Nat := 0x2E000
def rowsAt : Nat := 0x4E000
def sidesAt : Nat := 0x5E800
def formatsAt : Nat := 0x5F000
def batchAt : Nat := 0x5F040
def frameRows : Nat := 0x60000
def wbufAt : Nat := 0xE0000

/-- Entries of a latch that a plane's 64 KiB hold. -/
def planeEntries : Nat := 128

/-- A format as a byte: 0 for none. -/
def fmtByte (f : Option Ty) : Byte := match f with | some t => BitVec.ofNat 8 (128 + t.code) | none => 0#8

/-- The format a byte stands for. -/
def byteFmt (n : Nat) : Option Ty := if n < 128 then none else Ty.ofCode (n - 128)

/-- The rows of the pending M-slot results, in landing order. -/
def batchRow (p : Pend) : Entry := match p.mat with | some m => m.elems | none => p.data

/-- What a row of the batch is for (10 R232, R233): its format, row of the side entry, plane, ov and mask, in 8 bytes. -/
def Pend.opBytes (p : Pend) : List Byte :=
  match p.mat with
  | none => leBytes 8 0
  | some m => leBytes 8 (1 + b2n m.plane * 2 + b2n m.ov * 4 + b2n m.mask.isSome * 8 + m.sideRow % 16 * 2 ^ 4 + m.aty.code % 16 * 2 ^ 8 +
      ((m.mask.map fun x => x.1.toNat * 2 ^ 16 + x.2.toNat * 2 ^ 32).getD 0))

/-- The operation that 8 such bytes say, with its row and its side entry. -/
def readOp (d : Nat) (row side : Entry) : Pend :=
  if d % 2 = 0 then { rem := 0, slot := .m, dest := .plane, data := row }
  else
    let m : MatOp := { aty := (Ty.ofCode (d / 2 ^ 8 % 16)).getD .bf16, elems := row, side, sideRow := d / 2 ^ 4 % 16
                       plane := d / 2 % 2 == 1, ov := d / 4 % 2 == 1
                       mask := if d / 8 % 2 = 0 then none else some (BitVec.ofNat 11 (d / 2 ^ 16), BitVec.ofNat 32 (d / 2 ^ 32)) }
    { rem := 0, slot := .m, dest := .plane, mat := some m }

/-- The M-slot results of a delay line in landing order. -/
def batchOf (pend : List Pend) : List Pend := (imageOrder pend).filter fun p => p.slot = .m

/-- The section of planes and batch. -/
def Task.planeParts (t : Task) (pend : List Pend) : List (Nat × List Byte) :=
  let latch (p : Plane) : List Byte := (p.latch.take planeEntries).flatMap (toBytes 512)
  let ms := batchOf pend
  let cur (q : Nat) : SideCur := t.side.getD q {}
  [(planeAt, latch t.plane0), (planeAt + 0x10000, latch t.plane1), (rowsAt, ms.flatMap fun p => toBytes 512 (batchRow p)),
   (sidesAt, (List.range 4).flatMap fun q => toBytes 512 (cur q).entry),
   (formatsAt, (List.range 4).map (fun q => fmtByte (some (cur q).aty)) ++
      [fmtByte t.plane0.fmt, fmtByte t.plane1.fmt, BitVec.ofNat 8 (b2n t.activePlane)] ++ leBytes 2 t.plane0.entry ++ leBytes 2 t.plane1.entry),
   (batchAt, ms.flatMap Pend.opBytes)]

/-- What that section does not hold of a task with a delay line. -/
def Task.beyond (t : Task) (pend : List Pend) : Beyond :=
  { cursors := (List.range 4).map fun q => (t.side.getD q {}).cur
    sides := (batchOf pend).map fun p => (p.mat.map (·.side)).getD 0#4096
    over0 := t.plane0.latch.drop planeEntries, over1 := t.plane1.latch.drop planeEntries }

/-- A plane read back: its format and its latch, whose entries past the plane's 64 KiB come from elsewhere. -/
def readPlane (at' : Nat → Nat → Nat) (i : Nat) (past : List Entry) : Plane :=
  match byteFmt (at' (formatsAt + 4 + i) 1) with
  | none => {}
  | some f =>
    let n := latchEntries f
    { fmt := some f, entry := at' (formatsAt + 7 + 2 * i) 2 % 512
      latch := entriesAt at' (planeAt + 0x10000 * i) (min n planeEntries) ++ past.take (n - planeEntries) }

/-- The side cursors read back: their formats and held side entries lie in the section, the cursors elsewhere. -/
def readSides (at' : Nat → Nat → Nat) (cursors : List Nat) : NMap SideCur :=
  (List.range 4).map fun q =>
    (q, { cur := cursors.getD q 0 % 16, aty := (byteFmt (at' (formatsAt + q) 1)).getD .mx4
          entry := (entriesAt at' (sidesAt + 512 * q) 1).headD 0#4096 })

/-- The operations of the batch, in landing order, as they read now. -/
def readBatch (at' : Nat → Nat → Nat) (n : Nat) (sides : List Entry) : List Pend :=
  (List.range n).map fun i =>
    readOp (at' (batchAt + 8 * i) 8) ((entriesAt at' (rowsAt + 512 * i) 1).headD 0#4096) (sides.getD i 0#4096)

/-! ### What a frame and a spill area both hold (12 R264, R269) -/

/-- Their sections: offsets and bytes. -/
def Task.spillParts (t : Task) (pend : List Pend) : List (Nat × List Byte) :=
  let q (c : Nat) := arrivedEntries (t.queues.getD c [])
  let row (z k : Nat) : Entry := t.frame.getD (z * 128 + k) 0#4096
  [(countsAt, (List.range 8).map (fun k => BitVec.ofNat 8 (tokenSum (t.tokens.getD k []))) ++
      queueCodes.map fun c => BitVec.ofNat 8 (q c).length),
   (fillAt, leBytes 2 t.fillCur), (imageAt, delayImage pend)] ++
  (queueCodes.zipIdx.map fun (c, i) => (queuesAt + i * 8192, (q c).flatMap (toBytes 512))) ++ t.planeParts pend ++
  ((List.range 1024).map fun i => (frameRows + 512 * i, toBytes 512 (row (i / 128) (i % 128)))) ++
  ((List.range 512).map fun i => (wbufAt + 512 * i, toBytes 512 (t.wbuf.getD i 0#4096)))

/-- The delay line of an image, with the number of descriptors discarded (06 R149). -/
def readLine (at' : Nat → Nat → Nat) (sides : List Entry) : List Pend × Nat :=
  let img (off n : Nat) : Nat := at' (imageAt + off) n
  let nm := img 0 8 % 256
  readImage img (img 0 8 / 256 % 256 + nm) 0 (readBatch at' nm sides)

/-- The sections read back into a task, with what they do not hold: the order of its tokens, the accesses and later places of its
queues, and what they have no room for. -/
def Task.readParts (t : Task) (at' : Nat → Nat → Nat) (ord : Nat → OrdCtx) (tags : NMap (List Nat)) (late : NMap (List QSlot))
    (x : Beyond) : Task :=
  let count (i : Nat) : Nat := min (at' (countsAt + 8 + i) 1) queueSize
  { t with
    tokens := (List.range 8).filterMap fun k =>
      let n := at' (countsAt + k) 1
      if n = 0 then none else some (k, [(n, ord k)])
    queues := queueCodes.zipIdx.map fun (c, i) =>
      (c, ((entriesAt at' (queuesAt + i * 8192) (count i)).zipIdx.map fun e => ⟨(tags.getD c []).getD e.2 0, some e.1⟩) ++ late.getD c [])
    fillCur := at' fillAt 2 % 512
    plane0 := readPlane at' 0 x.over0, plane1 := readPlane at' 1 x.over1, activePlane := at' (formatsAt + 6) 1 % 2 == 1
    side := readSides at' x.cursors
    frame := (entriesAt at' frameRows 1024).zipIdx.map fun e => (e.2, e.1)
    wbuf := (entriesAt at' wbufAt 512).zipIdx.map fun e => (e.2, e.1) }

/-- CONTEXT_IMAGE for a number of discarded descriptors, before the task's next slot (06 R149). -/
def Task.badImage (t : Task) (bad : Nat) : Task :=
  if bad = 0 then t
  else { t with raised := t.raised ++ [{ eng := .ctl, code := Cause.contextImage, val := BitVec.ofNat 64 (min bad 255) }] }

/-! ### The spill area (12 R269, R271) -/

/-- The address of the spill area (12 R269). -/
def Task.spillBase (t : Task) : Nat := t.exeSpill.toNat * 65536

/-- The area's size. -/
def spillSize : Nat := 0x120000

/-- Whether routes lead to everything that holds the area (01 R16, R17, 13 R278). -/
def State.areaRouted (s : State) (t : Task) (ps : List Piece) : Bool := ps.all fun p => s.routed t.die p.pa

/-- The physical address of an address of the area, by its translated pieces. -/
def pieceOf (ps : List Piece) (va : Nat) : Nat :=
  match ps.find? fun p => p.va ≤ va && va < p.va + p.len with
  | some p => p.pa + (va - p.va)
  | none => 0

/-- The pieces of a run of bytes that lie in one page each. -/
def inPages (ps : List Piece) (va : Nat) (bs : List Byte) : List (Nat × Nat × List Byte) :=
  (pagePieces (bs.length / 65536 + 2) va bs.length 0).map fun p => (p.1, pieceOf ps p.1, (bs.drop p.2.2).take p.2.1)

/-- The spill: the sections are written, and the handler's streams see empty queues, tokens and delay line (12 R269). -/
def State.spill (s : State) (uid : Nat) (ps : List Piece) : State :=
  let t := s.task uid
  match t.held with
  | none => s
  | some h =>
    let s := (t.spillParts h.exe.pend).foldl (fun s p =>
      (inPages ps (t.spillBase + p.1) p.2).foldl (fun s q => s.homeWrite (t.who .ctl .write) .ok q.1 q.2.1 q.2.2) s) s
    s.modTask uid fun u => { u with
      exeOwn := true, queues := [], tokens := [],
      held := some { h with late := t.queues.map fun q => (q.1, q.2.drop (arrived q.2))
                            tags := t.queues.map fun q => (q.1, (q.2.take (arrived q.2)).map (·.tag))
                            tokenOrd := t.tokens.map fun k => (k.1, k.2.foldl (fun c x => c.join x.2) {})
                            beyond := t.beyond h.exe.pend } }

/-- A number of n bytes at an address of the area, as the device reads it. -/
def State.areaNat (s : State) (vd : Option Nat) (ps : List Piece) (va n : Nat) : Nat :=
  leNat ((List.range n).map fun i => (s.fetch vd (pieceOf ps (va + i)) 1).headD 0#8)

/-- The records that reading the area gives rise to. -/
def State.areaNotes (s : State) (t : Task) (ps : List Piece) : Notes :=
  ps.flatMap fun p => s.readNotes (t.who .ctl .read) p.va p.pa p.len

/-- The accesses of spilled entries that the area no longer lists: they are over. -/
def Held.gone (h : Held) (t : Task) : List Nat :=
  h.tags.flatMap fun q => q.2.filter fun a => !((t.queues.getD q.1 []).any fun x => x.tag = a)

/-- The spilled sections read back at TRET from the area as it stands (12 R271): a bad descriptor raises CONTEXT_IMAGE before the next
slot (06 R149). -/
def State.unspill (s : State) (uid : Nat) (ps : List Piece) : State :=
  let t := s.task uid
  match t.held with
  | none => s
  | some h =>
    let at' (off n : Nat) : Nat := s.areaNat (some t.vdKey) ps (t.spillBase + off) n
    let (pend, bad) := readLine at' h.beyond.sides
    let u := (t.readParts at' (fun k => ((h.tokenOrd.getD k {}).join t.ctl.ord).ofToken) h.tags h.late h.beyond).badImage bad
    let notes := s.areaNotes t ps
    let s := s.setTask uid { u with
      exeOwn := false, held := some { h with exe := { h.exe with pend }, late := [], tags := [], tokenOrd := [], beyond := {} } }
    ({ s with accesses := (h.gone u).foldl NMap.erase s.accesses } : State).records notes

end Sys2Proof.Machine
end

