-- ==== Sys2Proof/Machine/Flags.lean ====
section
/-!
DEFINITION. Conditions (04 R78, 18 R421) and the computations on single values that set flags of ar.flags (05 R110 to R113,
18 R414, R415, R418 to R421, R425, R426, R432).
-/

namespace Sys2Proof.Machine

/-- A condition on two words of w bits (04 R78). -/
def condHolds {w : Nat} (c : Cond) (a b : BitVec w) : Bool :=
  match c with
  | .eq => a == b
  | .ne => a != b
  | .lt => a.toInt < b.toInt
  | .ge => b.toInt ≤ a.toInt
  | .ltn => a.toNat < b.toNat
  | .gen => b.toNat ≤ a.toNat
  | .tst => a &&& b != 0
  | .ntst => a &&& b == 0

/-- A float operation rounded once, or an integer one saturated (18 R414, R415). -/
def arith (t : Ty) (r : Rnd) (u : Nat) (fl : Num → Num → Num × Flags) (int : Int → Int → Int) (a b : Nat) : Nat × Flags :=
  match tyFmt t with
  | some f =>
    let (x, e) := fl (f.decode a) (f.decode b)
    let (p, g) := f.round r u x
    (p, e ||| g)
  | none => intSat t (int (intVal t a) (intVal t b))

/-- VADD (18 R420). -/
def addValue (t : Ty) (r : Rnd) (u a b : Nat) : Nat × Flags := arith t r u (Num.add (r = .rdn)) (· + ·) a b

/-- VSUB (18 R420). -/
def subValue (t : Ty) (r : Rnd) (u a b : Nat) : Nat × Flags :=
  arith t r u (fun x y => Num.add (r = .rdn) x y.neg) (· - ·) a b

/-- VMUL (18 R420). -/
def mulValue (t : Ty) (r : Rnd) (u a b : Nat) : Nat × Flags := arith t r u Num.mul (· * ·) a b

/-- VMIN and VMAX (18 R420): `less` says which of two values is the better. -/
def pickValue (t : Ty) (max : Bool) (a b : Nat) : Nat :=
  match tyFmt t with
  | some f =>
    let x := f.decode a
    let y := f.decode b
    if x.isNan || y.isNan then f.canon
    else if max then (if Num.ltz x y then b else a) else (if Num.ltz y x then b else a)
  | none =>
    let x := intVal t a
    let y := intVal t b
    if max then (if x < y then b else a) else (if y < x then b else a)

/-- VSHL and VSHR (18 R420). -/
def shiftValue (t : Ty) (left : Bool) (a b : Nat) : Nat :=
  let w := tyWidth t
  let sh := b % 2 ^ w
  if left then (if w ≤ sh then 0 else a * 2 ^ sh % 2 ^ w)
  else if tySigned t then (BitVec.ofInt w (intVal t a / (2 : Int) ^ (min sh w))).toNat
  else if w ≤ sh then 0 else a % 2 ^ w / 2 ^ sh

/-- The conditions of VCMP (18 R421). -/
def vcondHolds (t : Ty) (c : VCond) (a b : Nat) : Bool :=
  match tyFmt t with
  | some f =>
    let x := f.decode a
    let y := f.decode b
    let nan := x.isNan || y.isNan
    match c with
    | .eq => Num.eq x y
    | .ne => !Num.eq x y
    | .lt => Num.lt x y
    | .le => !nan && !Num.lt y x
    | .gt => Num.lt y x
    | .ge => !nan && !Num.lt x y
    | .un => nan
    | .or => !nan
  | none =>
    let x := intVal t a
    let y := intVal t b
    match c with
    | .eq => x == y | .ne => x != y | .lt => x < y | .le => x ≤ y | .gt => y < x | .ge => y ≤ x
    | .un => false | .or => true

/-- VCMP writes all bits of the value or none (18 R420). -/
def cmpValue (t : Ty) (c : VCond) (a b : Nat) : Nat := if vcondHolds t c a b then 2 ^ tyWidth t - 1 else 0

/-- VABS (18 R418). -/
def absValue (t : Ty) (a : Nat) : Nat × Flags :=
  match tyFmt t with
  | some f => (if (f.decode a).isNan then f.canon else a % 2 ^ (tyWidth t - 1), 0#9)
  | none => intSat t (intVal t a).natAbs

/-- VNEG (18 R418). -/
def negValue (t : Ty) (a : Nat) : Nat × Flags :=
  match tyFmt t with
  | some f => (if (f.decode a).isNan then f.canon else (a + 2 ^ (tyWidth t - 1)) % 2 ^ tyWidth t, 0#9)
  | none => intSat t (-intVal t a)

/-- A function of one float, rounded once (18 R418, R419). -/
def funValue (fn : Num → Num × Flags) (t : Ty) (r : Rnd) (u a : Nat) : Nat × Flags :=
  match tyFmt t with
  | some f =>
    let (x, e) := fn (f.decode a)
    let (p, g) := f.round r u x
    (p, e ||| g)
  | none => (0, 0#9)

/-- A fused product and sum, rounded once (18 R425): the product is negated or the addend is. -/
def fusedValue (t : Ty) (r : Rnd) (u : Nat) (negProd negAdd : Bool) (a b c : Nat) : Nat × Flags :=
  match tyFmt t with
  | some f =>
    let (p, e) := Num.mul (f.decode a) (f.decode b)
    let p := if negProd then p.neg else p
    let z := f.decode c
    let (x, g) := Num.add (r = .rdn) p (if negAdd then z.neg else z)
    let (v, h) := f.round r u x
    (v, e ||| g ||| h)
  | none => (0, 0#9)

/-- VLUT (18 R426): t holds the table. -/
def lutValue (ty : Ty) (r : Rnd) (u : Nat) (tab : Entry) (x : Nat) : Nat × Flags :=
  if ty = .n32 then ((lane tab (min (x % 2 ^ 32) 127)).toNat, 0#9) else
  let entry (i : Nat) : Num := f32val (lane tab i)
  let out (v : Num) (f : Flags) : Nat × Flags := let (p, g) := fmtF32.round r u v; (p, f ||| g)
  match fmtF32.decode x with
  | .nan => (fmtF32.canon, flNV)
  | .inf neg => out (entry (if neg then 0 else 127)) 0#9
  | .fin neg n d =>
    if neg || n == 0 then out (entry 0) 0#9
    else if 127 * d ≤ n then out (entry 127) 0#9
    else
      let i := n / d
      if n % d = 0 then out (entry i) 0#9 else
      let (df, f1) := Num.add (r = .rdn) (entry (i + 1)) (entry i).neg
      let (p, f2) := Num.mul (.fin false (n % d) d) df
      let (v, f3) := Num.add (r = .rdn) (entry i) p
      out v (f1 ||| f2 ||| f3)

/-! ### Scans (18 R432) -/

/-- A running float sum: the pair, whether every value so far is -0, whether every value is +0, and the flags of the
additions. -/
structure SumState where
  pair : W32 × W32 := (0#32, 0#32)
  negs : Bool := true
  poss : Bool := true
  fl : Flags := 0#9

/-- The value e of a float type as an f32 pattern. -/
def asF32 (t : Ty) (a : Nat) : W32 := (fl32 (tyVal t a)).1

/-- One more value in a running sum; the first one is the pair itself. -/
def SumState.add (st : SumState) (first : Bool) (x : W32) : SumState :=
  let z := (x, 0#32)
  let (p, f) := if first then (z, 0#9) else cpAdd st.pair z
  { pair := p, negs := st.negs && x == 0x80000000#32, poss := st.poss && x == 0#32, fl := st.fl ||| (f &&& (flNV ||| flOF)) }

/-- What a running sum delivers: the exact sum of the pair rounded once, a zero with the sign of 18 R414. -/
def SumState.out (st : SumState) (t : Ty) (r : Rnd) (u : Nat) : Nat × Flags :=
  match tyFmt t with
  | none => (0, 0#9)
  | some f =>
    let (x, g) := Num.add (r = .rdn) (f32val st.pair.1) (f32val st.pair.2)
    let x := if x.isZero then .fin (st.negs || (r == .rdn && !st.poss)) 0 1 else x
    let (p, h) := f.round r u x
    (p, g ||| h)

/-- The float sums of the prefixes of a list: delivered values with their own flags, and the flags of the additions. -/
def floatScan (t : Ty) (r : Rnd) (u : Nat → Nat) : Nat → SumState → List Nat → List (Nat × Flags) × Flags
  | _, st, [] => ([], st.fl)
  | e, st, x :: xs =>
    let st := st.add (e == 0) (asF32 t x)
    let (rest, f) := floatScan t r u (e + 1) st xs
    (st.out t r (u e) :: rest, f)

/-- The saturated integer sums of the prefixes of a list. -/
def intScan (t : Ty) : Int → List Nat → List (Nat × Flags)
  | _, [] => []
  | acc, x :: xs => let z := acc + intVal t x; intSat t z :: intScan t z xs

/-- The maxima or minima of the prefixes of a list. -/
def pickScan (t : Ty) (max : Bool) : Option Nat → List Nat → List (Nat × Flags)
  | _, [] => []
  | none, x :: xs =>
    let y := pickValue t max x x
    (y, 0#9) :: pickScan t max (some y) xs
  | some b, x :: xs =>
    let y := pickValue t max b x
    (y, 0#9) :: pickScan t max (some y) xs

/-- One scan in ascending order: the values out[0 .. N-1] and the flags of additions (18 R432). -/
def scan (op : RedOp) (t : Ty) (r : Rnd) (u : Nat → Nat) (xs : List Nat) : List (Nat × Flags) × Flags :=
  match op with
  | .sum => if (tyFmt t).isSome then floatScan t r u 0 {} xs else (intScan t 0 xs, 0#9)
  | .max => (pickScan t true none xs, 0#9)
  | .min => (pickScan t false none xs, 0#9)

/-! ### Ranking (10 R236, 18 R427) -/

/-- Whether value b ranks strictly above value a: numerically, -0 equal to +0, a NaN below every other value. -/
def ranksAbove (t : Ty) (b a : Nat) : Bool :=
  match tyFmt t with
  | some f =>
    let x := f.decode b
    let y := f.decode a
    !x.isNan && (y.isNan || Num.lt y x)
  | none => intVal t a < intVal t b

/-- Insertion into a list ranked in descending order; equal values keep ascending index. -/
def rankInsert (t : Ty) (p : Nat × Nat) : List (Nat × Nat) → List (Nat × Nat)
  | [] => [p]
  | q :: qs => if ranksAbove t p.2 q.2 then p :: q :: qs else q :: rankInsert t p qs

/-- Values with their indices, ranked. -/
def ranked (t : Ty) (xs : List Nat) : List (Nat × Nat) :=
  (xs.zipIdx).foldl (fun l p => rankInsert t (p.2, p.1) l) []

/-- The index and value of the largest (18 R427). -/
def largest (t : Ty) (xs : List Nat) : Nat × Nat :=
  match xs with
  | [] => (0, 0)
  | x :: rest => (rest.zipIdx).foldl (fun b p => if ranksAbove t p.1 b.2 then (p.2 + 1, p.1) else b) (0, x)

end Sys2Proof.Machine
end

