-- ==== Sys2Proof/Machine/Stops.lean ====
section
/-!
DEFINITION. Stop tables and what a stop keeps (03 R62 to R64, R454, 12 R263); entering a line and forming the instruction or the bundle at
a word (02 R31, 03 R53 to R58, 04 R99, R101), which a stop needs as an issue does.
-/

namespace Sys2Proof.Machine

/-! ### Reading a stop table (03 R454) -/

/-- The space through which a stop table is read: the task's as it stood at the stop request, or as it stands while an
arithmetic trap looks for a stop point (03 R454, 12 R272). -/
def Task.tableSpace (t : Task) (en : Engine) : W64 × BitVec 16 :=
  match (t.eng en).stop with | .none => (t.s1root, t.asid) | _ => t.stopSpace

/-- What came of a read of a stop table: a doubleword, a failure, or no route to what it needs (13 R278). -/
inductive TableRead | value (v : Nat) | fails | away
  deriving DecidableEq, Repr

/-- A doubleword at a virtual address of a task, read as an ordinary read of memory at the task's level, each page of it through its own
translation (09 R208): without a trap or a record of a failed translation, and with the record of a line that fails its checks
(03 R454, 14 R311). -/
def State.readTable (s : State) (uid : Nat) (sp : W64 × BitVec 16) (va : Nat) : TableRead × State :=
  let t := s.task uid
  let w : Who := { vd := some t.vdKey, die := t.die, tid := t.tid.toNat, acc := .read }
  match s.piecesNow { who := w, root := sp.1.toNat, asid := sp.2.toNat, isS := t.priv.isS } va 8 with
  | (none, s) => (.away, s)
  | (some (.error _), s) => (.fails, s)
  | (some (.ok ps), s) =>
    let (bs, s) := ps.foldl (fun r p => let (b, s) := r.2.homeRead w .ok p.va p.pa p.len; (r.1 ++ b, s)) (([] : List Byte), s)
    (.value (leNat bs), s)

/-- A doubleword of a stop table that a search needs. Within one stop request every doubleword is read once, and the table
counts as empty from the first read that fails (03 R454); the search for an arithmetic trap's stop point keeps nothing. -/
def State.tableWord (s : State) (uid : Nat) (en : Engine) (va : Nat) : TableRead × State :=
  let t := s.task uid
  match (t.eng en).stop with
  | .none => s.readTable uid (t.tableSpace en) va
  | _ =>
    if t.stopEmpty then (.fails, s) else
    match NMap.find? t.stopReads va with
    | some v => (.value v, s)
    | none =>
      match s.readTable uid (t.tableSpace en) va with
      | (.value v, s) => (.value v, s.modTask uid fun t => { t with stopReads := t.stopReads.set va v })
      | (.fails, s) => (.fails, s.modTask uid fun t => { t with stopEmpty := true })
      | (.away, s) => (.away, s)

/-- What a search of a stop table finds: no entry, one, or nothing yet, since a read waits for a route. -/
inductive Listing | absent | found (m : StopMask) | away
  deriving DecidableEq, Repr

/-- What a read that gives no value leaves of a search. -/
def TableRead.ends : TableRead → Listing
  | .away => .away
  | _ => .absent

/-- The search of a stop table, sorted by its first doublewords, for a key between two indices. The manual fixes no order of
search (03 R64): DESIGN CHOICE, log 20, it halves the table. -/
def State.searchStops (uid : Nat) (en : Engine) (base key : Nat) : Nat → Nat → Nat → State → Listing × State
  | 0, _, _, s => (.absent, s)
  | n + 1, lo, hi, s =>
    if hi ≤ lo then (.absent, s) else
    let mid := (lo + hi) / 2
    match s.tableWord uid en (base + 16 + 16 * mid) with
    | (.value k, s) =>
      if k = key then
        (match s.tableWord uid en (base + 24 + 16 * mid) with
         | (.value d, s) =>
           (if d % 2 ^ 23 = 0 then .found ⟨d / 2 ^ 32, d / 2 ^ 24 % 256, d / 2 ^ 23 % 2 == 1⟩ else .absent, s)
         | (r, s) => (r.ends, s))
      else if k < key then State.searchStops uid en base key n (mid + 1) hi s
      else State.searchStops uid en base key n lo mid s
    | (r, s) => (r.ends, s)

/-- The stop point of a task's table at a code pointer of a sequencer, if it lists one (03 R62 to R64, R454). The sequencer has
entered the line, so an entry that the line's link word makes unreachable is never met (03 R64). An entry that names a word inside a
bundle, or the second word of an instruction, is never met either, since a sequencer's code pointer never rests there (03 R63; the
manual states nothing for it: DESIGN CHOICE, log 20). -/
def State.listed (s : State) (uid : Nat) (en : Engine) : Listing × State :=
  let t := s.task uid
  let pc := (t.eng en).pc
  let base := t.stops.toNat
  if ptrWord pc = 0 then (.absent, s) else
  match s.tableWord uid en base with
  | (.value h, s) =>
    if h % 2 ^ 32 = 0x53544F50 then State.searchStops uid en base (pc.toNat + en.code) 33 0 (h / 2 ^ 32) s else (.absent, s)
  | (r, s) => (r.ends, s)

/-! ### What a stop keeps (03 R63, 12 R263) -/

/-- Whether a mask names a register. -/
def StopMask.names (m : StopMask) (r : GReg) : Bool := m.gmask / 2 ^ r.toNat % 2 == 1

/-- State that a stop point's mask omits is zeroed, and a delay line that is not live is discarded (03 R63, 12 R263). A register
outside the mask gets no result that was still on its way to it. -/
def Task.keep (t : Task) (en : Engine) (m : StopMask) : Task :=
  let t := t.modEng en fun e =>
    { e with regs := e.regs.filter (fun p => m.gmask / 2 ^ p.1 % 2 == 1), async := e.async.filter m.names }
  if en = .exe then
    let t := { t with frame := t.frame.filter fun p => m.zmask / 2 ^ (p.1 / 128) % 2 == 1 }
    if m.dl then t else t.modEng .exe fun e => { e with pend := [] }
  else t.modEng en fun e => { e with pend := e.pend.filter fun p => match p.dest with | .reg r => m.names r | _ => true }

/-- The destination of an access whose register a mask omits: nothing (03 R63). -/
def Purpose.forget (p : Purpose) (m : StopMask) : Purpose :=
  let keep (r : GReg) : GReg := if m.names r then r else 0#5
  match p with
  | .load rd w => .load (keep rd) w
  | .atom rd op n b c => .atom (keep rd) op n b c
  | .result rd v => .result (keep rd) v
  | .reply rd => .reply (keep rd)
  | .arm rd base len desc root asid trVec => .arm (keep rd) base len desc root asid trVec
  | p => p

/-- A sequencer halts under a mask, or whole (12 R263). -/
def State.halt (s : State) (uid : Nat) (en : Engine) (m : Option StopMask) : State :=
  let s := match m with
    | none => s
    | some m => { s with accesses := s.accesses.map fun (a : Nat × Access) =>
        if a.2.uid = uid && a.2.eng = en && !a.2.handler then (a.1, { a.2 with purpose := a.2.purpose.forget m }) else a }
  (if en = .ctl then s.dropTlbis uid else s).modTask uid fun t =>
    let t := match m with | some m => { t.keep en m with masked := true } | none => t
    t.modEng en fun e => { e with stop := .stopped, stall := none }

/-- A stop request to a task's four sequencers (12 R263): an idle one stops at once, and so does a stalled one, before the
instruction it stalls on (06 R150). One that has stalled, and that something has let look again since, stops there if it still must wait. -/
def State.requestStop (s : State) (uid : Nat) : State :=
  let s := if (s.task uid).ctl.stop = .none ∧ (s.task uid).ctl.stall.isSome then s.dropTlbis uid else s
  s.modTask uid fun t =>
    let t := { t with stopSpace := (t.s1root, t.asid), stopReads := [], stopEmpty := false }
    t.mapEngs fun e =>
      match e.stop with
      | .none => if e.run = .idle ∨ e.stall.isSome then { e with stop := .stopped, stall := none } else { e with stop := .asked 0 }
      | _ => e

/-- The bound on slots after a stop request (12 R263) and after a pending arithmetic trap (12 R272). -/
def stopBound : Nat := 4096

/-- Whether a sequencer must stop before its next slot (12 R263). -/
def State.mustStop (s : State) (uid : Nat) (en : Engine) : Bool :=
  match ((s.task uid).eng en).stop with
  | .stopped | .point _ => true
  | .asked n => stopBound ≤ n
  | .none => false

/-! ### What keeps a task from issuing -/

/-- Whether a task has a raised trap to take now (12 R265). -/
def Task.traps (t : Task) : Bool := t.raised.any fun r => !r.atIssue && (!r.later || !t.trBusy)

/-- Whether the tasks of a VD issue (14 R305, R306). -/
def State.vdRuns (s : State) (vdk : Nat) : Bool := (s.vd vdk).state == .running && !(s.vd vdk).stopping

/-- Whether the tasks of a core may issue: the die serves and the core is not frozen (12 R273, 15 R331). -/
def State.coreRuns (s : State) (core : Nat) : Bool :=
  (match (s.die (core / coresPerDie)).service with | .early | .full => true | _ => false) &&
  !(s.core core).freeze

/-- Whether the arithmetic trap is taken before EXE's next slot (12 R272). -/
def State.arithDue (s : State) (uid : Nat) : Bool :=
  let t := s.task uid
  t.arPend && 1 ≤ t.arSlots && (stopBound < t.arSlots || t.arStop)

/-- A sequencer that has entered its line looks for a listed stop point before its next word, if it has been asked to stop
(12 R263) or, for EXE, if an arithmetic trap is pending (12 R272): whether it issues nothing now, having reached one, or because a read of
the table waits for a route (13 R278). -/
def State.meetStop (s : State) (uid : Nat) (en : Engine) : Bool × State :=
  let t := s.task uid
  let asked := match (t.eng en).stop with | .asked _ => !t.trBusy | _ => false
  let arith := en == .exe && t.arPend && 1 ≤ t.arSlots
  if !asked && !arith then (false, s) else
  match s.listed uid en with
  | (.absent, s) => (false, s)
  | (.away, s) => (true, s)
  | (.found m, s) =>
    (true, s.modTask uid fun t =>
      let t := if arith then { t with arStop := true } else t
      if asked then t.modEng en fun e => { e with stop := .point m } else t)

/-! ### Entering a line (03 R53, R58, 16 R357) -/

/-- The link checks of a line for a sequencer, in their order (03 R53, 04 R101). -/
def linkTrap (e : Engine) (l : Line) : Option Nat :=
  if linkEngine l ≠ e.code then some Cause.linkEngine
  else if linkCount l = 0 then some Cause.linkCount
  else if linkStop l && linkDelta l != 0 then some Cause.linkStop
  else none

/-- What came of the attempt to have a line to run. -/
inductive Entered | have (l : Line) (s : State) | ended (s : State)

/-- The value of the traps that report a link word with its count (12 R268). -/
def linkVal (l : Line) : W64 := BitVec.ofNat 64 (bits l 31 0 + linkCount l * 2 ^ 32)

/-- The sequencer's line, read anew when it enters one (03 R58); while no route leads to it, the fetch waits (13 R278). `s.cur` names
the task and engine. -/
def State.enterLine (s : State) : Entered :=
  let x := s.eng
  let t := s.me
  match x.line with
  | some l => if ptrWord x.pc = 0 then .ended (s.trapNow Cause.chainEnd (linkVal l)) else .have l s
  | none =>
    if !pointerOk x.pc && x.entry == .fresh then .ended (s.trapNow Cause.targetPointer x.pc) else
    match s.translate1 (.task s.cur.uid s.cur.eng) s.cur.uid (ptrLine x.pc).toNat .exec with
    | .miss s => .ended (s.stallNow false)
    | .fault f s => .ended ((s.takeFailed (.task s.cur.uid s.cur.eng)).faultNow s.cur.uid s.cur.eng f)
    | .ok ps s =>
      let pa := (ps.headD {}).pa
      if !s.routed t.die pa then .ended (s.stallNow false) else
      let w : Who := { vd := some t.vdKey, die := t.die, tid := t.tid.toNat, eng := s.cur.eng.code, acc := .exec }
      let (bs, s) := (s.crossTo t.die pa).homeRead w .ok (ptrLine x.pc).toNat pa 64
      let l : Line := ofBytes 512 bs
      match linkTrap s.cur.eng l with
      | some c => .ended (s.trapFrom c ((l.setWidth 32).setWidth 64) x.src)
      | none =>
        if linkCount l < ptrWord x.pc ∨ ptrWord x.pc = 0 then
          .ended (s.trapFrom (match x.entry with | .delta => Cause.targetWord | _ => Cause.targetPointer) x.pc x.src)
        else .have l (s.modEng fun e => { e with line := some l })

/-! ### Words and bundles (02 R31, 03 R57, 04 R99, R101) -/

/-- A member of a bundle: its word index and what it is. -/
structure Member where
  word : Nat := 1
  ins : Instr := .nop
  deriving DecidableEq, Repr, Inhabited

/-- Why the words at an index are no instruction: cause and value. -/
structure BadWord where
  code : Nat
  val : W64
  split : Bool := false

/-- The first word of an instruction with its index (12 R268). -/
def wordAt (l : Line) (w : Nat) : W64 := BitVec.ofNat 64 (lineWord l w + w * 2 ^ 32)

/-- The instruction at a word of a line, with every check of 04 R101 that needs no register. -/
def readMember (e : Engine) (l : Line) (w : Nat) : Except BadWord Instr :=
  let w0 := lineWord l w
  if wordsOf w0 = 2 ∧ linkCount l ≤ w then .error ⟨Cause.linkSplit, linkVal l, true⟩ else
  match decode e w0 (lineWord l (w + 1)) with
  | .error c => .error ⟨c, if c = Cause.qRole then BitVec.ofNat 64 (w0 / 2 ^ 21 % 8) else wordAt l w, false⟩
  | .ok i =>
    match i with
    | .grd _ _ _ span => (match grdTrap l w span with | some c => .error ⟨c, wordAt l w, false⟩ | none => .ok i)
    | i => .ok i

/-- Whether an instruction's last word carries S = 1. -/
def endsBundle (l : Line) (w : Nat) : Bool := lineWord l w / 2 ^ 31 == 1

/-- The members of the bundle at a word, the word after it, and whether it ends inside the line. -/
def readBundle (l : Line) : Nat → Nat → List Member → Except BadWord (List Member × Nat × Bool)
  | 0, w, acc => .ok (acc, w, false)
  | n + 1, w, acc =>
    if linkCount l < w then .ok (acc, w, false) else
    match readMember .exe l w with
    | .error b => .error b
    | .ok i =>
      let acc := acc ++ [⟨w, i⟩]
      let w' := w + wordsOf (lineWord l w)
      if endsBundle l w then .ok (acc, w', true) else readBundle l n w' acc

/-- A guard span walked through the members of a bundle in word order: which take effect, and what is left of it
(04 R94); GRD and RDV are never suppressed (04 R95). `rd` reads a register at the issue slot. -/
def guardWalk (rd : GReg → W64) : List Member → Nat → Bool → List Bool × Nat × Bool
  | [], n, v => ([], n, v)
  | m :: ms, n, v =>
    let (live, n', v') : Bool × Nat × Bool :=
      match m.ins with
      | .grd r b sense span => (true, span.toNat + 1, grdValue (rd r) b sense)
      | .rdv => (true, n - 1, v)
      | _ => if n = 0 then (true, 0, v) else (v, n - 1, v)
    let (ls, n'', v'') := guardWalk rd ms n' v'
    (live :: ls, n'', v'')

/-! ### The units of EXE that hold a bundle back (10 R236, 18 R431) -/

/-- The instructions before which EXE stalls while a unit works. -/
def isUnit (i : Instr) : Bool := match i with | .selk _ _ _ _ _ | .vqnt _ _ _ _ _ _ => true | _ => false

/-- Whether EXE stands before a bundle with such a member whose guard is not false, where a stop request may find it unissued (06 R150,
10 R236). -/
def Task.inUnit (t : Task) : Bool :=
  match t.exe.run, t.exe.line with
  | .running, some l =>
    (match readBundle l 16 (ptrWord t.exe.pc) [] with
     | .ok (ms, _, _) =>
       ((guardWalk (t.land .exe).exe.get ms t.exe.guardLeft t.exe.guardVal).1.zip ms).any fun p => p.1 && isUnit p.2.ins
     | .error _ => false)
  | _, _ => false

/-- EXE in its line and before such a bundle, once the line is entered and no drain of a crossing is left (03 R61): the state in which a
stop finds it there. -/
def State.unitStop (s : State) (uid : Nat) : Option State :=
  match ({ s with cur := { uid, eng := .exe } } : State).enterLine with
  | .ended _ => none
  | .have l u =>
    let t := u.task uid
    let drained := t.exe.pend.isEmpty && t.exe.async.isEmpty
    if t.inUnit && (t.exe.region == none || t.exe.region == some (linkExposed l) || drained) then some { u with cur := s.cur } else none

end Sys2Proof.Machine
end

