-- ==== Sys2Proof/Machine/Memory.lean ====
section
/-!
DEFINITION. Loads, stores, atomics, queue loads and stores, PREF, WAITV, fences and window instructions (09 R213 to R215,
R222, 16 R348 to R350, R365, R366, R370 to R375, 17 R389, R398 to R402, 18 R434, R437).
-/

namespace Sys2Proof.Machine

/-! ### LD and ST -/

/-- A load of n bytes into a register (16 R371). -/
def State.loadReg (s : State) (rt : GReg) (ea : Nat) (w : Width) (o : Ordering) : State :=
  s.memory ea (widthBytes w) .read o soLoad fun ps s =>
    let a : Access := { cls := some .ld, drain := some 0, purpose := .load rt w, parts := s.readParts s.me.die ps }
    (s.addAccess a).awaitReg rt

/-- A store of bytes (17 R398). -/
def State.storeBytes (s : State) (ea : Nat) (bs : List Byte) (cls : PathClass) (o : Ordering) (pop : State → State) : State :=
  s.memory ea bs.length .write o soStore fun ps s =>
    let a : Access := { cls := some cls, drain := some 1, purpose := .store, parts := s.writeParts s.me.die ps bs }
    pop (s.addAccess a)

/-- The short offset, scaled by the access size (04 R83). -/
def scaled (w : Width) (off : BitVec 11) : Int := off.toInt * (widthBytes w : Int)

/-- LD, short form (16 R371). -/
def execLd (rt ra : GReg) (w : Width) (off : BitVec 11) (s : State) : Result State :=
  issueClass (.ld rt ra w off) .ld noCheck (fun s => s.loadReg rt (s.address ra (scaled w off)) w {}) s

/-- LD, long form (16 R370, R371). -/
def execLdLong (rt ra : GReg) (w : Width) (ord : LdOrd) (off : BitVec 31) (s : State) : Result State :=
  issueClass (.ldLong rt ra w ord off) .ld noCheck (fun s => s.loadReg rt (s.address ra off.toInt) w (ldOrdering ord)) s

/-- The bytes a store of a width takes from a register. -/
def storeData (w : Width) (v : W64) : List Byte := toBytes (widthBytes w) v

/-- ST, short form (17 R398). -/
def execSt (rt ra : GReg) (w : Width) (off : BitVec 11) (s : State) : Result State :=
  issueClass (.st rt ra w off) .st noCheck (fun s =>
    s.storeBytes (s.address ra (scaled w off)) (storeData w (s.reg rt)) .st {} id) s

/-- ST, long form (17 R398). -/
def execStLong (rt ra : GReg) (w : Width) (ord : StOrd) (off : BitVec 31) (s : State) : Result State :=
  issueClass (.stLong rt ra w ord off) .st noCheck (fun s =>
    s.storeBytes (s.address ra off.toInt) (storeData w (s.reg rt)) .st (stOrdering ord) id) s

/-! ### Queue entries -/

/-- An address with its low six bits clear. -/
def lineAlign (a : Nat) : Nat := a / 64 * 64

/-- A queue has room for n more entries (16 R374). -/
def roomCheck (q : InQueue) (n : Nat) (s : State) : Chk :=
  if (s.me.queue q.queue).length + n ≤ queueSize then .ok else .stall true

/-- A QS queue holds n entries to pop (17 R402). -/
def popCheck (q : BitVec 2) (n : Nat) (s : State) : Chk :=
  if n ≤ arrived (s.me.queue (.qs q)) then .ok else .stall true

/-- n entries taken from a QS queue (17 R402). -/
def State.popN (s : State) (q : BitVec 2) (n : Nat) : State :=
  s.modMe fun t => t.setQueue (.qs q) ((t.queue (.qs q)).drop n)

/-- The n oldest entries of a QS queue. -/
def State.entries (s : State) (q : BitVec 2) (n : Nat) : List Entry :=
  ((s.me.queue (.qs q)).take n).map fun x => x.val.getD 0#4096

/-- One entry read into a queue: a place is reserved under the access's own number (16 R374). -/
def State.readEntry (s : State) (q : InQueue) (cls : PathClass) (ps : List Piece) : State :=
  let tag := s.nextId
  let a : Access := { cls := some cls, drain := some 0, purpose := .entry q.queue.code tag, parts := s.readParts s.me.die ps }
  (s.addAccess a).modMe fun t => t.reserve q.queue tag

/-- LDQ (16 R373). -/
def execLdq (q : InQueue) (ra : GReg) (off : BitVec 7) (s : State) : Result State :=
  issueClass (.ldq q ra off) .ld (roomCheck q 1) (fun s =>
    s.memory (lineAlign (s.address ra (off.toInt * 512))) 512 .read {} soLoad fun ps s => s.readEntry q .ld ps) s

/-- STQ (17 R400). -/
def execStq (q : BitVec 2) (ra : GReg) (off : BitVec 7) (s : State) : Result State :=
  issueClass (.stq q ra off) .st (popCheck q 1) (fun s =>
    let e := (s.entries q 1).headD 0#4096
    s.storeBytes (lineAlign (s.address ra (off.toInt * 512))) (toBytes 512 e) .st {} fun s => s.popN q 1) s

/-- The pieces of entry i of a run: those inside its 512 bytes, with offsets from its start. -/
def entryPieces (ps : List Piece) (i : Nat) : List Piece :=
  ps.filterMap fun p =>
    let lo := max p.off (512 * i)
    let hi := min (p.off + p.len) (512 * i + 512)
    if lo < hi then
      some { va := p.va + (lo - p.off), pa := p.pa + (lo - p.off), len := hi - lo, off := lo - 512 * i, ord := p.ord }
    else none

/-- LDR (16 R375). -/
def execLdr (q : InQueue) (ra : GReg) (cm1 : BitVec 4) (s : State) : Result State :=
  let n := cm1.toNat + 1
  issueClass (.ldr q ra cm1) .fb (roomCheck q n) (fun s =>
    s.memory (lineAlign (s.address ra 0)) (512 * n) .read {} soLoad fun ps s =>
      (List.range n).foldl (fun s i => s.readEntry q .fb (entryPieces ps i)) s) s

/-- STR (17 R401). -/
def execStr (q : BitVec 2) (ra : GReg) (cm1 : BitVec 4) (s : State) : Result State :=
  let n := cm1.toNat + 1
  issueClass (.str q ra cm1) .fb (popCheck q n) (fun s =>
    let bs := (s.entries q n).flatMap (toBytes 512)
    s.storeBytes (lineAlign (s.address ra 0)) bs .fb {} fun s => s.popN q n) s

/-! ### ATOM (16 R348 to R350) -/

/-- The alignment check of ATOM (09 R208). -/
def atomCheck (ra : GReg) (n : Nat) (s : State) : Chk :=
  if (s.reg ra).toNat % n = 0 then .ok else .trap Cause.atomAlign (s.reg ra)

/-- An atomic that issues (16 R349). -/
def State.atomic (s : State) (rd ra rb rc : GReg) (op : AtomOp) (n : Nat) (o : Ordering) : State :=
  let b := s.reg rb
  let c := s.reg rc
  s.memory (s.address ra 0) n .atomic o soStore fun ps s =>
    let parts := ps.map fun p => p.part true []
    let a : Access := { cls := some .st, drain := some 1, purpose := .atom rd op n b c, parts }
    (s.addAccess a).awaitReg rd

/-- Width in bytes of an atomic. -/
def atomBytes (wide : Bool) : Nat := if wide then 8 else 4

/-- ATOM.swap. -/
def execAtomSwap (rd ra rb : GReg) (sc : Scope) (wide : Bool) (o : AtomOrd) (s : State) : Result State :=
  issueClass (.atomSwap rd ra rb sc wide o) .st (atomCheck ra (atomBytes wide))
    (fun s => s.atomic rd ra rb 0#5 .swap (atomBytes wide) (atomOrdering o)) s

/-- ATOM.cas: rb is the new value, rc the expected one. -/
def execAtomCas (rd ra rb rc : GReg) (sc : Scope) (wide : Bool) (o : AtomOrd) (s : State) : Result State :=
  issueClass (.atomCas rd ra rb rc sc wide o) .st (atomCheck ra (atomBytes wide))
    (fun s => s.atomic rd ra rb rc .cas (atomBytes wide) (atomOrdering o)) s

/-- ATOM.add. -/
def execAtomAdd (rd ra rb : GReg) (sc : Scope) (wide : Bool) (o : AtomOrd) (s : State) : Result State :=
  issueClass (.atomAdd rd ra rb sc wide o) .st (atomCheck ra (atomBytes wide))
    (fun s => s.atomic rd ra rb 0#5 .add (atomBytes wide) (atomOrdering o)) s

/-- ATOM.and. -/
def execAtomAnd (rd ra rb : GReg) (sc : Scope) (wide : Bool) (o : AtomOrd) (s : State) : Result State :=
  issueClass (.atomAnd rd ra rb sc wide o) .st (atomCheck ra (atomBytes wide))
    (fun s => s.atomic rd ra rb 0#5 .and (atomBytes wide) (atomOrdering o)) s

/-- ATOM.or. -/
def execAtomOr (rd ra rb : GReg) (sc : Scope) (wide : Bool) (o : AtomOrd) (s : State) : Result State :=
  issueClass (.atomOr rd ra rb sc wide o) .st (atomCheck ra (atomBytes wide))
    (fun s => s.atomic rd ra rb 0#5 .or (atomBytes wide) (atomOrdering o)) s

/-- ATOM.xor. -/
def execAtomXor (rd ra rb : GReg) (sc : Scope) (wide : Bool) (o : AtomOrd) (s : State) : Result State :=
  issueClass (.atomXor rd ra rb sc wide o) .st (atomCheck ra (atomBytes wide))
    (fun s => s.atomic rd ra rb 0#5 .xor (atomBytes wide) (atomOrdering o)) s

/-- ATOM.min, signed. -/
def execAtomMin (rd ra rb : GReg) (sc : Scope) (wide : Bool) (o : AtomOrd) (s : State) : Result State :=
  issueClass (.atomMin rd ra rb sc wide o) .st (atomCheck ra (atomBytes wide))
    (fun s => s.atomic rd ra rb 0#5 .min (atomBytes wide) (atomOrdering o)) s

/-- ATOM.max, signed. -/
def execAtomMax (rd ra rb : GReg) (sc : Scope) (wide : Bool) (o : AtomOrd) (s : State) : Result State :=
  issueClass (.atomMax rd ra rb sc wide o) .st (atomCheck ra (atomBytes wide))
    (fun s => s.atomic rd ra rb 0#5 .max (atomBytes wide) (atomOrdering o)) s

/-- ATOM.minn, unsigned. -/
def execAtomMinn (rd ra rb : GReg) (sc : Scope) (wide : Bool) (o : AtomOrd) (s : State) : Result State :=
  issueClass (.atomMinn rd ra rb sc wide o) .st (atomCheck ra (atomBytes wide))
    (fun s => s.atomic rd ra rb 0#5 .minn (atomBytes wide) (atomOrdering o)) s

/-- ATOM.maxn, unsigned. -/
def execAtomMaxn (rd ra rb : GReg) (sc : Scope) (wide : Bool) (o : AtomOrd) (s : State) : Result State :=
  issueClass (.atomMaxn rd ra rb sc wide o) .st (atomCheck ra (atomBytes wide))
    (fun s => s.atomic rd ra rb 0#5 .maxn (atomBytes wide) (atomOrdering o)) s

/-- ATOM.fadd on f32. -/
def execAtomFadd (rd ra rb : GReg) (sc : Scope) (o : AtomOrd) (s : State) : Result State :=
  issueClass (.atomFadd rd ra rb sc o) .st (atomCheck ra 4) (fun s => s.atomic rd ra rb 0#5 .fadd 4 (atomOrdering o)) s

/-! ### PREF (17 R389) -/

/-- A translation warmed: done at once when it is cached, in both TLBs, else by a walk that nothing waits for. One that ends with nothing
filled is no use of its space's hardware identifier (DESIGN CHOICE, log 12). The state of the home's
verified node cache, which PREF.tree fills, has no effect that a program or observer can see, and is left out (log 5). -/
def State.prefetch (s : State) (ea : Nat) (tree : Bool) : State :=
  let t := s.me
  if 2 ^ 56 ≤ ea then s else
  let (e, s') := s.lookup t.die (t.core.getD 0) t.vdKey t.asid.toNat ea
  match e with
  | some e => if (e.refuses t.priv.isS .read).isSome || s.poisoned (e.phys ea) then s else s'.fillTlb t.die (some (t.core.getD 0)) e
  | none =>
    let id := s.nextId
    let a : Access := { cls := some .ld, drain := some 0, purpose := .pref tree }
    (s.addAccess a).addWalk (.pref id) s.cur.uid ea .read

/-- PREF (17 R389). -/
def execPref (ra : GReg) (off : BitVec 14) (s : State) : Result State :=
  issueClass (.pref ra off) .ld noCheck (fun s => s.prefetch (lineAlign (s.address ra (off.toInt * 64))) false) s

/-- PREF.tree (17 R389). -/
def execPrefTree (ra : GReg) (off : BitVec 14) (s : State) : Result State :=
  issueClass (.prefTree ra off) .ld noCheck (fun s => s.prefetch (lineAlign (s.address ra (off.toInt * 64))) true) s

/-! ### WAITV (12 R259, 18 R437) -/

/-- Ticks between polls (12 R259). -/
def pollTicks : Nat := 25

/-- Whether a poll is due. -/
def State.pollDue (s : State) (t : Task) : Bool :=
  match t.lastPoll with
  | none => true
  | some k => k + pollTicks ≤ (s.die t.die).clk.toNat

/-- The condition on the value read (18 R437). -/
def waitvHolds (c : Cond) (wide : Bool) (v b : W64) : Bool :=
  if wide then condHolds c v b else condHolds c (v.setWidth 32) (b.setWidth 32)

/-- One poll: the value at its instant, and the state. -/
def State.poll (s : State) (uid : Nat) (ps : List Piece) : W64 × State :=
  let t := s.task uid
  let w : Who := { vd := some t.vdKey, die := t.die, tid := t.tid.toNat, eng := Engine.lda.code, acc := .read }
  let p := ps.headD {}
  let (bs, s) := (s.crossTo t.die p.pa).homeRead w .ok p.va p.pa p.len
  (BitVec.ofNat 64 (leNat bs), s)

/-- A poll may not pass an earlier access to its location (09 R207), and it waits while no route leads to its home (13 R278). -/
def State.pollBlocked (s : State) (t : Task) (ps : List Piece) : Bool :=
  ps.any fun p => !s.routed t.die p.pa ||
    s.mustFollow { uid := s.cur.uid, known := t.lda.ord.known, fenced := t.lda.ord.fenced } (p.part false [])

/-- A poll that failed (12 R259). -/
def Task.failedPoll (t : Task) (now : Nat) : Task := { t with polls := t.polls + 1, lastPoll := some now }

/-- WAITV (18 R437): while no poll is due it stalls; a poll whose condition fails is counted, and it stalls on. -/
def execWaitv (rd ra rb : GReg) (c : Cond) (wide : Bool) (s : State) : Result State :=
  issueClass (.waitv rd ra rb c wide) .ld
    (fun s => if s.pollDue s.me then .ok else .stall false)
    (fun s =>
      let n := atomBytes wide
      s.memory (s.address ra 0 / n * n) n .read {} soLoad fun ps s =>
        if s.pollBlocked s.me ps then s.stallNow false
        else
          let (v, s) := s.poll s.cur.uid ps
          if waitvHolds c wide v (s.reg rb) then (s.modMe fun t => { t with polls := 0, lastPoll := none }).result 1 rd v
          else (s.modMe fun t => t.failedPoll (s.die t.die).clk.toNat).stallNow false) s

/-- The WAITV at which a task's LDA is stalled, with the engine's registers. -/
def State.waitingAt (s : State) (uid : Nat) : Option (GReg × GReg × Cond × Bool) :=
  let t := s.task uid
  match t.place, t.lastPoll, t.lda.run, t.lda.line with
  | .active, some _, .running, some l =>
    (match decode .lda (bits l (32 * ptrWord t.lda.pc + 31) (32 * ptrWord t.lda.pc)) 0 with
     | .ok (.waitv _ ra rb c wide) => some (ra, rb, c, wide)
     | _ => none)
  | _, _, _, _ => none

/-- Whether the LDA of an active task makes polls: its task is one that issues, and it has not been stopped (12 R263, R273, 14 R306). -/
def State.ldaPolls (s : State) (uid : Nat) : Bool :=
  let t := s.task uid
  (match t.core with | some c => s.coreRuns c | none => false) && s.vdRuns t.vdKey && !t.dying && !s.mustStop uid .lda

/-- WAITV_POLL (12 R259): a stalled WAITV polls again, unless it has been stopped or its core is frozen (12 R263, R273). A poll whose
condition holds leaves the loop when WAITV next tries to issue, which polls for itself. -/
def execWaitvPoll (uid : Nat) (s : State) : Result State :=
  match s.waitingAt uid with
  | none => .next s
  | some (ra, rb, c, wide) =>
    let t := s.task uid
    let n := atomBytes wide
    let va := (t.lda.get ra).toNat / n * n
    if !s.pollDue t || !s.ldaPolls uid then .next s else
    match s.lookup t.die (t.core.getD 0) t.vdKey t.asid.toNat va with
    | (none, _) => .next s
    | (some e, s) =>
      if (e.refuses t.priv.isS .read).isSome || !s.routed t.die (e.phys va) then .next s
      else
        let (v, s) := s.poll uid [{ e.piece va with len := n }]
        if waitvHolds c wide v (t.lda.get rb) then .next s
        else .next (s.modTask uid fun t => t.failedPoll (s.die t.die).clk.toNat)

/-! ### Fences (09 R214, R215, 16 R365, R366) -/

/-- FENCE (09 R214). -/
def execFence (sc : Scope) (s : State) : Result State :=
  issue (.fence sc) (fun s => if (s.pendingIds s.cur.uid Access.fences).isEmpty then .ok else .stall false)
    (fun s => (s.modEng fun e => { e with ord := e.ord.fenceAll }).acquireNow) s

/-- FENCE.acq (09 R214). -/
def execFenceAcq (sc : Scope) (s : State) : Result State :=
  issue (.fenceAcq sc) (fun s => if (s.pendingIds s.cur.uid Access.isLoad).isEmpty then .ok else .stall false)
    (fun s => (s.modEng fun e => { e with ord := e.ord.fenceAll }).acquireNow) s

/-- FENCE.rel (09 R214). -/
def execFenceRel (sc : Scope) (s : State) : Result State := issue (.fenceRel sc) noCheck State.release s

/-- FENCEX (09 R215, 16 R366). -/
def execFencex (sc : Scope) (a b : PathClass) (s : State) : Result State :=
  issue (.fencex sc a b) noCheck (fun s =>
    let ids := s.classIds s.cur.uid a
    s.modEng fun e => { e with ord := { e.ord with holds := e.ord.holds ++ [(b, ids)] } }) s

/-! ### Windows (09 R222, 14 R317, 18 R434) -/

/-- The window a task's register names, if its VD owns it or holds a grant (14 R317). -/
def State.myWindow (s : State) (ra : GReg) : Option Window :=
  let t := s.me
  match NMap.find? s.windows (t.module * 256 + bits (s.reg ra) 7 0) with
  | none => none
  | some w => if w.open' && w.serves t.vd then some w else none

/-- Whether an access that is not performed touches a window. -/
def Window.touches (w : Window) (a : Access) : Bool :=
  a.parts.any fun p => p.stat != .done && w.pas.any fun q => p.pa < q.1 + q.2.1 && q.1 < p.pa + p.len

/-- The wait of WREL and WACQ: every access that touches the window, an MST among them by the lines of its members, has been performed, and
every copy that touches it has completed (09 R222, log 40). -/
def windowCheck (ra : GReg) (s : State) : Chk :=
  match s.myWindow ra with
  | none => .ok
  | some w =>
    if s.accesses.any (fun a => a.2.uid = s.cur.uid && w.touches a.2) ||
        s.copies.any (fun c => c.2.uid = s.cur.uid && s.copyTouches c.2 w) then .stall false
    else .ok

/-- What WACQ and WREL order: everything of the task before them, where its VD holds the window; nothing where it does not
(14 R317). -/
def State.windowFence (s : State) (ra : GReg) : State :=
  match s.myWindow ra with
  | none => s
  | some _ => s.modEng fun e => { e with ord := e.ord.fenceAll }

/-- Whether a scope around a die and a core covers a task: its quad, die, package or pod holds the task's core (00 R11, 09 R205, R225). -/
def State.scopeCovers (s : State) (t : Task) (sc : Scope) (v : OldView) : Bool :=
  let other : Option Task := (List.find? (fun p : Nat × Task => v.of p.2.vdKey p.2.die p.2.tid.toNat) s.tasks).map (·.2)
  match sc with
  | .lane => false
  | .core => match other with | some u => u.core.isSome && u.core == t.core | none => false
  | .quad => v.die = t.die && (match other with | some u => u.quad == t.quad | none => false)
  | .die => v.die = t.die
  | .pkg => s.moduleOf v.die = s.moduleOf t.die
  | .pod => true

/-- WACQ (09 R222, 18 R434): the task then sees every store to the window that has been released to it. -/
def execWacq (ra : GReg) (sc : Scope) (s : State) : Result State :=
  issue (.wacq ra sc) (windowCheck ra) (fun s =>
    match s.myWindow ra with
    | none => s
    | some w => (s.windowFence ra).acquireWindow w s.me) s

/-- WREL (09 R222, 18 R434): the task's writes to the window are released to the tasks that its scope covers. -/
def execWrel (ra : GReg) (sc : Scope) (s : State) : Result State :=
  issue (.wrel ra sc) (windowCheck ra) (fun s =>
    let t := s.me
    match s.myWindow ra with
    | none => s
    | some w => (s.windowFence ra).releaseViews w t (s.scopeCovers t sc)) s

end Sys2Proof.Machine
end

