-- ==== Sys2Proof/Machine/Tiles.lean ====
section
/-!
DEFINITION. Tiles: allocation, drafts, row accesses, and the tile store's port (08 R173 to R181, 09 R217, 17 R403, R404, R407,
R408, R410, R411).
-/

namespace Sys2Proof.Machine

/-! ### The tile table -/

def Task.tile? (t : Task) (h : BitVec 8) : Option Tile := NMap.find? t.tiles h.toNat

/-- Rows of a band (08 R174). -/
def bandRows : Nat := 64

/-- Bands of a level (08 R174). -/
def bandCount (lvl : Bool) : Nat := if lvl then 256 else 64

/-- The bands of a level that resident tasks of the same core, or of the same quad, hold (08 R174). -/
def State.bandsUsed (s : State) (core : Nat) (lvl : Bool) : List Nat :=
  s.tasks.flatMap fun p =>
    let near : Bool := match p.2.core with
      | some c => if lvl then c / 4 == core / 4 else c == core
      | none => false
    if near then p.2.tiles.flatMap fun h => if h.2.lvl = lvl then h.2.bands else [] else []

/-- The free bands of a level, lowest first. -/
def State.bandsFree (s : State) (core : Nat) (lvl : Bool) : List Nat :=
  let used := s.bandsUsed core lvl
  (List.range (bandCount lvl)).filter fun b => !used.contains b

/-- The trap of a free handle (08 R202, 12 R268). -/
def handleTrap (h : BitVec 8) : Chk := .trap Cause.tileHandle (h.setWidth 64)

/-- A failed TALLOC (08 R177). -/
def tallocStatus (n : Nat) : W64 := BitVec.ofNat 64 (2 ^ 63 + n)

/-- TALLOC's work (08 R177). -/
def State.talloc (s : State) (h : BitVec 8) (n : Nat) (len : BitVec 3) (lvl : Bool) : W64 × State :=
  if (s.me.tile? h).isSome then (tallocStatus 1, s)
  else if n = 0 ∨ 4096 < n then (tallocStatus 2, s)
  else
    let b := (n + bandRows - 1) / bandRows
    let free := s.bandsFree (s.me.core.getD 0) lvl
    if free.length < b then (tallocStatus 3, s)
    else
      let x : Tile := { lvl, rows := n, rlen := (len.toNat + 1) * 64, bands := free.take b }
      (BitVec.ofNat 64 b, s.modMe fun t => { t with tiles := t.tiles.set h.toNat x })

/-- TALLOC (08 R177, 17 R403, R404). -/
def execTalloc (h : BitVec 8) (rd ra : GReg) (len : BitVec 3) (lvl : Bool) (s : State) : Result State :=
  issue (.talloc h rd ra len lvl) noCheck (fun s =>
    let (v, s') := s.talloc h (s.reg ra).toNat len lvl
    s'.asyncResult rd v) s

/-- Whether a tile access names a handle, and whether it writes; a TRD to QW does until the fill port has written its entry (17 R408). -/
def Access.tileUse (a : Access) (h : Nat) : Option Bool :=
  match a.purpose with
  | .tileRead g _ _ _ => if g = h then some false else none
  | .tileWrite g _ _ => if g = h then some true else none
  | .tileZero g _ => if g = h then some true else none
  | _ => none

/-- Whether a copy reads or writes a tile. -/
def Copy.tileUse (c : Copy) (h : Nat) : Option Bool :=
  match c.dst, c.src with
  | .tile g _, _ => if g = h then some true else (match c.src with | .tile k _ => if k = h then some false else none | _ => none)
  | _, .tile g _ => if g = h then some false else none
  | _, _ => none

/-- Whether accesses and copies of the executing task that name a handle are outstanding; the writers, or all. -/
def State.tileBusy (s : State) (h : BitVec 8) (all : Bool) : Bool :=
  let hit (u : Option Bool) : Bool := match u with | some w => all || w | none => false
  s.accesses.any (fun a => a.2.uid = s.cur.uid && hit (a.2.tileUse h.toNat)) ||
    s.copies.any fun c => c.2.uid = s.cur.uid && hit (c.2.tileUse h.toNat)

/-- TFREE (08 R178). -/
def execTfree (h : BitVec 8) (s : State) : Result State :=
  issue (.tfree h)
    (fun s => if (s.me.tile? h).isNone then handleTrap h else if s.tileBusy h true then .stall false else .ok)
    (fun s => s.modMe fun t => { t with tiles := NMap.erase t.tiles h.toNat }) s

/-- TILE_DRAFT with its reason (12 R268). -/
def draftTrap (h : BitVec 8) (why : Nat) : Chk := .trap Cause.tileDraft (BitVec.ofNat 64 (h.toNat + why * 256))

/-- The checks of TDRAFT (08 R180). -/
def tdraftCheck (h : BitVec 8) (ra : GReg) (s : State) : Chk :=
  match s.me.tile? h with
  | none => handleTrap h
  | some x =>
    if x.dopen then draftTrap h 1
    else if 65535 < (s.reg ra).toNat then draftTrap h 2
    else if s.tileBusy h false then .stall false else .ok

/-- TDRAFT (08 R180). -/
def execTdraft (h : BitVec 8) (rd ra : GReg) (s : State) : Result State :=
  issue (.tdraft h rd ra) (tdraftCheck h ra) (fun s =>
    let x := (s.me.tile? h).getD {}
    let y : Tile := { x with dopen := true, dbase := x.clen, dlen := 0, snap := s.me.rngCtr, dc := (s.reg ra).toNat }
    (s.modMe fun t => { t with tiles := t.tiles.set h.toNat y }).asyncResult rd (BitVec.ofNat 64 x.clen)) s

/-- The checks of TCOMMIT (08 R181). -/
def tcommitCheck (h : BitVec 8) (ra : GReg) (s : State) : Chk :=
  match s.me.tile? h with
  | none => handleTrap h
  | some x =>
    if s.tileBusy h false then .stall false
    else if !x.dopen then draftTrap h 3
    else if x.dlen < (s.reg ra).toNat then draftTrap h 4
    else .ok

/-- TCOMMIT (08 R181). -/
def execTcommit (h : BitVec 8) (rd ra : GReg) (s : State) : Result State :=
  issue (.tcommit h rd ra) (tcommitCheck h ra) (fun s =>
    let x := (s.me.tile? h).getD {}
    let n := (s.reg ra).toNat
    let keep (i : Nat) : Bool := i < x.dbase + n || x.dbase + x.dlen ≤ i
    let y : Tile := { x with data := x.data.filter (fun r => keep r.1), clen := x.dbase + n, dopen := false, dlen := 0 }
    (s.modMe fun t => { t with tiles := t.tiles.set h.toNat y,
                               rngCtr := x.snap + BitVec.ofNat 128 (n * x.dc) }).asyncResult rd (BitVec.ofNat 64 y.clen)) s

/-! ### Row accesses (17 R407) -/

/-- The row an instruction names. -/
def State.rowOf (s : State) (ra : GReg) (off : BitVec 7) : Nat := (s.reg ra).toNat + off.toNat

/-- The checks of 08 R176: the last row named is reported. -/
def rowCheck (h : BitVec 8) (last : Nat) (s : State) (k : Chk) : Chk :=
  match s.me.tile? h with
  | none => handleTrap h
  | some x => if x.rows ≤ last then .trap Cause.tileRow (BitVec.ofNat 64 (h.toNat + last % 2 ^ 48 * 2 ^ 16)) else k

/-- TRD (17 R408). -/
def execTrd (h : BitVec 8) (ra : GReg) (off : BitVec 7) (q : InQueue) (s : State) : Result State :=
  issue (.trd h ra off q) (fun s => rowCheck h (s.rowOf ra off) s (roomCheck q 1 s)) (fun s =>
    let tag := s.nextId
    let a : Access := { drain := some 3, purpose := .tileRead h.toNat (s.rowOf ra off) q.queue.code tag }
    (s.addAccess a).modMe fun t => t.reserve q.queue tag) s

/-- TWR (17 R410). -/
def execTwr (h : BitVec 8) (ra : GReg) (off : BitVec 7) (q : BitVec 2) (s : State) : Result State :=
  issue (.twr h ra off q) (fun s => rowCheck h (s.rowOf ra off) s (popCheck q 1 s)) (fun s =>
    let e := (s.entries q 1).headD 0#4096
    let a : Access := { drain := some 3, purpose := .tileWrite h.toNat (s.rowOf ra off) e }
    (s.addAccess a).popN q 1) s

/-- TZERO (17 R411). -/
def execTzero (h : BitVec 8) (ra : GReg) (off : BitVec 7) (nm1 : BitVec 4) (s : State) : Result State :=
  issue (.tzero h ra off nm1) (fun s => rowCheck h (s.rowOf ra off + nm1.toNat) s .ok) (fun s =>
    let a : Access := { drain := some 3, purpose := .tileZero h.toNat ((List.range (nm1.toNat + 1)).map (s.rowOf ra off + ·)) }
    s.addAccess a) s

/-! ### The port (09 R217) -/

/-- The bytes of a row (08 R175): those from rlen upward read as 0. -/
def Tile.rowAt (x : Tile) (i : Nat) : Entry := BitVec.ofNat 4096 ((x.data.getD i 0#4096).toNat % 2 ^ (8 * x.rlen))

/-- A completed write to row i extends the committed or the draft length (08 R179). -/
def Tile.extend (x : Tile) (i : Nat) : Tile :=
  if !x.dopen then { x with clen := max x.clen (i + 1) }
  else if x.dbase ≤ i then { x with dlen := max x.dlen (i - x.dbase + 1) }
  else x

/-- A row written (08 R175, R179). -/
def Tile.write (x : Tile) (i : Nat) (e : Entry) : Tile :=
  { x with data := x.data.set i (BitVec.ofNat 4096 (e.toNat % 2 ^ (8 * x.rlen))) }.extend i

/-- The rows an access has still to perform at the tile store's ports. -/
def Access.rowsLeft (a : Access) : List Nat :=
  match a.purpose with
  | .tileRead _ row _ _ => if a.parts.isEmpty && !a.entered then [row] else []
  | .tileWrite _ row _ => [row]
  | .tileZero _ rows => rows
  | _ => []

/-- Whether an access waits at the tile store's port. -/
def Access.atPort (a : Access) : Bool := !a.rowsLeft.isEmpty

/-- The handle of a tile access. -/
def Access.handle (a : Access) : Nat :=
  match a.purpose with | .tileRead h .. | .tileWrite h .. | .tileZero h _ => h | _ => 0

/-- The bank of a row of a tile (08 R174): its level and the row's number in a band. -/
def Task.bank (t : Task) (h row : Nat) : Nat := b2n (t.tiles.getD h {}).lvl * bandRows + row % bandRows

/-- What one sequencer's tile accesses may perform next: at every bank's port the oldest of them comes first (09 R217), and the
rows of a TZERO come one after another (17 R411). Each is an access and one of its rows, as access × 65536 + row. -/
def State.portHeads (s : State) (uid : Nat) (e : Engine) : List Nat :=
  let t := s.task uid
  (s.accesses.foldl (fun (r : List Nat × List Nat) (p : Nat × Access) =>
    if p.2.uid = uid && p.2.eng = e then
      p.2.rowsLeft.foldl (fun r row =>
        let b := t.bank p.2.handle row
        if r.2.contains b then r
        else (if p.2.rowsLeft.head? = some row then r.1 ++ [p.1 * 65536 + row] else r.1, b :: r.2)) r
    else r) ([], [])).1

/-- The tile store performs, for one sequencer, a row access that is the oldest at its bank's port (09 R217). A frozen core's does
nothing (12 R273). -/
def State.tilePort (s : State) (uid : Nat) (e : Engine) : State :=
  let heads := s.portHeads uid e
  if heads.isEmpty || s.frozen uid then s else
  let (x, s) := s.pick heads
  let id := x / 65536
  let row := x % 65536
  match NMap.find? s.accesses id with
  | none => s
  | some a =>
    let tile (h : Nat) : Tile := (s.task uid).tiles.getD h {}
    let put (h : Nat) (x : Tile) : State := s.modTask uid fun t => { t with tiles := t.tiles.set h x }
    match a.purpose with
    | .tileRead h _ _ _ =>
      let p : Part := { len := 512, bytes := toBytes 512 ((tile h).rowAt row), stat := .done }
      { s with accesses := s.accesses.set id { a with parts := [p] } }
    | .tileWrite h _ x => (put h ((tile h).write row x)).dropAccess id
    | .tileZero h rows =>
      let s := put h ((tile h).write row 0#4096)
      if rows.length ≤ 1 then s.dropAccess id
      else { s with accesses := s.accesses.set id { a with purpose := .tileZero h (rows.erase row) } }
    | _ => s

end Sys2Proof.Machine
end

