-- ==== Sys2Proof/Machine/Context.lean ====
section
/-!
DEFINITION. A park frame as bytes, and a context read back from them (12 R264): the sections and what the header holds are the
manual's, the places inside the other sections the model's (log 29).
-/

namespace Sys2Proof.Machine

/-- A park frame's bytes. -/
def frameSize : Nat := 2 ^ 24

/-- Parts of a byte string: offsets and bytes. -/
abbrev Bytes := List (Nat × List Byte)

/-- Parts moved up by an offset. -/
def Bytes.at' (l : Bytes) (off : Nat) : Bytes := l.map fun p => (off + p.1, p.2)

/-! ### Sequencers -/

def StreamState.code : StreamState → Nat
  | .idle => 0 | .running => 1 | .joining => 2

def EntryKind.code : EntryKind → Nat
  | .fresh => 0 | .succession => 1 | .delta => 2 | .pointer => 3

/-- Registers of a sequencer. -/
def regCount (e : Engine) : Nat := match e with | .exe => 16 | _ => 32

/-- A sequencer's program counter with its guard span, its stream state, how it came to its line, and the flags of a VQNT that are due at
its next slot (05 R113): 24 bytes. -/
def Eng.pcBytes (e : Eng) : List Byte :=
  leBytes 8 e.pc.toNat ++
  leBytes 8 (b2n e.guardVal + e.guardLeft * 2 + e.run.code * 2 ^ 16 + e.entry.code * 2 ^ 20 +
    (match e.region with | none => 0 | some b => 1 + b2n b) * 2 ^ 24 + e.flagsDue.toNat * 2 ^ 32) ++ leBytes 8 e.src.toNat

/-- Its registers. -/
def Eng.regBytes (e : Eng) (n : Nat) : List Byte := (List.range n).flatMap fun r => leBytes 8 (e.regs.getD r 0#64).toNat

/-- A sequencer read back from its 24 bytes at an offset and its registers at another. The frame has no place for the line that a
sequencer is inside (12 R264), so that a context read back from its bytes enters its line anew; one that had run to the end of a stop line
rests at word 0, and raises the trap of a bad word index there and not CHAIN_END (03 R58; DESIGN CHOICE, log 29). -/
def readEng (at' : Nat → Nat → Nat) (pc regs n : Nat) : Eng :=
  let d := at' (pc + 8) 8
  { pc := BitVec.ofNat 64 (at' pc 8)
    guardVal := d % 2 == 1, guardLeft := d / 2 % 2 ^ 8
    run := match d / 2 ^ 16 % 16 with | 1 => .running | 2 => .joining | _ => .idle
    entry := match d / 2 ^ 20 % 16 with | 1 => .succession | 2 => .delta | 3 => .pointer | _ => .fresh
    region := match d / 2 ^ 24 % 4 with | 1 => some false | 2 => some true | _ => none
    flagsDue := BitVec.ofNat 9 (d / 2 ^ 32)
    src := BitVec.ofNat 64 (at' (pc + 16) 8)
    regs := (List.range n).map fun r => (r, BitVec.ofNat 64 (at' (regs + 8 * r) 8)) }

/-- Four sequencers: their counters, then their registers, in the frame's order CTL, LDA, STA, EXE. -/
def engParts (c l e s : Eng) : List Byte :=
  c.pcBytes ++ l.pcBytes ++ e.pcBytes ++ s.pcBytes ++ c.regBytes 32 ++ l.regBytes 32 ++ s.regBytes 32 ++ e.regBytes 16

/-- Where the registers of a sequencer lie from the start of such a run. -/
def regsAt (e : Engine) : Nat := match e with | .ctl => 96 | .lda => 352 | .sta => 608 | .exe => 864

def readEngs (at' : Nat → Nat → Nat) (base : Nat) (e : Engine) : Eng :=
  readEng at' (base + 24 * e.code) (base + regsAt e) (regCount e)

/-! ### Channels and tiles -/

/-- A channel's state: 160 bytes. -/
def Chan.bytes (c : Chan) : List Byte :=
  ((List.range 6).flatMap fun i =>
    let n := c.nest.getD i {}
    leBytes 8 n.count ++ leBytes 8 n.sstride.toNat ++ leBytes 8 n.dstride.toNat) ++
  leBytes 8 c.event.toNat ++ leBytes 4 c.status.toNat ++ leBytes 4 c.seq.toNat

def readChan (at' : Nat → Nat → Nat) (off : Nat) : Chan :=
  { nest := (List.range 6).map fun i =>
      (i, { count := at' (off + 24 * i) 8, sstride := BitVec.ofNat 64 (at' (off + 24 * i + 8) 8)
            dstride := BitVec.ofNat 64 (at' (off + 24 * i + 16) 8) })
    event := BitVec.ofNat 64 (at' (off + 144) 8), status := BitVec.ofNat 32 (at' (off + 152) 4)
    seq := BitVec.ofNat 32 (at' (off + 156) 4) }

/-- An entry of the tile table: 64 bytes, whose lowest bit says that the handle is allocated. -/
def Tile.bytes (x : Tile) : List Byte :=
  leBytes 2 (1 + b2n x.lvl * 2 + b2n x.dopen * 4) ++ leBytes 2 x.rows ++ leBytes 2 x.rlen ++ leBytes 2 x.clen ++ leBytes 2 x.dbase ++
    leBytes 2 x.dlen ++ leBytes 4 0 ++ leBytes 16 x.snap.toNat ++ leBytes 8 x.dc

/-- Bands of a tile, of 64 rows each. -/
def Tile.bandTotal (x : Tile) : Nat := (x.rows + bandRows - 1) / bandRows

/-- The rows of the tiles of a level, band by band in the order of the handles, from the start of the level's section. -/
def bandParts (lvl : Bool) : Nat → List (Nat × Tile) → Bytes
  | _, [] => []
  | base, (_, x) :: l =>
    if x.lvl = lvl then
      ((List.range (x.bandTotal * bandRows)).map fun r => (base + 512 * r, toBytes 512 (x.data.getD r 0#4096))) ++
        bandParts lvl (base + x.bandTotal * bandRows * 512) l
    else bandParts lvl base l

/-- Where the sections of the tile table, the handler and the levels' bands lie (12 R264). -/
def tilesAt : Nat := 0x2000
def handlerAt : Nat := 0x120000
def bandsAt (lvl : Bool) : Nat := if lvl then 0x400000 else 0x200000

/-- A tile read back, but for its bands and rows. -/
def readTile (at' : Nat → Nat → Nat) (h : Nat) : Option Tile :=
  let o := tilesAt + 64 * h
  let f := at' o 2
  if f % 2 = 0 then none else
  some { lvl := f / 2 % 2 == 1, dopen := f / 4 % 2 == 1, rows := at' (o + 2) 2, rlen := at' (o + 4) 2, clen := at' (o + 6) 2
         dbase := at' (o + 8) 2, dlen := at' (o + 10) 2, snap := BitVec.ofNat 128 (at' (o + 16) 16), dc := at' (o + 32) 8 }

/-- The tiles with their rows, whose bands lie in the order of the handles; fresh bands are given at restore. -/
def readTiles (at' : Nat → Nat → Nat) : Nat → Nat → List (Nat × Tile) → NMap Tile
  | _, _, [] => []
  | b0, b1, (h, x) :: l =>
    let n := x.bandTotal * bandRows
    let base := if x.lvl then b1 else b0
    let data := (entriesAt at' base n).zipIdx.map fun e => (e.2, e.1)
    (h, { x with bands := List.range x.bandTotal, data }) ::
      readTiles at' (if x.lvl then b0 else b0 + 512 * n) (if x.lvl then b1 + 512 * n else b1) l

/-! ### What the manual's sections do not hold (log 11, log 29) -/

/-- Where the side cursors lie in the section at 0x00_1000. -/
def cursorsAt : Nat := 0x1730

/-- Where the section of planes and batch goes on, past the sections that the manual lists: of the frame's own delay line, and of the
streams that a handler has spilled. -/
def beyondAt : Nat := 0x130000
def spilledAt : Nat := 0x160000

/-- The parts of such a place: side entries of the batch, the end of each latch, and their count. -/
def beyondLatch (i : Nat) : Nat := 0x11000 + 0x5000 * i
def beyondCount : Nat := 0x1B000

/-- The entries past a plane's 64 KiB: at most 32, of a q4o latch. -/
def beyondEntries : Nat := 32

/-- Those parts, with the side cursors at a place of their own. -/
def Beyond.parts (x : Beyond) (base cursors : Nat) : Bytes :=
  [(cursors, x.cursors.map (BitVec.ofNat 8)), (base, x.sides.flatMap (toBytes 512)), (base + beyondLatch 0, x.over0.flatMap (toBytes 512)),
   (base + beyondLatch 1, x.over1.flatMap (toBytes 512)), (base + beyondCount, leBytes 8 x.sides.length)]

def readBeyond (at' : Nat → Nat → Nat) (base cursors : Nat) : Beyond :=
  { cursors := (List.range 4).map fun q => at' (cursors + q) 1
    sides := entriesAt at' base (min (at' (base + beyondCount) 8) 132), over0 := entriesAt at' (base + beyondLatch 0) beyondEntries
    over1 := entriesAt at' (base + beyondLatch 1) beyondEntries }

/-- Where the results of CTL, LDA and STA lie that are on their way (06 R146): a page for each, of the program's streams and of a
handler's. -/
def pendingAt (handler : Bool) (e : Engine) : Nat := 0x150000 + (4 * b2n handler + e.code) * 4096

/-- Such results: their number, then for each its slots, register and flags, and its value. -/
def Eng.pendBytes (e : Eng) : List Byte :=
  leBytes 8 e.pend.length ++ e.pend.flatMap fun p =>
    leBytes 8 (p.rem + (match p.dest with | .reg r => r.toNat | _ => 0) * 2 ^ 8 + p.flags.toNat * 2 ^ 16) ++ toBytes 8 p.data

/-- Such results read back. -/
def readPending (at' : Nat → Nat → Nat) (base : Nat) : List Pend :=
  (List.range (min (at' base 8) 255)).map fun i =>
    let d := at' (base + 8 + 16 * i) 8
    { rem := d % 2 ^ 8, dest := .reg (BitVec.ofNat 5 (d / 2 ^ 8)), flags := BitVec.ofNat 9 (d / 2 ^ 16)
      data := BitVec.ofNat 4096 (at' (base + 16 + 16 * i) 8) }

/-! ### The frame (12 R264) -/

/-- The delay line that a frame holds: the interrupted stream's while a handler that has not spilled runs. -/
def Task.frameLine (t : Task) : List Pend :=
  match t.held with
  | some h => if t.exeOwn then t.exe.pend else h.exe.pend
  | none => t.exe.pend

/-- The header. -/
def Task.headParts (t : Task) : Bytes :=
  [(0, leBytes 4 0x4B524150 ++ leBytes 4 1 ++
      leBytes 8 (b2n (!t.masked) + b2n t.trBusy * 2 + b2n (!t.frameLine.isEmpty) * 4 + b2n t.arPend * 8) ++
      leBytes 8 t.cfg ++ leBytes 8 t.stops.toNat ++ leBytes 8 t.trVec.toNat ++
      leBytes 4 (t.tiles.foldl (fun n h => if h.2.lvl then n else n + h.2.bandTotal) 0) ++
      leBytes 4 (t.tiles.foldl (fun n h => if h.2.lvl then n + h.2.bandTotal else n) 0))]

/-- The four streams of the program: the held ones while a handler runs. -/
def Task.streams (t : Task) : Held := t.held.getD { ctl := t.ctl, lda := t.lda, exe := t.exe, sta := t.sta }

/-- Four streams as bytes. -/
def Held.engBytes (h : Held) : List Byte := engParts h.ctl h.lda h.exe h.sta

/-- What CTL, LDA and STA have on its way. -/
def Held.pendParts (h : Held) (handler : Bool) : Bytes :=
  [(pendingAt handler .ctl, h.ctl.pendBytes), (pendingAt handler .lda, h.lda.pendBytes), (pendingAt handler .sta, h.sta.pendBytes)]

/-- The section at 0x00_1000 but for the counts of tokens and queues and the fill cursor. -/
def Task.registerParts (t : Task) : Bytes :=
  [(0x1000, t.streams.engBytes),
   (0x1440, (List.range 16).flatMap fun c => leBytes 2 (t.counters.getD c 0)),
   (0x1460, leBytes 8 t.arFlags.toNat ++ leBytes 8 (t.arEn.toNat + b2n t.arPend * 2 ^ 16 + t.arSet.toNat * 2 ^ 32 + t.arSlots * 2 ^ 48) ++
      leBytes 8 t.rngKey.toNat ++ leBytes 16 t.rngCtr.toNat ++ leBytes 4 t.conv0.toNat ++ leBytes 4 t.conv1.toNat ++ leBytes 8 t.polls),
   (0x14A0, (List.range 4).flatMap fun c => (t.chans.getD c {}).bytes),
   (0x1720, leBytes 8 t.s1root.toNat ++ leBytes 8 t.asid.toNat)]

/-- The handler state: the trap registers, the handler's banks, and the states of the held streams. -/
def Task.handlerParts (t : Task) : Bytes :=
  match t.held with
  | none => []
  | some h =>
    [(handlerAt, leBytes 8 (t.trCode.toNat + t.trRun.toNat * 2 ^ 16 + t.trEng.toNat * 2 ^ 24 + b2n t.exeOwn * 2 ^ 32) ++
        leBytes 8 t.trEpc.toNat ++ leBytes 8 t.trVal.toNat ++ leBytes 8 t.trFrom.toNat ++ leBytes 8 (t.exeSpill.toNat * 65536)),
     (handlerAt + 40, [h.ctl, h.lda, h.exe, h.sta].map fun e => BitVec.ofNat 8 e.run.code),
     (handlerAt + 64, ({ ctl := t.ctl, lda := t.lda, exe := t.exe, sta := t.sta } : Held).engBytes)] ++
    ({ ctl := t.ctl, lda := t.lda, exe := t.exe, sta := t.sta } : Held).pendParts true ++ h.beyond.parts spilledAt (spilledAt + beyondCount + 8)

/-- All sections of a park frame. -/
def Task.frameParts (t : Task) : Bytes :=
  t.headParts ++ t.registerParts ++ (t.tiles.map fun h => (tilesAt + 64 * h.1, h.2.bytes)) ++ t.spillParts t.frameLine ++ t.handlerParts ++
    (t.beyond t.frameLine).parts beyondAt cursorsAt ++ t.streams.pendParts false ++
    bandParts false (bandsAt false) t.tiles ++ bandParts true (bandsAt true) t.tiles

/-- A park frame as bytes. -/
def Task.frameBytes (t : Task) : List Byte :=
  t.frameParts.foldl (fun bs p => patch bs p.1 p.2) (List.replicate frameSize 0#8)

/-- The handler state read back: the streams of the program are held, with the delay line where the handler has not spilled. -/
def Task.readHandler (t : Task) (at' : Nat → Nat → Nat) (pend : List Pend) : Task :=
  let d := at' handlerAt 8
  let own := d / 2 ^ 32 % 2 == 1
  let bank (e : Engine) : Eng := { readEngs at' (handlerAt + 64) e with pend := readPending at' (pendingAt true e) }
  let h : Held := { ctl := t.ctl, lda := t.lda, exe := { t.exe with pend := if own then [] else pend }, sta := t.sta
                    beyond := readBeyond at' spilledAt (spilledAt + beyondCount + 8) }
  { t with trBusy := true, trCode := BitVec.ofNat 9 d, trRun := BitVec.ofNat 4 (d / 2 ^ 16), trEng := BitVec.ofNat 2 (d / 2 ^ 24)
           exeOwn := own, trEpc := BitVec.ofNat 64 (at' (handlerAt + 8) 8), trVal := BitVec.ofNat 64 (at' (handlerAt + 16) 8)
           trFrom := BitVec.ofNat 64 (at' (handlerAt + 24) 8), exeSpill := BitVec.ofNat 40 (at' (handlerAt + 32) 8 / 65536)
           held := some h, ctl := bank .ctl, lda := bank .lda, exe := { bank .exe with pend := if own then pend else [] }, sta := bank .sta }

/-- A context read back from a park frame; none if it is no frame. Descriptors of the delay line that fail 06 R149 are discarded and
raise CONTEXT_IMAGE. -/
def frameTask (bs : List Byte) : Option Task :=
  let at' (off n : Nat) : Nat := leNat ((bs.drop off).take n)
  if at' 0 4 ≠ 0x4B524150 ∨ at' 4 4 ≠ 1 then none
  else
    let flags := at' 8 8
    let cfg := at' 16 8
    let beyond := readBeyond at' beyondAt cursorsAt
    let stream (e : Engine) : Eng := { readEngs at' 0x1000 e with pend := readPending at' (pendingAt false e) }
    let (pend, bad) := readLine at' beyond.sides
    let tiles := (List.range 256).filterMap fun h => (readTile at' h).map fun x => (h, x)
    let t : Task :=
      { gang := BitVec.ofNat 16 (cfg / 2 ^ 48), prio := BitVec.ofNat 6 (cfg / 2 ^ 42), origin := BitVec.ofNat 2 (cfg / 2 ^ 40)
        level := if cfg / 2 ^ 38 % 4 = 1 then .s else .t, quad := cfg / 2 ^ 32 % 64, tid := BitVec.ofNat 32 cfg
        stops := BitVec.ofNat 64 (at' 24 8), trVec := BitVec.ofNat 64 (at' 32 8)
        ctl := stream .ctl, lda := stream .lda, exe := { stream .exe with pend }, sta := stream .sta
        counters := (List.range 16).map fun c => (c, at' (0x1440 + 2 * c) 2)
        arFlags := BitVec.ofNat 9 (at' 0x1460 8), arEn := BitVec.ofNat 9 (at' 0x1468 2), arPend := flags / 8 % 2 == 1
        arSet := BitVec.ofNat 9 (at' 0x146C 2), arSlots := at' 0x146E 2
        rngKey := BitVec.ofNat 64 (at' 0x1470 8), rngCtr := BitVec.ofNat 128 (at' 0x1478 16)
        conv0 := BitVec.ofNat 32 (at' 0x1488 4), conv1 := BitVec.ofNat 32 (at' 0x148C 4), polls := at' 0x1490 8
        chans := (List.range 4).map fun c => (c, readChan at' (0x14A0 + 160 * c))
        s1root := BitVec.ofNat 64 (at' 0x1720 8), asid := BitVec.ofNat 16 (at' 0x1728 2)
        tiles := readTiles at' (bandsAt false) (bandsAt true) tiles, masked := flags % 2 == 0 }
    let t := (t.readParts at' (fun _ => {}) [] [] beyond).badImage bad
    some (if flags / 2 % 2 = 1 then t.readHandler at' pend else t)

/-! ### Landing buffers (12 R262, log 29) -/

/-- What a landing buffer holds, as bytes: each thing behind a head of 24 or 40 bytes. The reply that a one-sided write's member owes stays
with the die that it left. -/
def Landing.bytes : Landing → List Byte
  | .entry q tag e => leBytes 8 1 ++ leBytes 8 q ++ leBytes 8 tag ++ toBytes 512 e
  | .write block off bs author _ =>
    leBytes 8 2 ++ leBytes 8 block ++ leBytes 8 off ++ leBytes 8 bs.length ++ leBytes 4 author.1 ++ leBytes 4 author.2 ++ bs

def landingBytes (l : List Landing) : List Byte := l.flatMap Landing.bytes

/-- A landing buffer read back. -/
def readLanding : Nat → List Byte → List Landing
  | 0, _ => []
  | n + 1, bs =>
    let d := dword bs
    match d 0 with
    | 1 => .entry (d 1) (d 2) (BitVec.ofNat 4096 (leNat ((bs.drop 24).take 512))) :: readLanding n (bs.drop 536)
    | 2 => .write (d 1) (d 2) ((bs.drop 40).take (d 3)) (d 4 % 2 ^ 32, d 4 / 2 ^ 32 % 2 ^ 32) {} :: readLanding n (bs.drop (40 + d 3))
    | _ => []

end Sys2Proof.Machine
end

