-- ==== Sys2Proof/Machine/Gangs.lean ====
section
/-!
DEFINITION. What traffic does to priority: tagged arrivals, boost and graze (12 R257 to R259, 13 R284, 19 R442).
-/

namespace Sys2Proof.Machine

/-- The key of a (VD, gang) pair of a die (12 R258). -/
def gangKey (vd gang : Nat) : Nat := vd * 65536 + gang

/-- The limits of boost and graze, and the steps of a window (12 R258). -/
def boostCap : Nat := 16
def grazeCap : Nat := 2000
def grazeWindow : Nat := 1000

/-- The state of a gang on a die. -/
def Die.gang (d : Die) (vd gang : Nat) : Gang := d.gangs.getD (gangKey vd gang) {}

/-- A tagged arrival for a gang (12 R258). -/
def Gang.arrive (g : Gang) : Gang := if g.grazed then g else { g with boost := min (g.boost + 4) boostCap }

/-- The microsecond step of a gang (12 R258). -/
def Gang.step (g : Gang) : Gang :=
  let sum := g.graze + g.boost
  if grazeCap ≤ sum then { boost := 0, graze := sum, grazed := true } else { g with graze := sum, boost := g.boost - 1 }

/-- The end of a window for a gang (12 R258). -/
def Gang.endWindow (g : Gang) : Gang := { g with graze := 0, grazed := false }

/-- The end of a window that the last microsecond step made due, applied. -/
def State.endWindow (s : State) (die : Nat) : State :=
  if (s.die die).windowDue then
    s.modDie die fun d => { d with windowDue := false, gangs := d.gangs.map fun g => (g.1, g.2.endWindow) }
  else s

/-- Whether a live task of a VD number and gang is homed on a die (19 R442). -/
def State.gangLives (s : State) (die vd gang : Nat) : Bool :=
  s.tasks.any fun t => t.2.die = die && t.2.vd = vd && t.2.gang.toNat = gang

/-- Something applied at a die that came over the fabric from a source die for a gang: a tagged arrival if it counts (12 R258,
13 R284, 19 R442). -/
def State.tagged (s : State) (die src vd gang : Nat) : State :=
  if gang = 0 || die = src || !s.gangLives die vd gang then s
  else
    let s := s.endWindow die
    s.modDie die fun d => { d with gangs := d.gangs.set (gangKey vd gang) (d.gang vd gang).arrive }

/-- A task's spin decay (12 R259). -/
def State.decay (s : State) (t : Task) : Nat :=
  min (2 * ((t.polls - (s.gangEntry t.vdKey t.gang.toNat).spinLimit) / 32)) 63

/-- A task's effective priority (12 R257). -/
def State.eff (s : State) (t : Task) : Nat :=
  let boost := if t.gang = 0#16 then 0 else ((s.die t.die).gang t.vd t.gang.toNat).boost
  min (t.prio.toNat + boost - s.decay t) 63

end Sys2Proof.Machine
end

