-- ==== Sys2Proof/Machine/Streams.lean ====
section
/-!
DEFINITION. Streams, tokens, counters, barriers, creation and end of tasks, software traps and the return from a handler
(06 R130 to R144, R152, 12 R265, R269 to R271, 16 R363, R364, R367, 17 R390, R394, R397, R406, R409, 18 R435, R436, R441).
-/

namespace Sys2Proof.Machine

/-! ### FORK and RDV -/

/-- Whether an access fills a queue (02 R34). -/
def Access.isQueue (a : Access) : Bool :=
  match a.purpose with
  | .entry _ _ | .tileRead _ _ _ _ => true
  | .contribute _ _ _ _ _ r _ => r.isSome
  | _ => false

/-- Whether LDA, EXE and STA are idle (06 R133). -/
def Task.joined (t : Task) : Bool := t.lda.run == .idle && t.exe.run == .idle && t.sta.run == .idle

/-- The checks of FORK (06 R132). -/
def forkCheck (e : Engine) (ra : GReg) (s : State) : Chk :=
  if !pointerOk (s.reg ra) then .trap Cause.targetPointer (s.reg ra)
  else if (s.me.eng e).run != .idle then .trap Cause.forkBusy (BitVec.ofNat 64 e.code)
  else .ok

/-- The named stream starts (06 R132). -/
def State.start (s : State) (e : Engine) (pc g1 g2 : W64) : State :=
  let ord := s.eng.ord
  s.modMe fun t => t.modEng e fun x =>
    let x' := (x.put 1#5 g1).put 2#5 g2
    { x' with
    run := .running, pc, line := none, src := 0#64, entry := .fresh, region := none, guardLeft := 0, guardVal := true,
    stall := none, began := false, ord := x.ord.join ord }

/-- FORK (06 R132, 16 R367). In a handler, the first one spills (12 R269), as soon as a route leads to the area (13 R278). -/
def execFork (e : Engine) (ra rb rc : GReg) (s : State) : Result State :=
  issue (.fork e ra rb rc) (forkCheck e ra) (fun s =>
    let go (s : State) : State := s.start e (s.reg ra) (s.reg rb) (s.reg rc)
    if s.me.trBusy && !s.me.exeOwn then
      if s.me.exeSpill = 0#40 then
        let dw3 := Cause.doubleTrap + s.me.trCode.toNat * 2 ^ 16
        (s.retireFault s.cur.uid { cause := Cause.doubleTrap, eng := s.cur.eng.code, dw3 }).setStatus .gone
      else s.withPieces s.me.spillBase spillSize .write fun ps s =>
        if s.areaRouted s.me ps then go (s.spill s.cur.uid ps) else s.stallNow false
    else go s) s

/-- A stream at its RDV (06 R131, R133): empty slots until its results have landed, then it waits for its queue accesses, then the
RDV issues and it is idle. Until then its code pointer stands at the RDV, which a stop finds unissued (06 R150, 17 R390). -/
def State.joinSlot (s : State) : State :=
  let s := s.modMe fun t => t.land s.cur.eng
  if s.eng.blocked then s.stallNow true
  else if !s.eng.pend.isEmpty || !s.eng.async.isEmpty then s.setStatus .empty
  else if s.accesses.any fun a => a.2.uid = s.cur.uid && a.2.eng = s.cur.eng && a.2.handler == s.me.trBusy && a.2.isQueue then s.stallNow true
  else (s.modMe fun t => ((t.endSlot s.cur.eng []).modEng s.cur.eng fun e =>
    { e with run := .idle, line := none, stop := match e.stop with | .none => .none | _ => .stopped })).setStatus .gone

/-- RDV (06 R133, 17 R390): CTL waits for the other streams, whose accesses then precede its own; another stream joins. -/
def execRdv (s : State) : Result State :=
  issue .rdv
    (fun s => match s.cur.eng with | .ctl => if s.me.joined then .ok else .stall true | _ => .ok)
    (fun s => match s.cur.eng with
      | .ctl => s.modEng fun e => { e with ord := ((e.ord.join s.me.lda.ord).join s.me.exe.ord).join s.me.sta.ord }
      | _ => (s.modEng fun e => { e with run := .joining }).joinSlot) s

/-! ### Tokens (06 R136 to R138) -/

/-- What an instruction adds to k7, if it is a SIGT of that queue (06 R136). -/
def State.addsToK7 (s : State) : Instr → Option Nat
  | .sigtImm k n => if k = 7#3 then some n.toNat else none
  | .sigtReg k ra => if k = 7#3 then some (s.reg ra).toNat else none
  | _ => none

/-- A sequencer that stalls for nothing but the room of k7 offers its addition there again in every cycle, before those of later
sequencers are admitted (06 R137). The model has no cycles in which first tries meet: they are admitted in the order in which they
are made (log 34). -/
def State.offering (s : State) (i : Instr) : State :=
  match s.cur.status, s.addsToK7 i with
  | .stalled true, some n => if s.eng.blocked then s else s.modEng fun e => { e with offer := some n }
  | _, _ => s

/-- The tokens that a sequencer offers to k7 (06 R137). -/
def Eng.offered (e : Eng) : Option Nat :=
  match e.run, e.stop with | .running, .stopped | .running, .point _ => none | .running, _ => e.offer | _, _ => none

/-- The sequencers whose additions to k7 are admitted before those of one (06 R137). -/
def admittedBefore : Engine → List Engine
  | .ctl => [] | .lda => [.ctl] | .exe => [.ctl, .lda] | .sta => [.ctl, .lda, .exe]

/-- The count that an addition to a queue meets: on k7, with what stalled producers before it in order still add, as far as it has
room (06 R137). -/
def State.countMet (s : State) (k : BitVec 3) : Nat :=
  if k = 7#3 then
    (admittedBefore s.cur.eng).foldl (fun c e =>
      match (s.me.eng e).offered with | some n => if c + n ≤ 255 then c + n else c | none => c) (s.me.tokenCount k)
  else s.me.tokenCount k

/-- Whether a queue takes n more tokens (06 R136, R137). -/
def sigtCheck (k : BitVec 3) (n : Nat) (s : State) : Chk := if s.countMet k + n ≤ 255 then .ok else .stall true

/-- Whether a queue holds n tokens. -/
def waittCheck (k : BitVec 3) (n : Nat) (s : State) : Chk := if n ≤ s.me.tokenCount k then .ok else .stall true

/-- A count held in a register (06 R136). -/
def countCheck (v : W64) (c : Nat → State → Chk) (s : State) : Chk :=
  if 255 < v.toNat then .trap Cause.tokenCount v else c v.toNat s

/-- Tokens given. They carry what releases and FENCEX of the sequencer hold back in the later set (09 R204, R214, R215), and no order among
accesses to one location, which a token does not make (06 R138; log 34). -/
def State.give (s : State) (k : BitVec 3) (n : Nat) : State :=
  s.modMe fun t => t.addTokens k.toNat n s.eng.ord.ofToken

/-- Tokens taken, with what they carry (09 R204, log 34). -/
def State.take (s : State) (k : BitVec 3) (n : Nat) : State :=
  let (rest, c) := takeTokens n (s.me.tokens.getD k.toNat []) {}
  (s.modMe fun t => { t with tokens := t.tokens.set k.toNat rest }).modEng fun e => { e with ord := e.ord.join c }

/-- SIGT with an immediate (06 R136, 17 R394). -/
def execSigtImm (k : BitVec 3) (n : BitVec 8) (s : State) : Result State :=
  issue (.sigtImm k n) (sigtCheck k n.toNat) (fun s => s.give k n.toNat) s

/-- SIGT with a register. -/
def execSigtReg (k : BitVec 3) (ra : GReg) (s : State) : Result State :=
  issue (.sigtReg k ra) (fun s => countCheck (s.reg ra) (sigtCheck k) s) (fun s => s.give k (s.reg ra).toNat) s

/-- WAITT with an immediate (06 R136, 18 R436). -/
def execWaittImm (k : BitVec 3) (n : BitVec 8) (s : State) : Result State :=
  issue (.waittImm k n) (waittCheck k n.toNat) (fun s => s.take k n.toNat) s

/-- WAITT with a register. -/
def execWaittReg (k : BitVec 3) (ra : GReg) (s : State) : Result State :=
  issue (.waittReg k ra) (fun s => countCheck (s.reg ra) (waittCheck k) s) (fun s => s.take k (s.reg ra).toNat) s

/-! ### Counters and DRAIN (06 R139 to R142) -/

/-- WAITC (06 R140, 18 R435). -/
def execWaitc (c : BitVec 4) (n : BitVec 12) (s : State) : Result State :=
  issue (.waitc c n) (fun s => if s.me.counters.getD c.toNat 0 ≤ n.toNat then .ok else .stall false) id s

/-- DRAIN (06 R141, 16 R363). With bit 0, LDA's later loads come after what its earlier ones have seen (06 R142, 09 R211). -/
def execDrain (mask : BitVec 4) (s : State) : Result State :=
  issue (.drain mask) (fun s => if s.drained s.cur.uid mask.toNat then .ok else .stall false)
    (fun s => if mask.getLsbD 0 then s.acquireNow else s) s

/-! ### Barriers (06 R143, R144, 13 R285) -/

/-- The instance of a scope that holds a task's home (06 R143). -/
def State.barInstance (s : State) (t : Task) : Scope → Nat
  | .quad => t.die * quadsPerDie + t.quad
  | .die => t.die
  | .pkg => s.moduleOf t.die
  | _ => 0

/-- The key of a barrier. -/
def barKey (sc : Scope) (inst id : Nat) : Nat := sc.code * 2 ^ 32 + inst * 2 ^ 8 + id

/-- The tasks that arrived may go on (06 R143). -/
def State.releaseArrived (s : State) (key : Nat) (l : List Nat) : State :=
  l.foldl (fun s a => s.modTask (a / 2) fun t =>
    { t.wake with bars := t.bars.map fun b => if b.1 = key ∧ b.2.1 = (a % 2 == 1) then (b.1, b.2.1, true) else b }) s

/-- A barrier completes: it is freed, and its waiting members resume (06 R143). -/
def State.completeBarrier (s : State) (key : Nat) : State :=
  match NMap.find? s.barriers key with
  | none => s
  | some b => ({ s with barriers := NMap.erase s.barriers key } : State).releaseArrived key
      (b.arrived.filter fun a => (NMap.find? s.tasks (a / 2)).isSome)

/-- One arrival at a barrier (06 R143). -/
def State.arriveAt (s : State) (key vdk gang who : Nat) (dies : List Nat) : State :=
  let b := s.barriers.getD key { vd := vdk, gang }
  { s with barriers := s.barriers.set key { b with arrived := b.arrived ++ [who], dies := (b.dies ++ dies).dedup } }

/-- Whether a barrier is free or held by a pair (06 R143). -/
def State.barrierOpen (s : State) (key vdk gang : Nat) : Bool :=
  match NMap.find? s.barriers key with | none => true | some b => b.vd = vdk && b.gang = gang

/-- The die that counts a pod barrier (13 R285). -/
def State.barrierHome (s : State) (m vd gang id : Nat) : Nat :=
  let (lx, ly, lz) := s.lengths m
  s.dieByName m (((vd * 65536 + gang) * 256 + id) % (lx * ly * lz))

/-- Whether an access is of classes 0 to 3: of the path classes LD, ST, CP and FB (09 R203), or of DRAIN's classes, which tile accesses
belong to (06 R141, log 69). -/
def Access.counted (a : Access) : Bool :=
  a.drain.isSome || match a.cls with | some .bl | none => false | some _ => true

/-- Every access of classes 0 to 3 of a task has completed (06 R143). -/
def State.classesDone (s : State) (uid : Nat) : Bool :=
  !(s.accesses.any fun a => a.2.uid = uid && a.2.counted) && !(s.copies.any fun c => c.2.uid = uid)

/-- The arrival already made by the executing stream at a barrier: whether the barrier has completed. -/
def State.arrivalOf (s : State) (key : Nat) : Option Bool :=
  (s.me.bars.find? fun b => b.1 = key && b.2.1 == s.me.trBusy).map (·.2.2)

/-- The checks and waits of BAR (06 R143): after the meeting, those of a full fence again (06 R144). -/
def barCheck (sc : Scope) (id : BitVec 8) (s : State) : Chk :=
  let t := s.me
  let key := barKey sc (s.barInstance t sc) id.toNat
  match s.arrivalOf key with
  | some true => if (s.pendingIds s.cur.uid Access.fences).isEmpty then .ok else .stall false
  | some false => .stall false
  | none =>
    if s.gangAway t.vdKey t.die t.gang.toNat then .stall false
    else if t.gang = 0#16 ∨ (s.gangEntry t.vdKey t.gang.toNat).barCount sc = 0 then
      .trap Cause.barNone (BitVec.ofNat 64 (t.gang.toNat + sc.code * 2 ^ 16))
    else if !s.classesDone s.cur.uid then .stall false
    else if sc != .pod && !s.barrierOpen key t.vdKey t.gang.toNat then .stall false
    else .ok

/-- BAR's effect: it arrives and waits, or passes a barrier that has completed; it is a full fence on each side. What the task issues
after it, on any sequencer, sees what members completed before they arrived (06 R144). -/
def State.barrier (s : State) (sc : Scope) (id : BitVec 8) : State :=
  let t := s.me
  let key := barKey sc (s.barInstance t sc) id.toNat
  let s := (s.modEng fun e => { e with ord := e.ord.fenceAll }).acquireNow
  let pass (s : State) : State :=
    (s.modMe fun t => { t with bars := t.bars.filter fun b => !(b.1 = key && b.2.1 == t.trBusy) }).acquireViews s.me
  match s.arrivalOf key with
  | some _ => pass s
  | none =>
    let who := s.cur.uid * 2 + b2n t.trBusy
    let s := s.modMe fun t => { t with bars := t.bars ++ [(key, t.trBusy, false)] }
    match sc with
    | .pod =>
      let (k, s) := s.newId
      let home := s.barrierHome t.module t.vd t.gang.toNat id.toNat
      let p : Packet :=
        { kind := 12, vd := t.vd, gang := t.gang.toNat, src := t.die, at' := t.die, links := [who], dst := home,
          a := id.setWidth 64 }
      ({ s with packets := s.packets.set k p } : State).stallNow false
    | _ =>
      let s := s.arriveAt key t.vdKey t.gang.toNat who []
      if (s.gangEntry t.vdKey t.gang.toNat).barCount sc ≤ (s.barriers.getD key {}).arrived.length then
        pass (s.completeBarrier key)
      else s.stallNow false

/-- BAR (06 R143, R144, 16 R351). A trap for want of a readable gang entry records the failed read (12 R256). -/
def execBar (sc : Scope) (id : BitVec 8) (s : State) : Result State :=
  let t := issueFrame (.bar sc id) none (barCheck sc id) (fun s => s.barrier sc id) s
  let read := (Instr.operandTrap s.cur.eng (.bar sc id)).isNone && !s.cur.commit
  match t.cur.status with
  | .trapped => .next (if read then t.gangRecords s.me.vdKey s.me.die s.me.gang.toNat else t)
  | _ => .next t

/-! ### The life of a task -/

/-- The waits of SPAWN (06 R130): none where the entry pointer is bad. -/
def spawnCheck (ra : GReg) (s : State) : Chk :=
  if !pointerOk (s.reg ra) then .ok
  else if s.drained s.cur.uid 2 && !(s.copies.any fun c => c.2.uid = s.cur.uid && match c.2.dst with | .mem _ => true | _ => false)
  then .ok else .stall false

/-- The value of a SPAWN that creates nothing. -/
def spawnStatus (n : Nat) : W64 := BitVec.ofNat 64 (2 ^ 63 + n)

/-- The child of a SPAWN, or its status (06 R128 to R130, 08 R184, 12 R254). While the VD's mask on the die holds no quad, the
manual names neither a home nor a status: the status is the one of a die without room (log 62). -/
def State.spawnChild (s : State) (entry arg : W64) : W64 × State :=
  let t := s.me
  if !pointerOk entry then (spawnStatus 1, s)
  else if !s.quotaOk t.vdKey t.die then (spawnStatus 2, s)
  else
    match s.homeQuad t.vdKey t.die with
    | none => (spawnStatus 3, s)
    | some q =>
      let (tid, s') := s.freshTid t.die
      let base := newTask t.module t.die t.vd entry q (s.die t.die).clk.toNat
      let ctl := { (base.ctl.put 1#5 arg).put 2#5 (t.tid.setWidth 64) with ord := {} }
      let c : Task := { base with tid, ctl, gang := t.gang, level := t.level, origin := 1#2, prio := s.ceiling t.vdKey t.prio,
                                  stops := t.stops, trVec := t.trVec, s1root := t.s1root, asid := t.asid,
                                  rngKey := t.rngKey, rngCtr := t.rngCtr }
      match s'.enrol c.loadConverters with
      | some (_, s) => (tid.setWidth 64, s.newViews c (some t))
      | none => (spawnStatus 3, s)

/-- SPAWN (06 R130, 17 R397). -/
def execSpawn (rd ra rb : GReg) (s : State) : Result State :=
  issue (.spawn rd ra rb) (spawnCheck ra) (fun s =>
    let (v, s') := s.spawnChild (s.reg ra) (s.reg rb)
    s'.asyncResult rd v) s

/-- EXIT (06 R134, 16 R364). -/
def execExit (s : State) : Result State :=
  issue .exit (fun s => if s.me.joined && s.quiet s.cur.uid then .ok else .stall true)
    (fun s => (s.retire s.cur.uid).setStatus .gone) s

/-- YIELD (06 R135, 18 R441). -/
def execYield (s : State) : Result State :=
  issue .yield noCheck (fun s => (s.modMe fun t => { t with yielded := true }).dueDecision s.me.die s.me.quad) s

/-- TRAP (12 R270, 17 R406): it issues, with the other members of its bundle, and the trap is taken. -/
def execTrap (n : BitVec 5) (payload : BitVec 19) (s : State) : Result State :=
  issue (.trap n payload) noCheck (fun s =>
    let s := s.endIssue
    (s.takeTrap s.cur.uid s.cur.eng (Cause.software + n.toNat) (payload.setWidth 64) s.eng.pc 0#64).setStatus .gone) s

/-- The checks of TRET (12 R271, 17 R409). -/
def tretCheck (s : State) : Chk :=
  if !s.me.priv.isS then .trap Cause.priv 0#64
  else if !s.me.trBusy then .trap Cause.priv 3#64
  else if s.me.joined then .ok else .stall true

/-- TRET (12 R271, 17 R409); what has been spilled is read as soon as a route leads to the area (13 R278). -/
def execTret (s : State) : Result State :=
  issue .tret tretCheck (fun s =>
    let back (s : State) : State := (s.modMe Task.trapReturn).setStatus .gone
    if s.me.exeOwn then s.withPieces s.me.spillBase spillSize .read fun ps s =>
        if s.areaRouted s.me ps then back (s.unspill s.cur.uid ps) else s.stallNow false
    else back s) s

/-! ### STREAM_DEADLOCK (06 R152) -/

/-- Whether a sequencer is idle, or stalled in a wait of 06 R152. -/
def Eng.idleOrWaits (e : Eng) : Bool := e.run == .idle || e.stall == some true

/-- Whether no later event can release a task. -/
def State.deadlocked (s : State) (uid : Nat) : Bool :=
  let t := s.task uid
  t.place == .active && !t.dying && t.raised.isEmpty && engines.all (fun e => (t.eng e).idleOrWaits && (t.eng e).stop == .none) &&
    engines.any (fun e => (t.eng e).run != .idle && (t.eng e).stall == some true) &&
    !(s.accesses.any fun a => a.2.uid = uid) && !(s.copies.any fun c => c.2.uid = uid) &&
    (match t.core with | some c => !(s.core c).freeze | none => false)

/-- STREAM_DEADLOCK (06 R152, R154). -/
def execStreamDeadlock (uid : Nat) (s : State) : Result State :=
  if s.deadlocked uid then
    let t := s.task uid
    let v := engines.foldl (fun acc e => acc + if (t.eng e).run != .idle && (t.eng e).stall == some true then 2 ^ e.code else 0) 0
    .next (s.takeTrap uid .ctl Cause.streamDeadlock (BitVec.ofNat 64 v) t.ctl.pc 0#64)
  else .next s

end Sys2Proof.Machine
end

