-- ==== Sys2Proof/Machine/Router.lean ====
section
/-!
DEFINITION. The packets that travel from a die to another: remote accesses and pod barriers (13 R276 to R285).
Log 24 says how packets of one flow keep their order.
-/

namespace Sys2Proof.Machine

/-! ### The state of links (13 R277, R278) -/

/-- FLIT_REPLAY (13 R277): an attempt at a port fails its CRC and the flit is sent again; the sixteenth in a row takes the port
down. -/
def execFlitReplay (die port : Nat) (s : State) : Result State :=
  let d := s.die die
  if !d.portUp port then .next s
  else
    let n := d.fails.getD port 0 + 1
    .next (s.setDie die { d with
      retry := d.retry.set port (d.retry.getD port 0#64 + 1#64)
      fails := if 16 ≤ n then NMap.erase d.fails port else d.fails.set port n
      ports := if 16 ≤ n then d.ports &&& ~~~(1#6 <<< port) else d.ports })

/-- ROUTE_RETURN (13 R278, 15 R342): a port comes up again; what was held for want of a route goes on. -/
def execRouteReturn (die port : Nat) (s : State) : Result State :=
  if port < 6 && (s.die die).inService && (s.die (s.neighbour die port)).inService && s.mayServe die port then
    .next (s.modDie die fun d => { d with ports := d.ports ||| (1#6 <<< port) })
  else .next s

/-! ### Delivery -/

/-- Kinds that hop lists and split records lead, router by router (13 R281, R288). -/
def Packet.hopping (p : Packet) : Bool := match p.kind with | 6 | 7 | 8 | 9 => true | _ => false

/-- Whether what a packet asks for may be performed now. An arrival is held while another pair has its barrier, and holds up no other
(06 R143, 13 R285). -/
def State.mayApply (s : State) (p : Packet) : Bool :=
  match p.kind with
  | 0 | 2 | 4 =>
    (match NMap.find? s.accesses p.acc with
     | none => true
     | some a => match a.parts[p.part]? with | some q => s.mayPerform a q | none => true)
  | 6 =>
    (match NMap.find? s.accesses p.acc with
     | some a => p.port != 6 || !s.anyLive a.deps
     | none => true)
  | 12 => s.barrierOpen (barKey .pod 0 (bits p.a 7 0)) p.vd p.gang
  | _ => true

/-- Whether two packets belong to one flow: they keep their order (13 R278). -/
def Packet.sameFlow (p q : Packet) : Bool :=
  vcOf p.kind == vcOf q.kind && p.hopping == q.hopping && p.src == q.src &&
    (if p.hopping then p.at' == q.at' && p.port == q.port else p.dst == q.dst)

/-- The die at which a packet has its effects next. -/
def Packet.where' (p : Packet) : Nat := if p.hopping then p.at' else p.dst

/-- Whether a point-to-point packet has arrived and its home is serving it. -/
def Packet.inService (p : Packet) : Bool := !p.hopping && p.at' == p.dst && p.src != p.dst

/-- Whether another packet must go first: an older one of the same flow, or, at the same die and on the same channel, one that
arrived before and is not served to its end (13 R278, R282, log 24). A contribution that has been judged and waits for its port goes
before judged ones alone: a router judges each when it arrives (13 R287). -/
def State.behind (s : State) (k : Nat) (p : Packet) : Bool :=
  s.packets.any fun q =>
    (q.1 < k && p.sameFlow q.2 && s.mayApply q.2 && !(p.kind == 8 && q.2.kind == 8 && p.phase < q.2.phase)) ||
      (q.1 != k && q.2.inService && vcOf q.2.kind == vcOf p.kind && q.2.dst == p.where')

/-- The packet of a number, if it is of a kind. -/
def State.packet (s : State) (k kind : Nat) : Option Packet :=
  match NMap.find? s.packets k with
  | some p => if p.kind = kind then some p else none
  | none => none

/-- Whether the packet of a number has to wait for something of its own. -/
def State.packetWaits (s : State) (k kind : Nat) (w : Packet → Bool) : Bool :=
  match s.packet k kind with | some p => w p | none => false

/-- The flits after the head of a packet (13 R279, R280): those of its data, and the string or mask of flit 1, which the data of a
result already end with. -/
def Packet.pay (p : Packet) : Nat :=
  let data := (p.body.length + 63) / 64
  match p.kind with
  | 0 | 3 | 4 | 5 | 10 | 11 | 12 | 13 | 14 => 0
  | 1 | 2 => max 1 data
  | 7 => 1
  | 9 => max 2 data
  | _ => 1 + max 1 data

/-- A packet gone from the fabric. -/
def State.dropPacket (s : State) (k : Nat) : State := { s with packets := NMap.erase s.packets k }

/-- The arrival of a point-to-point packet at its destination die: what it then does, or nothing while it is held. -/
def State.arrives (s : State) (k kind : Nat) (go : Packet → State → State) : Result State :=
  match s.packet k kind with
  | none => .next s
  | some p =>
    match s.route (vcOf kind) p.at' p.dst with
    | none => .next s
    | some l => if s.behind k p || !s.mayApply p then .next s else .next (go p ((s.dropPacket k).crossed l))

/-! ### Remote accesses (13 R280, R283) -/

/-- The task number and, from bit 16, the queue that a read of LDR or MLDR is for; 0 of any other (13 R280; the places of the two
are the model's, log 24). -/
def Access.target (a : Access) : W64 :=
  let of' (code : Nat) : W64 := BitVec.ofNat 64 (a.tid + code * 2 ^ 16)
  match a.cls, a.purpose with
  | some .fb, .entry code _ => of' code
  | _, .contribute _ _ _ _ _ (some (code, _)) _ => of' code
  | _, _ => 0#64

/-- The reply to a packet. -/
def Packet.reply (p : Packet) : Packet :=
  { kind := p.kind + 1, vd := p.vd, gang := p.gang, src := p.dst, dst := p.src, a := p.a, at' := p.dst, acc := p.acc,
    part := p.part }

/-- The part of the access a packet belongs to. -/
def State.partOf (s : State) (p : Packet) : Option (Access × Part) :=
  match NMap.find? s.accesses p.acc with
  | none => none
  | some a => (a.parts[p.part]?).map fun q => (a, q)

/-- The home has performed a part, and its reply goes out. -/
def State.performed (s : State) (p r : Packet) : State :=
  (s.modPart p.acc p.part fun q => { q with stat := .sent }).inject r

/-- A packet that its home has served in part: it stands there until the rest is done. -/
def State.keepPacket (s : State) (k : Nat) (p : Packet) : State :=
  { s with packets := s.packets.set k { p with at' := p.dst } }

/-- READ_REQUEST (13 R283): the home reads, one aligned doubleword at a time and in no fixed order (09 R208), and replies when it
has read all. -/
def execReadRequest (k : Nat) (g : Integ) (s : State) : Result State :=
  s.arrives k 0 fun p s =>
    match s.partOf p with
    | none => s
    | some (a, q) =>
      let cs := cutPiece 8 (q.len + 1) { va := q.va, pa := q.pa, len := q.len }
      let rest := (List.range cs.length).filter fun i => !p.served.contains i
      let (i, s) := s.pick rest
      let c := cs.getD i {}
      let (bs, s) := s.homeRead a.who g c.va c.pa c.len
      let body := patch (if p.body.isEmpty then List.replicate q.len 0#8 else p.body) c.off bs
      if rest.length ≤ 1 then s.performed p { p.reply with body, b := a.target } else s.keepPacket k { p with body, served := i :: p.served }

/-- READ_REPLY (13 R283, R284): the data return. -/
def execReadReply (k : Nat) (s : State) : Result State :=
  s.arrives k 1 fun p s => s.modPart p.acc p.part fun q => { q with bytes := p.body, stat := .done }

/-- REMOTE_WRITE (13 R283): the home writes, line by line in ascending order (07 R162), and the write is a tagged arrival
there. -/
def execRemoteWrite (k : Nat) (g : Integ) (s : State) : Result State :=
  s.arrives k 2 fun p s =>
    match s.partOf p with
    | none => s
    | some (a, q) =>
      let cs := cutPiece 64 (q.len + 1) { va := q.va, pa := q.pa, len := q.len }
      let n := p.served.length
      let c := cs.getD n {}
      let s := s.homeWrite a.who g c.va c.pa ((q.bytes.drop c.off).take c.len)
      if cs.length ≤ n + 1 then (s.tagged p.dst p.src p.vd p.gang).performed p p.reply
      else s.keepPacket k { p with served := n :: p.served }

/-- WRITE_ACK (13 R280). -/
def execWriteAck (k : Nat) (s : State) : Result State :=
  s.arrives k 3 fun p s => (s.modPart p.acc p.part fun q => { q with stat := .done }).settle p.acc

/-- ATOMIC_REQUEST (13 R283, 16 R349): the home performs the atomic, a tagged arrival there; on host memory in two steps
(16 R350). -/
def execAtomicRequest (k : Nat) (g : Integ) (s : State) : Result State :=
  s.arrives k 4 fun p s =>
    match s.partOf p with
    | none => s
    | some (a, q) =>
      match a.purpose with
      | .atom _ op n b c =>
        (match s.atomicStep p.acc p.part a q g op n b c with
         | (some old, s) => (s.tagged p.dst p.src p.vd p.gang).performed p { p.reply with b := BitVec.ofNat 64 old }
         | (none, s) => s.keepPacket k p)
      | _ => s

/-- ATOMIC_REPLY (13 R280). -/
def execAtomicReply (k : Nat) (s : State) : Result State :=
  s.arrives k 5 fun p s => s.modPart p.acc p.part fun q => { q with bytes := leBytes q.len p.b.toNat, stat := .done }

/-! ### Pod barriers (06 R143, 13 R285) -/

/-- The key of a pod barrier. -/
def podBarrier (id : Nat) : Nat := barKey .pod 0 id

/-- The members that a pod barrier needs, by the gang table of its home die's module (13 R285). -/
def State.podCount (s : State) (home vd gang : Nat) : Nat := (s.gangEntry (vdKey (s.moduleOf home) vd) gang).barCount .pod

/-- A pod barrier completes: a release goes to every die that sent an arrival (13 R285). -/
def State.completePod (s : State) (key home id : Nat) : State :=
  match NMap.find? s.barriers key with
  | none => s
  | some b =>
    b.dies.foldl (fun s d =>
      let p : Packet :=
        { kind := 13, vd := b.vd, gang := b.gang, src := home, dst := d, at' := home, a := BitVec.ofNat 64 id,
          links := b.arrived.filter fun w => (s.task (w / 2)).die = d }
      s.inject p) { s with barriers := NMap.erase s.barriers key }

/-- BARRIER_ARRIVAL (13 R285): counted at the home, once a route leads to the gang's entry; held there while another pair has the
barrier (06 R143). -/
def execBarrierArrival (k : Nat) (s : State) : Result State :=
  if s.packetWaits k 12 fun p => s.gangAway (vdKey (s.moduleOf p.dst) p.vd) p.dst p.gang then .next s
  else s.arrives k 12 fun p s =>
    let id := bits p.a 7 0
    let key := podBarrier id
    let s := (s.arriveAt key p.vd p.gang (p.links.headD 0) [p.src]).gangRecords (vdKey (s.moduleOf p.dst) p.vd) p.dst p.gang
    if s.podCount p.dst p.vd p.gang ≤ (s.barriers.getD key {}).arrived.length then s.completePod key p.dst id else s

/-- BARRIER_RELEASE (13 R285). -/
def execBarrierRelease (k : Nat) (s : State) : Result State :=
  s.arrives k 13 fun p s =>
    s.releaseArrived (podBarrier (bits p.a 7 0)) (p.links.filter fun w => (NMap.find? s.tasks (w / 2)).isSome)

/-- BARRIER_COUNT_LOWERED (06 R143): a held barrier whose members have all arrived by the present count completes; the count is read
once a route leads to it. -/
def execBarrierCountLowered (vd gang : Nat) (sc : Scope) (inst id : Nat) (s : State) : Result State :=
  let key := barKey sc inst id
  match NMap.find? s.barriers key with
  | none => .next s
  | some b =>
    if b.vd != vd || b.gang != gang then .next s
    else
      match sc with
      | .pod =>
        let home := s.barrierHome (s.moduleOf (b.dies.headD 0)) vd gang id
        if s.gangAway (vdKey (s.moduleOf home) vd) home gang then .next s else
        let s := s.gangRecords (vdKey (s.moduleOf home) vd) home gang
        if s.podCount home vd gang ≤ b.arrived.length then .next (s.completePod key home id) else .next s
      | _ =>
        let die := b.arrived.head?.elim 0 fun w => (s.task (w / 2)).die
        if s.gangAway vd die gang then .next s else
        let s := s.gangRecords vd die gang
        if (s.gangEntry vd gang).barCount sc ≤ b.arrived.length then .next (s.completeBarrier key) else .next s

/-! ### Malformed packets (13 R280, R281) -/

/-- The end mark of a hop list, and the entries of a split copy (13 R281, R288). -/
def hopEnd : Byte := 0x07#8
def hopSplit : List Byte := [0xC0#8, hopEnd]

/-- The entry a router acts on. -/
def Packet.hop (p : Packet) : Byte := p.hops.headD hopEnd

/-- The op and the port of an entry. -/
def hopOp (h : Byte) : Nat := h.toNat / 64
def hopPort (h : Byte) : Nat := h.toNat % 8

/-- Whether an entry may not be acted on by a packet of a kind (13 R281). -/
def badHop (kind : Nat) (h : Byte) : Bool :=
  h == hopEnd || h.toNat / 8 % 8 != 0 || (hopOp h ≤ 1 && 6 ≤ hopPort h) || (kind == 8 && hopOp h == 3)

/-- Whether a router drops a packet as malformed: kind 15, a spent ttl, or a bad entry (13 R280, R281). -/
def Packet.malformed (p : Packet) : Bool :=
  match p.kind with
  | 15 => true
  | 6 | 9 => badHop p.kind p.hop || (p.ttl == 0 && hopOp p.hop != 3)
  | 8 => badHop 8 p.hop || p.ttl == 0
  | _ => false

/-- MALFORMED_PACKET (13 R280, R281): the packet is dropped and counted. -/
def execMalformedPacket (k : Nat) (s : State) : Result State :=
  match NMap.find? s.packets k with
  | none => .next s
  | some p =>
    if p.malformed then .next ((s.dropPacket k).modDie p.at' fun d => { d with malf := d.malf + 1#64 }) else .next s

end Sys2Proof.Machine
end

