-- ==== Sys2Proof/Machine/Groups.lean ====
section
/-!
DEFINITION. Group tables, group words, member blocks and muster words (13 R286, R287, R292 to R294, 17 R377).
-/

namespace Sys2Proof.Machine

/-! ### The group table (13 R286, R287) -/

/-- A valid entry of a group table. Masks are sets of members, bit m for member m. -/
structure Group where
  gen : Nat := 0
  bf16 : Bool := false
  k : Nat := 1
  n : Nat := 1
  e : Nat := 1
  expect : Nat := 0
  root : Nat := 0
  mbase : Nat := 0
  up : List Byte := []
  masks : List Nat := []
  lags : List Nat := []
  wt : List Nat := []
  deriving DecidableEq, Repr

/-- Members of a group at most, and the members of a mask in ascending order. -/
def memberMax : Nat := 512
def maskMembers (m : Nat) : List Nat := (List.range memberMax).filter fun i => m.testBit i
def popcount (m : Nat) : Nat := (maskMembers m).length

/-- Whether an up list is well formed: every entry before its end mark obeys 13 R281, and it delivers, before any split. -/
def upOk : List Byte → Bool → Bool
  | [], seen => seen
  | h :: l, seen =>
    if h = hopEnd then seen
    else !badHop 0 h && (seen || hopOp h != 3) && upOk l (seen || hopOp h == 2)

/-- The entry of 1024 bytes for a module, whose record gives the pod's axis lengths; none if it is invalid (13 R287). -/
def readGroup (s : State) (m : Nat) (bs : List Byte) : Option Group :=
  let d := dword bs
  let part (off n : Nat) : List Byte := (bs.drop off).take n
  let zero (l : List Byte) : Bool := l.all fun b => b == 0#8
  let x := d 1 % 16
  let y := d 1 / 2 ^ 4 % 16
  let z := d 1 / 2 ^ 8 % 16
  let nm1 := d 0 / 2 ^ 16 % 512
  let km1 := d 0 / 2 ^ 32 % 512
  let em1 := d 0 % 64
  let ctype := d 0 / 2 ^ 48 % 16
  let up := part 32 32
  let (lx, ly, lz) := s.lengths m
  if d 0 / 2 ^ 63 = 0 ∨ d 0 / 2 ^ 56 % 128 ≠ 0 ∨ d 0 / 2 ^ 41 % 128 ≠ 0 ∨ d 0 / 2 ^ 25 % 128 ≠ 0 ∨ d 0 / 2 ^ 6 % 1024 ≠ 0 ∨
      1 < ctype ∨ nm1 < km1 ∨ 55 < em1 ∨ d 1 / 2 ^ 26 ≠ 0 ∨ d 1 / 2 ^ 12 % 16 ≠ 0 ∨ lx ≤ x ∨ ly ≤ y ∨ lz ≤ z ∨
      d 2 / 2 ^ 52 ≠ 0 ∨ d 2 % 1024 ≠ 0 ∨ d 3 ≠ 0 then none
  else if !upOk up false || !zero (part 782 242) then none
  else some
    { gen := d 0 / 2 ^ 52 % 16, bf16 := ctype = 1, k := km1 + 1, n := nm1 + 1, e := em1 + 1, expect := d 1 / 2 ^ 16 % 1024,
      root := s.dieNamed m x y z, mbase := d 2, up, masks := (List.range 7).map fun p => leNat (part (64 + 64 * p) 64),
      lags := (List.range memberMax).map fun m => min 7 (leNat (part (512 + m / 2) 1) / 16 ^ (m % 2) % 16),
      wt := (List.range 7).map fun i => leNat (part (768 + 2 * i) 2) }

/-- The IPA of a group's entry in the table of a VD on a die (13 R286). -/
def State.groupIpa (s : State) (vdk die gid : Nat) : Nat :=
  (s.vd vdk).field (0xB0 + 8 * s.dieInModule die) 8 % 2 ^ 52 + 1024 * gid

/-- The valid entry a die holds for a group of a VD number, as it stands (log 16). -/
def State.group (s : State) (die vd gid : Nat) : Option Group :=
  let k := vdKey (s.moduleOf die) vd
  match s.deviceBytes k (s.groupIpa k die gid) 1024 with
  | .error _ => none
  | .ok bs => readGroup s (k / 256) bs

/-- Whether no route leads from a die to its entry for a group: what needs the entry waits (01 R16, R17, 13 R278). -/
def State.groupAway (s : State) (die vd gid : Nat) : Bool :=
  let k := vdKey (s.moduleOf die) vd
  !s.ipaRouted die k (s.groupIpa k die gid) 1024

/-- The records that a die's read of an entry gives rise to (12 R275, 14 R311, R312; log 16). -/
def State.groupRecords (s : State) (die vd gid : Nat) : State :=
  let k := vdKey (s.moduleOf die) vd
  match s.devicePa k (s.groupIpa k die gid) false with
  | .error f => s.deviceFault k die .read f
  | .ok pa => (s.crossTo die pa).records (s.readNotes { vd := some k, die, acc := .read } 0 pa 1024)

/-- The set of members whose task is on the die. -/
def Group.here (g : Group) : Nat := g.masks.getD 6 0

/-! ### Group words (13 R292) -/

/-- Group id, generation, tag and member of a group word or of doubleword a of a packet (13 R280, R292). -/
def gwId (w : Nat) : Nat := w % 2 ^ 12
def gwGen (w : Nat) : Nat := w / 2 ^ 12 % 16
def gwTag (w : Nat) : Nat := w / 2 ^ 16 % 2 ^ 16

/-- Doubleword a of a packet (13 R280). -/
def groupField (w tag member : Nat) : W64 := BitVec.ofNat 64 (w % 2 ^ 16 + tag % 2 ^ 16 * 2 ^ 16 + member % 512 * 2 ^ 32)

/-- The valid entry of the generation a group word names (13 R287). -/
def State.groupNow (s : State) (die vd w : Nat) : Option Group :=
  match s.group die vd (gwId w) with
  | some g => if g.gen = gwGen w then some g else none
  | none => none

/-- The checks of a group word and a member on a die (13 R294): the entry, or the cause. -/
def State.checkMember (s : State) (die vd w m : Nat) : Except Nat Group :=
  match s.groupNow die vd w with
  | none => .error Cause.muGroup
  | some g => if g.n ≤ m ∨ g.here.testBit m = false then .error Cause.muMember else .ok g

/-! ### Muster words (13 R293) -/

/-- A muster word. A cause of 0 means no error. -/
def musterWord (kind cause counted folded stale tag : Nat) : Nat :=
  (if cause = 0 then 0 else 2 ^ 63) + kind % 8 * 2 ^ 60 + cause % 512 * 2 ^ 48 + counted % 1024 * 2 ^ 38 +
    folded % 1024 * 2 ^ 28 + min stale 4095 * 2 ^ 16 + tag % 2 ^ 16

/-! ### Member blocks (13 R292) -/

/-- The IPA of a member's block, and the bytes of it that the device writes or reads. -/
def Group.block (g : Group) (m : Nat) : Nat := g.mbase + 1024 * m
def blockSize : Nat := 576

/-- Whether no route leads from a die to a member's block, so that what needs it waits (01 R16, R17, 13 R278). -/
def State.blockAway (s : State) (die vd : Nat) (g : Group) (m : Nat) : Bool :=
  !s.ipaRouted die (vdKey (s.moduleOf die) vd) (g.block m) blockSize

/-- Whether no route leads from a die to its entry for a group word, or to the block of a member that is there and in a string. -/
def State.nearAway (s : State) (die vd w str : Nat) : Bool :=
  s.groupAway die vd (gwId w) ||
  match s.groupNow die vd w with
  | none => false
  | some g => (maskMembers (str % 2 ^ g.n &&& g.here)).any fun m => s.blockAway die vd g m

/-- Bytes written at an offset of a member's block. An unwritable block takes none, and the failure is recorded in the
firmware's ring (13 R298). -/
def State.writeBlock (s : State) (vdk die : Nat) (g : Group) (m off : Nat) (bs : List Byte) : Bool × State :=
  match s.devicePieces vdk (g.block m) blockSize true with
  | .error f => (false, s.deviceFault vdk die .write f)
  | .ok _ =>
    match s.deviceStore (blockWho vdk die) vdk (g.block m + off) bs with
    | .error f => (false, s.deviceFault vdk die .write f)
    | .ok s => (true, s)

/-- A muster word written to a member's block. -/
def State.writeWord (s : State) (vdk die : Nat) (g : Group) (m off w : Nat) : State :=
  (s.writeBlock vdk die g m off (leBytes 8 w)).2

/-- The entry, of whatever generation, that names a member's block on a die (13 R295). -/
def State.blockEntry (s : State) (die vd w m : Nat) : Option Group :=
  match s.group die vd (gwId w) with
  | some g => if m < g.n ∧ g.here.testBit m = true then some g else none
  | none => none

/-- Whether no route leads from a die to its entry for a group word, or to the block that E1 of a member goes to (13 R295). -/
def State.sourceAway (s : State) (die vd w m : Nat) : Bool :=
  s.groupAway die vd (gwId w) || match s.blockEntry die vd w m with | none => false | some g => s.blockAway die vd g m

/-! ### Entries of MLDRs (13 R299) -/

/-- The failure entry: the canonical NaN pair in every place. -/
def failureEntry : List Byte := (List.replicate 64 (leBytes 8 0x7FC00000)).flatten

/-- A result as an entry: its pairs, the rest 0. -/
def resultEntry (pairs : List Byte) : List Byte := (pairs ++ List.replicate 512 0#8).take 512

/-- A pending MLDR receives its entry, which then enters its queue as any other does (16 R374); reads of it still under way are for
nothing. -/
def State.giveEntry (s : State) (id : Nat) (bs : List Byte) : State :=
  { s with packets := s.packets.filter (fun p => !(p.2.acc = id && p.2.kind ≤ 1)), accesses := s.accesses.upd id fun a =>
      match a.purpose with
      | .contribute _ _ _ _ _ (some (q, tag)) _ =>
        { a with purpose := .entry q tag, parts := [{ len := 512, bytes := bs, stat := .done }] }
      | _ => a }

/-- The pending MLDRs on a die whose contribution satisfies a condition on its group word, member and tag. -/
def State.mldrs (s : State) (die vd : Nat) (p : Nat → Nat → Nat → Bool) : List Nat :=
  (s.accesses.filter fun a => a.2.die = die && a.2.vdk % 256 = vd &&
    match a.2.purpose with
    | .contribute w m tag _ _ (some _) sent => sent && p w m tag
    | _ => false).map (·.1)

/-- A list of MLDRs receive one entry each. -/
def State.giveAll (s : State) (ids : List Nat) (bs : List Byte) : State := ids.foldl (fun s i => s.giveEntry i bs) s

/-! ### Re-sharding (13 R301) -/

/-- The pending MLDRs of a die whose group's entry has changed generation take the failure entry, and E2 says so, whether or not their
contributions have been sent; one whose entry or block no route leads to does so later. -/
def State.reshard (s : State) (die : Nat) : State :=
  s.accesses.foldl (fun s a =>
    match a.2.purpose with
    | .contribute w m tag _ _ (some _) _ =>
      if a.2.die != die || s.sourceAway die (a.2.vdk % 256) w m then s else
      (match s.group die (a.2.vdk % 256) (gwId w) with
       | none => s
       | some g =>
         if g.gen = gwGen w then s else
         let s := s.giveEntry a.1 failureEntry
         if m < g.n ∧ g.here.testBit m = true then
           s.writeWord a.2.vdk die g m 8 (musterWord 2 Cause.muGroup 0 0 0 tag)
         else s)
    | _ => s) s

/-- What a die does before it judges anything by its entry for a group word: it reads the entry (13 R287, R301). -/
def State.judging (s : State) (die vd w : Nat) : State := (s.reshard die).groupRecords die vd (gwId w)

end Sys2Proof.Machine
end

