-- ==== Sys2Proof/Machine/Drover.lean ====
section
/-!
DEFINITION. The drover: tasks born from bells (07 R165, 12 R254), decisions (12 R260, R261, R264), stops and switches
(02 R50, 12 R263), parking and restoring (12 R262, R264), partitions (12 R255), and the microsecond step (12 R258). Log 26
says what the manual leaves open about a decision.
-/

namespace Sys2Proof.Machine

/-! ### Time -/

/-- The present tick of a die. -/
def State.now (s : State) (die : Nat) : Nat := (s.die die).clk.toNat

/-- A VD's quantum in ticks (12 R260, 14 R304). -/
def State.quantum (s : State) (vdk : Nat) : Nat := (s.vd vdk).field 0x52 2 % 2 ^ 10 * 100

/-- Quanta after which a ready task starves (12 R261), and a parked one is re-homed (12 R255). -/
def starvingQuanta : Nat := 64
def rehomeQuanta : Nat := 4

/-! ### Ready tasks and their rank (12 R253, R260) -/

/-- Bands of a level that a task's tiles take. -/
def Task.bands (t : Task) (lvl : Bool) : Nat :=
  t.tiles.foldl (fun n h => if h.2.lvl = lvl then n + h.2.bands.length else n) 0

/-- Whether a task's bands can be allocated on a core (12 R264). -/
def State.fits (s : State) (t : Task) (core : Nat) : Bool :=
  t.bands false ≤ (s.bandsFree core false).length && t.bands true ≤ (s.bandsFree core true).length

/-- Whether a task is ready (12 R253). -/
def Task.ready (t : Task) : Bool := match t.place with | .standby | .parked => true | _ => false

/-- Whether a task is a candidate of its quad's decision (12 R255, R260, R264). -/
def State.candidate (s : State) (t : Task) : Bool :=
  t.ready && !t.parkAfter && !t.dying && t.dest.isNone && !t.rehome && s.vdRuns t.vdKey && (s.partition t.vdKey t.die).contains t.quad &&
    (t.place == .standby || (quadCores t.die t.quad).any (s.fits t))

/-- Whether one task ranks before another (12 R260). -/
def State.before (s : State) (a b : Task) : Bool :=
  match a.starving, b.starving with
  | true, false => true
  | false, true => false
  | true, true => a.readySince < b.readySince || (a.readySince = b.readySince && a.tid.toNat < b.tid.toNat)
  | false, false =>
    s.eff b < s.eff a || (s.eff a = s.eff b &&
      (a.readySince < b.readySince || (a.readySince = b.readySince && a.tid.toNat < b.tid.toNat)))

/-- A task put into a ranked list. -/
def State.rankInto (s : State) (x : Nat) : List Nat → List Nat
  | [] => [x]
  | y :: ys => if s.before (s.task x) (s.task y) then x :: y :: ys else y :: s.rankInto x ys

/-- Whether a switch to a task is under way: its decision is not repeated (12 R264). -/
def State.chosen (s : State) (uid : Nat) : Bool :=
  s.cores.any fun c => match c.2.plan with | some p => p.inn == some uid | none => false

/-- The candidates of a quad, best first. -/
def State.candidates (s : State) (die quad : Nat) : List Nat :=
  (s.tasks.filter fun t => t.2.die = die && t.2.quad = quad && s.candidate t.2 && !s.chosen t.1).foldl (fun l t => s.rankInto t.1 l) []

/-! ### Births from bells (07 R164 to R166, 12 R254) -/

/-- The task of a pending entry (07 R165). -/
def State.bellTask (s : State) (die index quad : Nat) (b : Bell) (tid : BitVec 32) : Task :=
  let base := newTask (b.vd / 256) die (b.vd % 256) b.entry quad (s.now die)
  let ctl := (((base.ctl.put 1#5 b.arg).put 2#5 b.first).put 3#5 (BitVec.ofNat 64 b.count)).put 4#5 (BitVec.ofNat 64 index)
  { base with tid, ctl, gang := b.gang, prio := s.ceiling b.vd b.prio, origin := 2#2, level := b.level, stops := b.stops,
              trVec := b.trVec, s1root := b.s1root, asid := b.asid, rngKey := b.key, rngCtr := b.ctr }.loadConverters

/-- Whether an entry owes a task: it is pending, or was when it was disarmed with its rings kept (07 R165, R167, R170). -/
def Bell.owes (b : Bell) : Bool :=
  match b.state with
  | .pending => true
  | .disarmed => b.why != 3#2 && b.count != 0
  | _ => false

/-- One entry turned into a task where quota and place allow (07 R165, 12 R254). -/
def State.bear (s : State) (k : Nat) : State :=
  let b := s.bell k
  let die := k / bellCount
  if !b.owes || !s.vdRuns b.vd || !s.quotaOk b.vd die then s else
  match s.homeQuad b.vd die with
  | none => s
  | some q =>
    let (tid, s') := s.freshTid die
    match s'.enrol (s.bellTask die (k % bellCount) q b tid) with
    | none => s
    | some (_, s') => s'.modBell k fun b =>
        { b with state := (match b.state with | .pending => .armed | x => x), count := 0, ctr := b.ctr + b.stride.setWidth 128 }

/-- The entries of a die, lowest index first, turned into tasks. -/
def State.bearAll (s : State) (die : Nat) : State :=
  let ks := ((s.bells.filter fun b => b.1 / bellCount = die && b.2.owes).map (·.1)).foldl (fun l k => insertAsc k l) []
  ks.foldl State.bear s

/-! ### Replacement (12 R260, R261, R264) -/

/-- Park frames of a die that a list of tasks may take beside the parks already ordered (12 R264). -/
def State.framesFor (s : State) (l : List Nat) : Bool :=
  l.all fun u =>
    let t := s.task u
    let want := (l.filter fun v => (s.task v).vdKey = t.vdKey).length
    let owed := s.countTasks t.die fun x => x.parkAfter && !x.inFrame && x.vdKey = t.vdKey
    want + owed ≤ ((s.die t.die).freeFrames t.vdKey).length

/-- The ready task in a core's standby slot, and the held one. -/
def State.readyIn (s : State) (core : Nat) : Option Nat :=
  match s.standbyOf core with
  | some u => if (s.task u).place == .standby then some u else none
  | none => none
def State.heldIn (s : State) (core : Nat) : Bool :=
  match s.standbyOf core with | some u => (s.task u).place == .held | none => false

/-- What a switch to a candidate on a core needs beside the victim's stop: the tasks to be parked, whether the candidate must
be restored there first, and whether it goes straight into the active slot; none where frames or bands are short. -/
structure Way where
  parks : List Nat := []
  restore : Bool := false
  direct : Bool := false

def State.way (s : State) (c core : Nat) (victim : Option Nat) : Option Way :=
  let t := s.task c
  if t.place == .standby && t.core == some core then some {}
  else
    let self := if t.place == .standby then [c] else []
    let w : Way :=
      if s.heldIn core then { parks := self ++ victim.toList, restore := true, direct := true }
      else { parks := self ++ (s.readyIn core).toList, restore := true }
    if s.framesFor w.parks && s.fits t core then some w else none

/-- A victim: its core, its task unless the slot is empty, and its priority. -/
structure Victim where
  core : Nat
  uid : Option Nat
  eff : Int
  since : Nat

/-- Whether a task may not be replaced: it was starving and has not run its quantum (12 R261). -/
def State.shielded (s : State) (t : Task) : Bool :=
  t.starving && !t.yielded && s.now t.die < t.activeSince + s.quantum t.vdKey

/-- The active slots of a quad that a switch may take: no switch or restore under way, no held or dying task in them. -/
def State.victims (s : State) (die quad : Nat) : List Victim :=
  (quadCores die quad).filterMap fun c =>
    if (s.core c).plan.isSome || (s.tasks.any fun t => t.2.dest = some c) then none
    else
      match s.activeOf c with
      | none => some ⟨c, none, -1, 0⟩
      | some u =>
        let t := s.task u
        if t.place != .active || t.dying || t.parkAfter || s.shielded t then none
        else some ⟨c, some u, s.eff t, t.activeSince⟩

/-- The lowest victim: least priority, then longest active, then lowest core (12 R260). -/
def lowestVictim (l : List Victim) : Option Victim :=
  l.foldl (fun best v =>
    match best with
    | none => some v
    | some b => if v.eff < b.eff ∨ (v.eff = b.eff ∧ v.since < b.since) then some v else best) none

/-- Whether a candidate replaces a victim (12 R260). -/
def State.replaces (s : State) (c : Task) (v : Victim) : Bool :=
  let e : Int := s.eff c
  match v.uid with
  | none => true
  | some u =>
    let t := s.task u
    decide (v.eff < e) || c.starving || t.yielded ||
      (decide (v.eff ≤ e) && decide (t.activeSince + s.quantum t.vdKey ≤ s.now t.die))

/-- A whole task halted at once, saved full (12 R263). -/
def Task.haltAll (t : Task) : Task := t.mapEngs fun e => { e with stop := .stopped, stall := none }

/-- A task of the machine so halted. -/
def State.haltTask (s : State) (u : Nat) : State := (s.dropTlbis u).modTask u Task.haltAll

/-- A task that a switch or a re-homing will park. -/
def State.parkSoon (s : State) (u : Nat) : State := s.modTask u fun t => { t with parkAfter := true }

/-- A switch begins: the victim is asked to stop, or halted if it yields, and the candidate is restored where it must be
(12 R260, R264). -/
def State.startSwitch (s : State) (c : Nat) (v : Victim) (w : Way) : State :=
  let s := w.parks.foldl State.parkSoon s
  let s := match v.uid with
    | none => s
    | some u => if (s.task u).yielded then s.haltTask u else s.requestStop u
  let s := if w.restore then s.modTask c fun t => { t with dest := some v.core } else s
  s.modCore v.core fun x => { x with plan := some { out := v.uid, inn := some c, direct := w.direct } }

/-- The replacements of a decision: each candidate in rank order, until one replaces nothing (12 R260). `first` is the first
round, in which a yielding task is the victim. -/
def State.rounds' (s : State) (die quad : Nat) (first : Bool) : List Nat → State
  | [] => s
  | c :: cs =>
    let t := s.task c
    let can := (s.victims die quad).filter fun v => (s.way c v.core v.uid).isSome
    let yielder := can.find? fun v => first && match v.uid with | some u => (s.task u).yielded | none => false
    match (match yielder with | some v => some v | none => lowestVictim can) with
    | none => s
    | some v =>
      if !s.replaces t v then s
      else
        match s.way c v.core v.uid with
        | none => s
        | some w => (s.startSwitch c v w).rounds' die quad false cs

/-! ### Standby slots (12 R260 step 5) -/

/-- The cores of a quad in ascending order of their active task's priority. -/
def State.byActive (s : State) (die quad : Nat) : List Nat :=
  let eff (c : Nat) : Int := match s.activeOf c with | some u => s.eff (s.task u) | none => -1
  let rec put (c : Nat) : List Nat → List Nat
    | [] => [c]
    | d :: ds => if eff d ≤ eff c then d :: put c ds else c :: d :: ds
  (quadCores die quad).foldl (fun l c => put c l) []

/-- The standby slot of one core filled, or its occupant exchanged, from the parked candidates left. -/
def State.fillSlot (s : State) (parked : List Nat) (core : Nat) : State × List Nat :=
  if (s.core core).plan.isSome || (s.tasks.any fun t => t.2.dest = some core) then (s, parked)
  else
    match parked.find? fun c => s.fits (s.task c) core with
    | none => (s, parked)
    | some c =>
      let go (s : State) : State × List Nat := (s.modTask c fun t => { t with dest := some core }, parked.erase c)
      match s.standbyOf core with
      | none => go s
      | some u =>
        let t := s.task u
        if t.place == .standby && !t.parkAfter && s.before (s.task c) t && s.framesFor [u] then go (s.parkSoon u)
        else (s, parked)

/-- The gangs whose entries a decision reads: those of the quad's tasks that have failed polls to weigh (12 R256, R259). -/
def State.gangsOf (s : State) (die quad : Nat) : List (Nat × Nat) :=
  (s.tasks.filter fun t => t.2.die = die && t.2.quad = quad && t.2.polls ≠ 0).map fun t => (t.2.vdKey, t.2.gang.toNat)

/-- A yielding task after the decision: it is protected no more (12 R261). -/
def Task.afterYield (t : Task) : Task := if t.yielded then { t with yielded := false, starving := false } else t

/-- DROVER_DECISION (12 R254, R260): for a quad that owes one, once routes lead to the gang entries that it reads. -/
def execDroverDecision (die quad : Nat) (s : State) : Result State :=
  if !(s.die die).decide.contains quad || !(s.die die).inService ||
      (s.gangsOf die quad).any (fun g => s.gangAway g.1 die g.2) then .next s
  else
    let s := s.modDie die fun d => { d with decide := d.decide.filter fun q => q ≠ quad }
    let s := (s.bearAll die).gangsRead die (s.gangsOf die quad)
    let s := s.rounds' die quad true (s.candidates die quad)
    let s := { s with tasks := s.tasks.map fun (t : Nat × Task) =>
      (t.1, if t.2.die = die ∧ t.2.quad = quad then t.2.afterYield else t.2) }
    let parked := (s.candidates die quad).filter fun c => (s.task c).place == .parked
    .next ((s.byActive die quad).foldl (fun (r : State × List Nat) c => r.1.fillSlot r.2 c) (s, parked)).1

/-! ### Stops (12 R263) -/

/-- Whether a sequencer of an active task has been asked to stop, and after how many slots. -/
def State.asked (s : State) (uid : Nat) (en : Engine) : Option Nat :=
  match (s.task uid).place, ((s.task uid).eng en).stop with
  | .active, .asked n => some n
  | _, _ => none

/-- STOP_POINT_REACHED (03 R63, 12 R263): a sequencer asked to stop has reached a listed stop point and halts there, under its mask.
EXE first takes the arithmetic trap that is due at the point (12 R272). -/
def execStopPointReached (uid : Nat) (en : Engine) (s : State) : Result State :=
  match (s.task uid).place, ((s.task uid).eng en).stop with
  | .active, .point m => if en == .exe && s.arithDue uid then .next s else .next (s.halt uid en (some m))
  | _, _ => .next s

/-- FORCED_STOP (06 R150, 12 R263): a sequencer that is stalled, or waits before a unit of EXE that works, or has found no stop point
in 4096 slots, or runs a handler, stops where it stands. One that has issued since the request meets a listed point there first. -/
def execForcedStop (uid : Nat) (en : Engine) (s : State) : Result State :=
  match s.asked uid en with
  | some n =>
    if stopBound ≤ n || ((s.task uid).eng en).stall.isSome || (s.task uid).trBusy then .next (s.halt uid en none)
    else
      match en, s.unitStop uid with
      | .exe, some u =>
        (match n, u.meetStop uid en with
         | 0, _ => .next (u.halt uid en none)
         | _, (true, v) => .next v
         | _, (false, v) => .next (v.halt uid en none))
      | _, _ => .next s
  | none => .next s

/-- Whether all four sequencers of a task have stopped (12 R263). -/
def Task.allStopped (t : Task) : Bool := engines.all fun e => (t.eng e).stop == .stopped

/-- A task leaves an active slot: it is ready from now on, and its sequencers may run when it is next active (12 R253). -/
def Task.leave (t : Task) (p : Place) (now : Nat) : Task :=
  { t.mapEngs (fun e => { e with stop := .none, stall := none }) with
    place := p, readySince := now, starving := false, yielded := false, lastPoll := none, fullSince := none }

/-- A task enters an active slot. -/
def Task.enter (t : Task) (core now : Nat) : Task :=
  { t.wake with place := .active, core := some core, activeSince := now, dest := none, fullSince := none, masked := false }

/-- A switch that cannot be made: the task that was to leave runs on. -/
def State.abortSwitch (s : State) (core : Nat) (p : Plan) : State :=
  let s := s.modCore core fun c => { c with plan := none }
  match p.out with
  | some u => if (NMap.find? s.tasks u).isSome && (s.task u).place == .active && !(s.task u).parkAfter then
      s.modTask u fun t => t.mapEngs fun e => { e with stop := .none } else s
  | none => s

/-- SLOT_SWITCH (02 R50, 12 R260): the task to leave has stopped, or is gone, and the task to enter stands by. -/
def execSlotSwitch (core : Nat) (s : State) : Result State :=
  let x := s.core core
  match x.plan with
  | none => .next s
  | some p =>
    if x.freeze then .next s else
    match p.inn with
    | none => .next (s.abortSwitch core p)
    | some c =>
      let t := s.task c
      let now := s.now (core / coresPerDie)
      if t.dest = some core then .next s
      else if t.place != .standby || t.core != some core || t.parkAfter then .next (s.abortSwitch core p)
      else
        match s.activeOf core with
        | some u =>
          if some u != p.out || (s.task u).place != .active || !(s.task u).allStopped || (s.task u).dying then .next s
          else
            let s := s.modTask u fun t => t.leave .standby now
            .next (((s.modTask c fun t => t.enter core now).modCore core fun y => { y with plan := none }).dueDecision t.die t.quad)
        | none => .next ((s.modTask c fun t => t.enter core now).modCore core fun y => { y with plan := none })

/-! ### Re-homing (12 R255) -/

/-- The completed barriers of the old quad that a re-homed task has still to pass, as they are named on its new quad. -/
def Task.moveBars (t : Task) (quad : Nat) : Task :=
  let old := barKey .quad (t.die * quadsPerDie + t.quad) 0
  let new := barKey .quad (t.die * quadsPerDie + quad) 0
  { t with quad, bars := t.bars.map fun b => if b.1 / 256 = old / 256 then (new + b.1 % 256, b.2) else b }

/-- The arrivals that a task withdraws from the barriers of its old quad before it leaves it (12 R255). -/
def State.withdraw (s : State) (uid : Nat) : State :=
  let t := s.task uid
  let base := barKey .quad (t.die * quadsPerDie + t.quad) 0
  let mine := t.bars.filter fun b => b.1 / 256 = base / 256 && !b.2.2
  let s := mine.foldl (fun s b =>
    match NMap.find? s.barriers b.1 with
    | none => s
    | some x =>
      let arrived := x.arrived.erase (uid * 2 + b2n b.2.1)
      { s with barriers := if arrived.isEmpty then NMap.erase s.barriers b.1 else s.barriers.set b.1 { x with arrived } }) s
  s.modTask uid fun t => { t with bars := t.bars.filter fun b => !mine.contains b }

/-- A task out of its slot that a change of its partition moves: its arrivals are withdrawn, and it is re-homed to a quad of the
partition, once there is one (12 R254, R255). -/
def State.rehomeNow (s : State) (uid : Nat) : State :=
  let s := s.withdraw uid
  let t := s.task uid
  match s.homeQuad t.vdKey t.die with
  | none => s
  | some q => (s.modTask uid fun t => { t.moveBars q with rehome := false, fullSince := none }).dueDecision t.die q

/-- A task whose quad has left its partition (12 R255): stopped, parked and re-homed. -/
def State.evict (s : State) (uid : Nat) : State :=
  let s := (s.withdraw uid).modTask uid fun t => { t with rehome := true }
  let t := s.task uid
  match t.place with
  | .parked => ((s.modTask uid fun t => { t with dest := none }).rehomeNow uid)
  | .active => (s.parkSoon uid).requestStop uid
  | .standby => (s.modTask uid fun t => { t with dest := none }).parkSoon uid
  | .held => if t.inFrame then s.rehomeNow uid else s
  | .retired => s

/-- PARTITION_CHANGE (12 R255): a VD's mask of quads on a die is replaced. A task in its frame that has waited for a quad gets one. -/
def execPartitionChange (module vd die : Nat) (mask : BitVec 36) (s : State) : Result State :=
  let k := vdKey module vd
  if s.moduleOf die ≠ module then .next s
  else
    let off := 0x10 + 8 * s.dieInModule die
    let word := s.dieWord k die / 2 ^ 36 * 2 ^ 36 + mask.toNat
    let s := s.modVd k fun v => { v with cfg := (leBytes 8 word).zipIdx.foldl (fun c b => c.set (off + b.2) b.1) v.cfg }
    .next (s.tasks.foldl (fun s t =>
      if t.2.die = die ∧ t.2.vdKey = k ∧ mask.getLsbD t.2.quad = false then s.evict t.1
      else if t.2.die = die ∧ t.2.vdKey = k ∧ t.2.rehome = true ∧ t.2.inFrame = true then s.rehomeNow t.1
      else s) s)

/-! ### Parking and restoring (12 R262, R264) -/

/-- TASK_PARK (12 R264): a stopped or standby task that is to be parked, once its tile copies are done and a frame is free. Its context is
read out of its core's SRAMs, and of none while the core is frozen (12 R273). -/
def execTaskPark (uid : Nat) (s : State) : Result State :=
  let t := s.task uid
  let stopped := match t.place with | .standby => true | .active => t.allStopped && !t.dying | _ => false
  if !t.parkAfter || !stopped || s.frozen uid || s.tileCopies uid || !s.frameFree t then .next s
  else
    let now := s.now t.die
    let s := s.intoFrame uid
    let s := s.modTask uid fun u => if t.place = .active then u.leave .parked now else { u with place := .parked }
    let s := s.dueDecision t.die t.quad
    .next (if t.rehome then s.rehomeNow uid else s)

/-- HELD_TASK_PARK (12 R264): a held task in a slot, once a frame is free and its core is not frozen (12 R273); it stays held. -/
def execHeldTaskPark (uid : Nat) (s : State) : Result State :=
  let t := s.task uid
  if t.place ≠ .held ∨ t.inFrame = true ∨ s.frozen uid = true ∨ s.tileCopies uid = true ∨ s.frameFree t = false then .next s
  else
    let s := (s.intoFrame uid).dueDecision t.die t.quad
    .next (if t.rehome then s.rehomeNow uid else s)

/-- Fresh bands for a task's tiles on a core, lowest first (12 R264). -/
def allotBands (free0 free1 : List Nat) : List (Nat × Tile) → List (Nat × Tile)
  | [] => []
  | (h, x) :: l =>
    let n := x.bands.length
    if x.lvl then (h, { x with bands := free1.take n }) :: allotBands free0 (free1.drop n) l
    else (h, { x with bands := free0.take n }) :: allotBands (free0.drop n) free1 l

/-- TASK_RESTORE (12 R262, R264, R266): a parked task enters the slot meant for it. A frame that cannot be read retires it, once
nothing of it is outstanding, whatever slot was meant for it. -/
def execTaskRestore (uid : Nat) (g : Integ) (s : State) : Result State :=
  let t := s.task uid
  match t.place, t.dying, t.dest with
  | .parked, true, _ => .next (if s.quiet uid then s.retire uid else s)
  | .parked, false, some core =>
    let x := s.core core
    let direct := match x.plan with | some p => p.direct && p.inn == some uid | none => false
    let free := if direct then (s.activeOf core).isNone else (s.standbyOf core).isNone
    if !free || x.freeze || !s.fits t core then .next s
    else if g ≠ .ok then
      .next ((s.modCore core fun y => match y.plan with
        | some p => if p.inn = some uid then { y with plan := none } else y
        | none => y).retireFault uid { cause := Cause.mcFrame, eng := 0 })
    else
      let tiles := allotBands (s.bandsFree core false) (s.bandsFree core true) t.tiles
      let s := s.modDie t.die fun d => d.giveFrame t.vdKey t.frameAt
      let s := s.modTask uid fun t =>
        { t with place := .standby, core := some core, inFrame := false, frameAt := 0, dest := none, tiles, fullSince := none }
      let s := s.replay uid
      .next (if direct then
        (s.modTask uid fun t => t.enter core (s.now t.die)).modCore core fun y => { y with plan := none }
      else s)
  | _, _, _ => .next s

/-- TASK_STARVING (12 R261): a task ready for 64 quanta; one of a VD that does not run is not ready (12 R253). -/
def execTaskStarving (uid : Nat) (s : State) : Result State :=
  let t := s.task uid
  if t.ready && s.vdRuns t.vdKey && !t.dying && decide (t.readySince + starvingQuanta * s.quantum t.vdKey ≤ s.now t.die) then
    .next (s.modTask uid fun t => { t with starving := true })
  else .next s

/-! ### The microsecond step (12 R255, R258, R260) -/

/-- Whether a quad has a free standby slot. -/
def State.slotFree (s : State) (die quad : Nat) : Bool := (s.freeSlot die quad).isSome

/-- A parked task that is ready, waits at no barrier and has long found no free slot on its quad goes to one that has (12 R253, R255). -/
def State.reconsider (s : State) (uid : Nat) : State :=
  let t := s.task uid
  let now := s.now t.die
  if t.place ≠ .parked ∨ (t.bars.any fun b => !b.2.2) = true ∨ t.rehome = true ∨ t.dest.isSome = true then s
  else if !s.vdRuns t.vdKey || s.slotFree t.die t.quad then s.modTask uid fun t => { t with fullSince := none }
  else
    match t.fullSince with
    | none => s.modTask uid fun t => { t with fullSince := some now }
    | some k =>
      if now ≤ k + rehomeQuanta * s.quantum t.vdKey then s else
      let best := ((s.partition t.vdKey t.die).filter (s.slotFree t.die)).foldl (fun (b : Option (Nat × Nat)) q =>
        let n := s.countTasks t.die fun x => x.quad = q
        match b with
        | some (r, m) => if n < m then some (q, n) else some (r, m)
        | none => some (q, n)) none
      match best with
      | none => s
      | some (q, _) => (s.modTask uid fun t => { t.moveBars q with fullSince := none }).dueDecision t.die q

/-- MICROSECOND_STEP (12 R258, R260): due at every hundredth tick. Boost and graze move, parked tasks are reconsidered,
re-sharded groups are noticed, and every quad decides. -/
def execMicrosecondStep (die : Nat) (s : State) : Result State :=
  if !(s.die die).usDue then .next s
  else
    let s := s.endWindow die
    let s := s.modDie die fun d =>
      { d with usDue := false, usStep := d.usStep + 1, windowDue := decide (d.usStep % grazeWindow = grazeWindow - 1),
               gangs := d.gangs.map fun g => (g.1, g.2.step), decide := List.range quadsPerDie }
    .next ((s.tasks.foldl (fun s t => if t.2.die = die then s.reconsider t.1 else s) s).reshard die)

/-- GRAZE_WINDOW_END (12 R258): after the step that ends a window. -/
def execGrazeWindowEnd (die : Nat) (s : State) : Result State := .next (s.endWindow die)

/-! ### Traps raised outside an instruction (12 R265, R272), and freezes (12 R273) -/

/-- Whether a task may take a trap now. -/
def State.mayTrap (s : State) (uid : Nat) : Bool :=
  let t := s.task uid
  t.place == .active && !t.dying && s.vdRuns t.vdKey &&
    match t.core with | some c => !(s.core c).freeze && (s.die t.die).inService | none => false

/-- The lowest raised trap that may be taken, by engine code. -/
def Task.firstRaised (t : Task) : Option Raised :=
  (t.raised.filter fun r => !r.atIssue && (!r.later || !t.trBusy)).foldl (fun (b : Option Raised) r =>
    match b with
    | some x => if r.eng.code < x.eng.code then some r else some x
    | none => some r) none

/-- TRAP_ENTRY (12 R265): a raised trap is taken; others raised with it wait for TRET. -/
def execTrapEntry (uid : Nat) (s : State) : Result State :=
  match (s.task uid).firstRaised with
  | none => .next s
  | some r =>
    if !s.mayTrap uid then .next s
    else
      let s := s.modTask uid fun t => { t with raised := (t.raised.erase r).map fun x => { x with later := true } }
      .next (s.takeTrap uid r.eng r.code r.val ((s.task uid).eng r.eng).pc 0#64)

/-- ARITH (12 R272): the pending arithmetic trap is taken before EXE's next slot at a stop point, or after 4096 slots. -/
def execArith (uid : Nat) (s : State) : Result State :=
  let t := s.task uid
  if !s.mayTrap uid || t.traps || !s.arithDue uid || t.exe.run == .idle then .next s
  else
    let s := s.modTask uid fun t => { t with arPend := false, arSet := 0#9, arSlots := 0, arStop := false }
    .next (s.takeTrap uid .exe Cause.arith (t.arSet.setWidth 64) t.exe.pc 0#64)

/-- CORRECTED_ERROR_FREEZE (12 R273): a core freezes for 48 cycles, which are counted by the die. -/
def execCorrectedErrorFreeze (core : Nat) (s : State) : Result State :=
  let die := core / coresPerDie
  if (s.core core).freeze || !(s.die die).inService then .next s
  else .next ((s.modCore core fun c => { c with freeze := true }).modDie die fun d => { d with frz := d.frz + 1#64 })

/-- FREEZE_END (12 R273). -/
def execFreezeEnd (core : Nat) (s : State) : Result State := .next (s.modCore core fun c => { c with freeze := false })

end Sys2Proof.Machine
end

