-- ==== Sys2Proof/Machine/Frames.lean ====
section
/-!
DEFINITION. The frames that a VD's stage-2 tables map, their zeroing, a change of a stage-2 mapping, the rebuilding of a poisoned
subtree, and the removal of a VD's tasks and of all that is in flight for it (07 R168, 14 R304, R306, R312, R317).
-/

namespace Sys2Proof.Machine

/-! ### Stage-2 tables as a whole (08 R189) -/

/-- Entries of a stage-2 table of a level, and the bytes that one of them covers as a power of two. -/
def tableEntries2 : Nat → Nat
  | 0 => 2 ^ 5 | 1 => 2 ^ 7 | 2 => 2 ^ 14 | _ => 2 ^ 10
def entryShift2 : Nat → Nat
  | 0 => 16 | 1 => 21 | 2 => 28 | _ => 42

/-- The leaves of a stage-2 table at a level, with the IPA that each maps. -/
def State.leaves2 (s : State) (m : Nat) : Nat → Nat → Nat → List (Nat × Leaf)
  | lvl, table, base =>
    (List.range (tableEntries2 lvl)).flatMap fun i =>
      let ipa := base + i * 2 ^ entryShift2 lvl
      match lvl, readDesc false lvl (leNat (s.fetch none (s.wired m (table + 8 * i)) 8)) with
      | _, .leaf l => if s.paOk m l.addr then [(ipa, { l with addr := s.wired m l.addr })] else []
      | n + 1, .table t => State.leaves2 s m n t ipa
      | _, _ => []

/-- The stage-2 tables at and below a table of a level: where each lies. -/
def State.tables2 (s : State) (m : Nat) : Nat → Nat → List Nat
  | 0, table => [s.wired m table]
  | n + 1, table =>
    s.wired m table :: (List.range (tableEntries2 (n + 1))).flatMap fun i =>
      match readDesc false (n + 1) (leNat (s.fetch none (s.wired m (table + 8 * i)) 8)) with
      | .table t => if s.paOk m t then State.tables2 s m n t else []
      | _ => []

/-- The top table of a stage-2 root. -/
def root2 (root : W64) : Nat := bits root 51 13 * 2 ^ 13

/-- The frames of HBM that a VD's tables map: IPA and leaf. -/
def State.framesOf (s : State) (vdk : Nat) : List (Nat × Leaf) :=
  (s.leaves2 (vdk / 256) 3 (root2 (s.vd vdk).s2root) 0).filter fun f => !isHostPa f.2.addr

/-- n bytes at a line boundary zeroed under fresh counters and a VD's keys; a line of a poisoned subtree takes no write (14 R306, R308,
R309, R312). -/
def State.zeroBytes (s : State) (vd : Option Nat) (pa n : Nat) : State :=
  let mine (a : Nat) : Bool := pa ≤ a && a < pa + n
  let s1 := { s with mem := s.mem.filter fun c => !mine c.1 || s.poisoned c.1
                     bad := s.bad.filter fun b => !mine (b.1 * 64) || s.poisoned (b.1 * 64) }
  (List.range (n / 64)).foldl (fun u i => if s.poisoned (pa + 64 * i) then u else (u.countWrite (pa + 64 * i)).seal vd (pa + 64 * i)) s1

/-- The park frames reserved for a VD, free or in use (12 R264, 14 R306): addresses. -/
def State.parkFrames (s : State) (vdk : Nat) : List Nat :=
  (List.range 8).flatMap fun n =>
    let d := s.dieOf (vdk / 256) n
    if (NMap.find? (s.die d).parkFree vdk).isSome then (List.range ((s.vd vdk).field 0x54 2)).map (Config.parkFrame vdk d) else []

/-- Bytes of a park frame (12 R264). -/
def parkBytes : Nat := 2 ^ 24

/-- Every frame of a VD zeroed (14 R306). -/
def State.zeroFrames (s : State) (vdk : Nat) : State :=
  (s.framesOf vdk).foldl (fun s f => s.zeroBytes (some vdk) f.2.addr (2 ^ f.2.shift)) s

/-! ### Firmware's own TLBI (08 R195, 14 R316, R317) -/

/-- A TLBI that firmware makes on dies: held tasks, copies and ack records that it matches are tried again (08 R199). -/
def State.firmwareTlbi (s : State) (dies : List Nat) (h : Shoot) : State :=
  let s := dies.foldl (fun s d => (s.logShoot d h).dropDie d h.matches) s
  dies.foldl (fun s d => ((s.retryHeld d none h).retryCopies d none h).retryAcks d none h) s

/-! ### STAGE2_MAPPING_CHANGE (07 R168) -/

/-- Where the descriptor that maps an IPA stands, from a table at a level down, and the leaf it holds, if any. -/
def State.slot2 (s : State) (m ipa : Nat) : Nat → Nat → Nat × Option Leaf
  | lvl, table =>
    let pa := s.wired m (table + 8 * levelIndex false lvl ipa)
    match lvl, readDesc false lvl (leNat (s.fetch none pa 8)) with
    | _, .leaf l => (pa, some { l with addr := s.wired m l.addr })
    | n + 1, .table t => State.slot2 s m ipa n t
    | _, _ => (pa, none)

/-- STAGE2_MAPPING_CHANGE (07 R168): firmware replaces the descriptor that maps an IPA, disarms the bells that watch the frame it
mapped, and shoots the old translation down. -/
def execStage2MappingChange (module vd ipa : Nat) (desc : BitVec 64) (s : State) : Result State :=
  let k := vdKey module vd
  let ipa := ipa % 2 ^ 52
  let (pa, old) := s.slot2 module ipa 3 (root2 (s.vd k).s2root)
  let s := s.homeWrite { die := s.dieOf module 0, acc := .write } .ok 0 pa (leBytes 8 desc.toNat)
  let s := match old with
    | some l => s.unmapBells k l.addr (2 ^ l.shift)
    | none => s
  .next (s.firmwareTlbi (s.podOf module) { kind := 3, vd := k, addr := ipa })

/-! ### SUBTREE_REBUILD (14 R312) -/

/-- The parts of a range of memory that a VD's frames cover, its park frames among them: address and length. -/
def State.sharesOf (s : State) (vdk pa n : Nat) : List (Nat × Nat) :=
  ((s.framesOf vdk).map (fun (f : Nat × Leaf) => (f.2.addr, 2 ^ f.2.shift)) ++
    (s.parkFrames vdk).map fun p => (p, parkBytes)).filterMap fun (f : Nat × Nat) =>
    let lo := max f.1 pa
    let hi := min (f.1 + f.2) (pa + n)
    if lo < hi then some (lo, hi - lo) else none

/-- The VDs with keys that own lines of a range, each with its parts of it. -/
def State.ownersOf (s : State) (pa n : Nat) : List (Nat × List (Nat × Nat)) :=
  ((s.vds.filter fun v => v.2.keys.isSome).map fun v => (v.1, s.sharesOf v.1 pa n)).filter fun o => !o.2.isEmpty

/-- The lines of a range written under the keys that a VD's tag chooses (14 R308). -/
def State.sealRange (s : State) (vd : Option Nat) (pa n : Nat) : State :=
  (List.range (n / 64)).foldl (fun s i => s.seal vd (pa + 64 * i)) s

/-- SUBTREE_REBUILD: a poisoned subtree zeroed under fresh counters, every line under its owner's keys, with one record to each VD
that owns lines below it. -/
def execSubtreeRebuild (die first lines : Nat) (s : State) : Result State :=
  if !s.poison.contains (first, lines) then .next s
  else
    let s := ({ s with poison := s.poison.filter fun p => p ≠ (first, lines) } : State).zeroBytes none (first * 64) (lines * 64)
    let owners := s.ownersOf (first * 64) (lines * 64)
    let s := owners.foldl (fun s o => o.2.foldl (fun s r => s.sealRange (some o.1) r.1 r.2) s) s
    .next (s.records (owners.map fun o => (o.1, { die, cause := Cause.intTree })))

/-! ### The end of a VD's tasks (14 R306) -/

/-- Whether a die belongs to a module. -/
def State.inModule (s : State) (m die : Nat) : Bool := s.moduleOf die == m

/-- Every task of a VD leaves, with all that is in flight or cached for it and its bells (14 R306). -/
def State.dropVd (s : State) (k : Nat) : State :=
  let m := k / 256
  let n := k % 256
  let s := ((s.tasks.filter fun t => t.2.vdKey = k).map (·.1)).foldl State.retire s
  let live (w : Nat) : Bool := (NMap.find? s.tasks (w / 2)).isSome
  let here (d : Nat) : Bool := s.inModule m d
  { s with
    accesses := s.accesses.filter fun a => a.2.vdk ≠ k
    copies := s.copies.filter fun c => c.2.vdk ≠ k
    walks := s.walks.filter fun w => w.2.vdk ≠ k
    tlbis := s.tlbis.filter fun b => live b.2.who
    barriers := (s.barriers.map fun b => (b.1, { b.2 with arrived := b.2.arrived.filter live })).filter fun b =>
      !b.2.arrived.isEmpty
    rounds := s.rounds.filter fun r => !(here r.2.die && r.2.vd = n)
    bells := s.bells.filter fun b => b.2.vd ≠ k
    owed := s.owed.filter fun r => r.1 ≠ k
    cores := s.cores.map fun c => (c.1, { c.2 with tlb := c.2.tlb.filter fun e => e.vd ≠ k })
    dies := s.dies.map fun d =>
      if here d.1 then
        (d.1, { d.2 with frames := NMap.erase d.2.frames k, parkFree := NMap.erase d.2.parkFree k
                         gangs := d.2.gangs.filter fun g => g.1 / 65536 ≠ n
                         staleSoon := d.2.staleSoon.filter fun g => g.1 / 4096 ≠ n
                         llt := d.2.llt.filter (fun e => e.vd ≠ k), spaces := d.2.spaces.filter fun x => x.vd ≠ k })
      else d
    hwids := s.hwids.map fun h => (h.1, h.2.filter fun x => x.1 ≠ k) }

end Sys2Proof.Machine
end

