-- ==== Sys2Proof/Machine/Firmware.lean ====
section
/-!
DEFINITION. What firmware serves: the PF window's rings, the measurement report, and the frame that every command and every
service request is answered in (14 R315, R318, R319, 15 R328, R329, R333).
-/

namespace Sys2Proof.Machine

/-! ### The state of a VD as firmware reports it -/

/-- Codes of the VD states (14 R305). -/
def VdState.code : VdState → Nat
  | .free => 0 | .configured => 1 | .running => 2 | .stopped => 3 | .exporting => 4 | .sealed => 5 | .importing => 6
  | .committing => 7 | .lost => 8

/-- Codes of the service states (15 R331). -/
def Service.code : Service → Nat
  | .reset => 0 | .rom => 1 | .test => 2 | .early => 3 | .full => 4 | .out => 5 | .fatal => 6

/-! ### Bytes as wide numbers -/

/-- n bytes of a list from an offset, zero beyond its end. -/
def field (bs : List Byte) (off n : Nat) : List Byte := (((bs.drop off).take n) ++ List.replicate n 0#8).take n

/-- A 256-bit and a 512-bit value of bytes. -/
def word256 (bs : List Byte) : BitVec 256 := BitVec.ofNat 256 (leNat bs)
def word512 (bs : List Byte) : BitVec 512 := BitVec.ofNat 512 (leNat bs)

/-- Bytes of a 256-bit and of a 512-bit value. -/
def bytes256 (v : BitVec 256) : List Byte := leBytes 32 v.toNat
def bytes512 (v : BitVec 512) : List Byte := leBytes 64 v.toNat

/-! ### The PF window (15 R328) -/

/-- Bytes of the window as the host or firmware has written them. -/
def State.windowBytes (s : State) (m off n : Nat) : List Byte :=
  (List.range n).map fun i => (s.module m).window.getD (off + i) 0#8

/-- Bytes put into a map. -/
def putBytes (w : NMap Byte) (off : Nat) (bs : List Byte) : NMap Byte :=
  (bs.zipIdx).foldl (fun w b => w.set (off + b.2) b.1) w

/-- Bytes that firmware writes into the window. -/
def State.putWindow (s : State) (m off : Nat) (bs : List Byte) : State :=
  s.modModule m fun x => { x with window := putBytes x.window off bs }

/-- Places of the window (15 R328). -/
def commandRing : Nat := 0x10000
def answerRing : Nat := 0x20000
def healthArea : Nat := 0x30000
def recordArea : Nat := 0x32000
def stagingArea : Nat := 0x34000
def dumpArea : Nat := 0x40000
def logArea : Nat := 0x80000
def windowEnd : Nat := 0xC0000
def ringBytes : Nat := 0x10000
def stagingBytes : Nat := 0xC000

/-! ### Records of a mailbox that firmware writes (07 R169, R170) -/

/-- A seal: sequence number, lines, kind. -/
def sealWord (seq lines kind : Nat) : List Byte := leBytes 8 (seq % 2 ^ 32 * 2 ^ 32 + lines * 2 ^ 16 + kind * 2 ^ 8)

/-- The stores that put a record of some lines into a ring of a size at a position under a sequence number: offset and bytes, with
a padding record where it would pass the end; then the next position and number. The payload comes before its seal. -/
def ringStores (size pos seq lines : Nat) (payload : List Byte) : List (Nat × List Byte) × Nat × Nat :=
  let put (p q : Nat) : List (Nat × List Byte) := [(p + 8, field payload 0 (64 * lines - 8)), (p, sealWord q lines 0)]
  if pos + 64 * lines ≤ size then (put pos (seq + 1), (pos + 64 * lines) % size, seq + 1)
  else ((pos, sealWord (seq + 1) ((size - pos) / 64) 1) :: put 0 (seq + 2), 64 * lines % size, seq + 2)

/-! ### The measurement report (14 R318, R319) -/

/-- The seed of a die's identity key (14 R318). -/
def identitySeed (die : Nat) : BitVec 256 := (sha512 (bytes256 (Config.puf die))).setWidth 256

/-- The configuration records that a report hashes (15 R341, R342). -/
def factoryBytes : Nat := 384
def placementBytes : Nat := 128
def Module.records (x : Module) : List Byte := field x.factory 0 factoryBytes ++ field x.placement 0 placementBytes

/-- A VD's configuration block with its state field as 0. -/
def Vd.block (v : Vd) : List Byte := (List.range 256).map fun i => if i = 0 then 0#8 else v.cfg.getD i 0#8

/-- The X25519 key of an import in progress, else 0. -/
def Vd.importKey (v : Vd) : List Byte :=
  match v.state with
  | .importing | .committing => bytes256 (xPublic v.migr.secret)
  | _ => List.replicate 32 0#8

/-- The signed part of the report of a VD under a nonce (14 R319). -/
def State.reportBody (s : State) (k : Nat) (nonce : List Byte) : List Byte :=
  let m := k / 256
  let x := s.module m
  let v := s.vd k
  let run := x.running.getD (0, 0#512)
  leBytes 4 0x4D454153 ++ leBytes 2 1 ++ leBytes 2 (b2n x.staged.isSome) ++ field x.factory 8 8 ++ leBytes 4 run.1 ++
    leBytes 4 x.floor ++ leBytes 1 (k % 256) ++ leBytes 1 v.state.code ++ List.replicate 6 0#8 ++ field nonce 0 32 ++
    bytes512 Config.romHash ++ bytes512 run.2 ++ bytes512 (sha512 x.records) ++ bytes512 v.image ++
    bytes512 (sha512 v.block) ++ v.importKey ++ bytes256 (edPublic (identitySeed (s.dieOf m 0)))

/-- The report of a VD (14 R319). -/
def State.report (s : State) (k : Nat) (nonce : List Byte) : List Byte :=
  let body := s.reportBody k nonce
  body ++ bytes512 (edSign (identitySeed (s.dieOf (k / 256) 0)) body)

/-! ### Commands (15 R329) -/

/-- The op and VD of a command record, and its arguments: doubleword i is at byte 24 + 8i. -/
def commandOp (c : List Byte) : Nat := dword c 1
def commandVd (c : List Byte) : Nat := dword c 2
def commandArg (c : List Byte) (i : Nat) : Nat := dword c (3 + i)

/-- The answer of a command: one line, or 9 with a report (15 R329). -/
def State.commandAnswer (s : State) (m op status value : Nat) (report : Option (List Byte)) : State :=
  let x := s.module m
  let head := leBytes 8 op ++ leBytes 8 status ++ leBytes 8 value
  let (lines, payload) := match report with
    | some r => (9, field head 0 56 ++ r)
    | none => (1, head)
  let (stores, pos, seq) := ringStores ringBytes x.replyPos x.replySeq lines payload
  let s := stores.foldl (fun s p => s.putWindow m (answerRing + p.1) p.2) s
  s.modModule m fun x => { x with replyPos := pos, replySeq := seq }

/-- Whether firmware of a module serves, is in reset service, or does neither yet (15 R331, R333, R337). -/
def State.serving (s : State) (m : Nat) : Option Bool :=
  match (s.die (s.dieOf m 0)).service with
  | .early | .full => some true
  | .out | .fatal => some false
  | _ => none

/-- The command that is to be answered next, without it. -/
def State.popCommand (s : State) (m : Nat) : State := s.modModule m fun x => { x with cmds := x.cmds.tail }

/-- What a command does: its effect answers with a status and a value, or with a report, or leaves the command waiting. -/
inductive Answer
  | done (s : State) (status value : Nat)
  | report (s : State) (bs : List Byte)
  | wait (s : State)

/-- A command of an op at the head of the ring (15 R329, R333): an unknown VD is answered with status 1, and reset service
answers with status 3. -/
def State.command (s : State) (m op : Nat) (go : Nat → List Byte → State → Answer) : Result State :=
  match (s.module m).cmds, s.serving m with
  | c :: _, some serves =>
    if commandOp c ≠ op then .next s
    else if serves = false then .next ((s.popCommand m).commandAnswer m op 3 0 none)
    else if 255 < commandVd c then .next ((s.popCommand m).commandAnswer m op 1 0 none)
    else
      match go (vdKey m (commandVd c)) c s with
      | .done s st v => .next ((s.popCommand m).commandAnswer m op st v none)
      | .report s bs => .next ((s.popCommand m).commandAnswer m op 0 0 (some bs))
      | .wait s => .next s
  | _, _ => .next s

/-- The commands that firmware knows. -/
def commandKnown (op : Nat) : Bool := 1 ≤ op && op ≤ 14

/-- Firmware answers a command it does not know (15 R329, R333). -/
def State.badCommand (s : State) (m : Nat) : State :=
  match (s.module m).cmds, s.serving m with
  | c :: _, some serves =>
    if commandKnown (commandOp c) then s
    else (s.popCommand m).commandAnswer m (commandOp c) (if serves then 1 else 3) 0 none
  | _, _ => s

/-! ### MEASURE, POWER, TIME, DUMPCLR -/

/-- MEASURE (14 R319, 15 R329): the report of a VD. -/
def execMeasure (module : Nat) (s : State) : Result State :=
  s.command module 10 fun k c s => .report s (s.report k (field c 24 32))

/-- POWER (15 R329, R340). -/
def execPower (module : Nat) (s : State) : Result State :=
  s.command module 12 fun _ c s =>
    let w := commandArg c 0
    if 1500 ≤ w ∧ w ≤ 4400 then .done (s.modModule module fun x => { x with limit := w }) 0 0 else .done s 1 0

/-- TIME (15 R329). -/
def execTime (module : Nat) (s : State) : Result State :=
  s.command module 13 fun _ c s =>
    .done (s.modModule module fun x =>
      { x with calendar := some (BitVec.ofNat 64 (commandArg c 0), (s.die (s.dieOf module 0)).clk.toNat) }) 0 0

/-- DUMPCLR (15 R329, R339). -/
def execDumpclr (module : Nat) (s : State) : Result State :=
  s.command module 14 fun _ _ s => .done (s.modModule module fun x => { x with dump := none, dumpMore := 0 }) 0 0

/-! ### Service requests (14 R315) -/

/-- The reply to a service request in the VD's reply ring: 9 lines, with a report for MEASURE (14 R315). A ring that stage 2
does not let firmware write takes nothing, with a record in firmware's own ring (log 27). -/
def State.serviceReply (s : State) (k kind status window : Nat) (report : List Byte) : State :=
  let v := s.vd k
  let ipa := v.field 0xA8 8 % 2 ^ 52
  let die := s.dieOf (k / 256) 0
  let payload := field (leBytes 8 kind ++ leBytes 8 status ++ leBytes 8 window) 0 56 ++ field report 0 512
  let (stores, pos, seq) := ringStores Config.replyRing v.replyPos v.replySeq 9 payload
  let s := s.modVd k fun v => { v with replyPos := pos, replySeq := seq }
  stores.foldl (fun s p =>
    match s.deviceStore { vd := some k, die, acc := .write } k ((ipa + p.1) % 2 ^ 52) p.2 with
    | .ok s => s
    | .error f => s.deviceFault k die .write f) s

/-- The kind of a service request. -/
def requestKind (r : List Byte) : Nat := dword r 1

/-- A service request at the head of a VD's ring that an event serves. While an activation is between its check and its commit,
only measurements are answered (14 R321). -/
def State.service (s : State) (m vd : Nat) (mine : Nat → Bool) (go : Nat → List Byte → State → State) : Result State :=
  let k := vdKey m vd
  match (s.vd k).requests, s.serving m with
  | r :: rest, some true =>
    if !mine (requestKind r) || ((s.module m).staged.isSome && requestKind r != 1) then .next s
    else .next (go k r (s.modVd k fun v => { v with requests := rest }))
  | _, _ => .next s

/-- MEASURE_REQUEST (14 R315): a measurement; a kind that firmware does not know is answered with status 1. -/
def execMeasureRequest (module vd : Nat) (s : State) : Result State :=
  s.service module vd (fun n => n = 1 || n = 0 || 4 < n) fun k r s =>
    if requestKind r = 1 then s.serviceReply k 1 0 0 (s.report k (field r 16 32))
    else s.serviceReply k (requestKind r) 1 0 []

end Sys2Proof.Machine
end

