-- ==== Sys2Proof/Machine/Windows.lean ====
section
/-!
DEFINITION. Re-keyed sharing windows: WOPEN, WGRANT and WCLOSE (14 R315 to R317).
-/

namespace Sys2Proof.Machine

/-- Windows of a module (14 R316). -/
def windowCount : Nat := 256

/-- The key of a window of a module. -/
def windowKey (m id : Nat) : Nat := m * windowCount + id

def State.window (s : State) (wk : Nat) : Window := s.windows.getD wk {}

def State.setWindow (s : State) (wk : Nat) (w : Window) : State := { s with windows := s.windows.set wk w }

/-- Sizes of a window (14 R316). -/
def windowUnit : Nat := 2 ^ 21
def windowMax : Nat := 2 ^ 30

/-- The 64 KiB pages that a VD's stage 2 gives for a range, if it maps every one. -/
def State.windowPages (s : State) (k base len : Nat) : Option (List (Nat × Nat × PageOrd)) :=
  (List.range (len / 65536)).foldr (fun i acc =>
    match acc, (s.stage2 k .none 0 (base + 65536 * i)).out with
    | some l, .ok (leaf, pa) => some ((pa, 65536, leaf.ord) :: l)
    | _, _ => none) (some [])

/-- Whether a range may become a window (14 R316). -/
def windowRangeOk (base len : Nat) : Bool :=
  base % windowUnit == 0 && len % windowUnit == 0 && windowUnit ≤ len && len ≤ windowMax && base + len ≤ 2 ^ 52

/-- Keys drawn for a window or a VD (14 R307, R316). -/
def State.drawKeys (s : State) : (BitVec 256 × BitVec 256) × State :=
  let (a, s) := s.draw
  let (b, s) := s.draw
  ((Config.random a, Config.random b), s)

/-- The lines of some pages of a VD are re-encrypted from the keys they have in s to those they have in t: their plaintext stays, and so
do their counters, of which the manual says nothing here; a line that does not verify stays as it is (14 R316, R317; log 28). -/
def State.rekey (s t : State) (k : Nat) (pas : List (Nat × Nat × PageOrd)) : State :=
  let inside (line : Nat) : Bool := pas.any fun q => q.1 ≤ line * 64 && line * 64 < q.1 + q.2.1
  { t with sealed := t.sealed.map fun p =>
      match inside p.1 && s.slotKeys (some k) (p.1 * 64) == some p.2, t.slotKeys (some k) (p.1 * 64) with
      | true, some x => (p.1, x)
      | _, _ => p }

/-- Whether a page lies in a window of another owner: it is not the VD's own memory (14 R316). -/
def State.foreign (s : State) (k pa : Nat) : Bool :=
  s.windows.any fun w => w.1 / windowCount = k / 256 && w.2.open' && w.2.owner ≠ k % 256 &&
    w.2.pas.any fun q => q.1 ≤ pa && pa < q.1 + q.2.1

/-- WOPEN (14 R316). The manual does not say which keys a line of two windows has, nor what becomes of a page that another VD has granted:
here the lines have the keys of the open window with the lowest identifier, and such a page is not the VD's memory, so that the request is
answered with 1 (DESIGN CHOICE, log 28). -/
def State.wopen (s : State) (k base len : Nat) : Nat × Nat × State :=
  let m := k / 256
  if !windowRangeOk base len then (1, 0, s) else
  match s.windowPages k base len with
  | none => (1, 0, s)
  | some pas =>
    if pas.any fun q => s.foreign k q.1 then (1, 0, s) else
    match leastFrom 0 (fun i => !(s.window (windowKey m i)).open') windowCount with
    | none => (2, 0, s)
    | some id =>
      let (keys, s) := s.drawKeys
      (0, id, s.rekey (s.setWindow (windowKey m id) { open' := true, keys, owner := k % 256, base, len, pas }) k pas)

/-- Whether a VD holds a grant of a window. -/
def Window.granted (w : Window) (vd : Nat) : Bool := w.grants.any fun g => g.1 = vd

/-- The bells of a VD on what its stage 2 maps at a page that a window is about to map otherwise are disarmed (07 R168). -/
def State.coverPage (s : State) (k ipa : Nat) (l : Leaf) : State :=
  match (s.stage2 k .none 0 ipa).out with
  | .ok (old, pa) =>
    if pa = l.addr ∧ old.r = l.r ∧ old.w = l.w ∧ old.x = l.x ∧ old.ord = l.ord then s else s.unmapBells k pa 65536
  | .error _ => s

/-- WGRANT (14 R316; log 28 for arguments that the manual does not judge). -/
def State.wgrant (s : State) (k id grantee ipa perm : Nat) : Nat × State :=
  let m := k / 256
  let w := s.window (windowKey m id)
  if windowCount ≤ id || !w.open' || w.owner ≠ k % 256 then (3, s)
  else if 255 < grantee || (perm ≠ 1 && perm ≠ 3) || ipa % 65536 ≠ 0 || 2 ^ 52 < ipa + w.len then (1, s)
  else
    let page (p : Nat × Nat × PageOrd) : Leaf := { addr := p.1, ord := p.2.2, w := perm == 3, r := true }
    let s := w.pas.zipIdx.foldl (fun s p => s.coverPage (vdKey m grantee) (ipa + 65536 * p.2) (page p.1)) s
    let grants := (grantee, ipa, perm == 3) :: w.grants.filter fun g => !(g.1 = grantee && g.2.1 = ipa)
    let s := s.setWindow (windowKey m id) { w with grants }
    (0, s.firmwareTlbi (s.podOf m) { kind := 4, vd := vdKey m grantee })

/-- A grant ends (14 R317): the range maps firmware's zeros, a TLBI completes, and the bells that watched it are disarmed. -/
def State.endGrant (s : State) (wk : Nat) (g : Nat × Nat × Bool) : State :=
  let w := s.window wk
  let k := vdKey (wk / windowCount) g.1
  let s := s.setWindow wk { w with grants := w.grants.filter fun h => h ≠ g }
  let s := s.modVd k fun v => { v with zeroed := v.zeroed ++ [(g.2.1, w.len)] }
  let s := s.firmwareTlbi (s.podOf (k / 256)) { kind := 4, vd := k }
  w.pas.foldl (fun s p => s.unmapBells k p.1 p.2.1) s

/-- A window closes for everyone: every grant ends, and each line is re-encrypted under the owner's keys, or those of another window of
the owner's that it lies in (14 R317, log 28). -/
def State.closeWindow (s : State) (wk : Nat) : State :=
  let w := s.window wk
  let s := w.grants.foldl (fun s g => s.endGrant wk g) s
  let s := s.closeViews w
  s.rekey { s with windows := NMap.erase s.windows wk } (vdKey (wk / windowCount) w.owner) w.pas

/-- Whether accesses of VDs that a condition names are under way in a window: they complete against it before a grant or the window is
gone (14 R317 step 3; log 28). -/
def State.windowBusy (s : State) (wk : Nat) (p : Nat → Bool) : Bool :=
  s.accesses.any fun a => a.2.vdk / 256 = wk / windowCount && p (a.2.vdk % 256) && (s.window wk).touches a.2

/-- Whether what a VD is to give up of a window must wait for such accesses: those of every grantee where the VD owns it, else its own. -/
def State.closeWaits (s : State) (k wk : Nat) : Bool :=
  let w := s.window wk
  w.open' && (if w.owner = k % 256 then s.windowBusy wk (· ≠ k % 256) else w.granted (k % 256) && s.windowBusy wk (· = k % 256))

/-- Every grant of a window that a VD holds ends. -/
def State.endGrants (s : State) (wk vd : Nat) : State :=
  ((s.window wk).grants.filter fun g => g.1 = vd).foldl (fun s g => s.endGrant wk g) s

/-- WCLOSE (14 R317). -/
def State.wclose (s : State) (k id : Nat) : Nat × State :=
  let wk := windowKey (k / 256) id
  let w := s.window wk
  if windowCount ≤ id || !w.open' then (3, s)
  else if w.owner = k % 256 then (0, s.closeWindow wk)
  else if w.granted (k % 256) then (0, s.endGrants wk (k % 256))
  else (3, s)

/-- Whether a VD owns a window or holds a grant of one (14 R317). -/
def State.usesWindow (s : State) (k : Nat) : Bool :=
  s.windows.any fun w => w.1 / windowCount = k / 256 && w.2.open' && (w.2.serves (k % 256))

/-- Whether a VD's windows and grants must wait for accesses under way before they are given up. -/
def State.leaveWaits (s : State) (k : Nat) : Bool :=
  s.windows.any fun w => w.1 / windowCount = k / 256 && s.closeWaits k w.1

/-- Every window that a VD owns closes, and every grant it holds ends (14 R306). -/
def State.leaveWindows (s : State) (k : Nat) : State :=
  let mine := s.windows.filter fun w => w.1 / windowCount = k / 256 && w.2.open'
  mine.foldl (fun s w => if w.2.owner = k % 256 then s.closeWindow w.1 else s.endGrants w.1 (k % 256)) s

/-- WOPEN as a service request (14 R315, R316). -/
def execWopen (module vd : Nat) (s : State) : Result State :=
  s.service module vd (· = 2) fun k r s =>
    let (st, id, s) := s.wopen k (dword r 2) (dword r 3)
    s.serviceReply k 2 st id []

/-- WGRANT as a service request (14 R315, R316). -/
def execWgrant (module vd : Nat) (s : State) : Result State :=
  s.service module vd (· = 3) fun k r s =>
    let (st, s) := s.wgrant k (dword r 2) (dword r 3) (dword r 4) (dword r 5)
    s.serviceReply k 3 st (dword r 2) []

/-- Whether the request at the head of a VD's ring is a WCLOSE that accesses under way hold up. -/
def State.closeHeld (s : State) (k : Nat) : Bool :=
  match (s.vd k).requests with
  | r :: _ => requestKind r = 4 && dword r 2 < windowCount && s.closeWaits k (windowKey (k / 256) (dword r 2))
  | [] => false

/-- WCLOSE as a service request (14 R315, R317), once the accesses that were issued before have completed. -/
def execWclose (module vd : Nat) (s : State) : Result State :=
  if s.closeHeld (vdKey module vd) then .next s else
  s.service module vd (· = 4) fun k r s =>
    let (st, s) := s.wclose k (dword r 2)
    s.serviceReply k 4 st (dword r 2) []

end Sys2Proof.Machine
end

