-- ==== Sys2Proof/Machine/Lives.lean ====
section
/-!
DEFINITION. The life of a virtual device: CONFIGURE, START, STOP, RELEASE (14 R304 to R306, 15 R329, R333).
-/

namespace Sys2Proof.Machine

/-! ### CONFIGURE -/

/-- The configuration block of a VD number as it stands in the window; its state field is firmware's (14 R304, 15 R328). -/
def State.hostBlock (s : State) (k : Nat) : NMap Byte :=
  let bs := s.windowBytes (k / 256) (256 * (k % 256)) 256
  (bs.zipIdx.filter fun b => b.2 ≠ 0 && b.1 ≠ 0#8).map fun b => (b.2, b.1)

/-- CONFIGURE (15 R329). -/
def execConfigure (module : Nat) (s : State) : Result State :=
  s.command module 1 fun k _ s =>
    match (s.vd k).state with
    | .free =>
      let cfg := s.hostBlock k
      .done (s.modVd k fun v => { state := .configured, cfg, migr := v.migr }) 0 0
    | _ => .done s 3 0

/-! ### The checks of START (14 R304, 15 R333) -/

/-- Bits of the doubleword at an offset of the block that are not reserved (14 R304). -/
def blockMask (off : Nat) : Nat :=
  if off = 0x00 then 0xF
  else if off = 0x08 then 2 ^ 52 - 2 ^ 13
  else if off < 0x50 then 2 ^ 64 - 1
  else if off = 0x50 then 0x3F + 0x3FF * 2 ^ 16 + 0xFFFF * 2 ^ 32
  else if off < 0x70 then 2 ^ 64 - 1
  else if off = 0x70 then 2 ^ 52 - 2 ^ 6
  else if off = 0x78 then 2 ^ 22 - 1
  else if off < 0x90 then 2 ^ 64 - 1
  else if off < 0xF8 then 2 ^ 52 - 1
  else 2 ^ 32 - 1

/-- Whether a reserved bit of the block is set. -/
def Vd.reservedSet (v : Vd) : Bool :=
  (List.range 32).any fun i => v.field (8 * i) 8 &&& (2 ^ 64 - 1 - blockMask (8 * i)) != 0

/-- The IPAs that the block names, beside the image (14 R304). -/
def Vd.named (v : Vd) : List Nat :=
  ([0x70, 0x90, 0x98, 0xA0, 0xA8, 0xF0].map fun o => v.field o 8) ++ (List.range 8).map fun d => v.field (0xB0 + 8 * d) 8

/-- The pages of the measured image. -/
def Vd.imagePages (v : Vd) : List Nat := (ipaPages (v.field 0xF0 8) (v.field 0xF8 4)).map fun p => v.field 0xF0 8 + p.1

/-- Whether an IPA translates under a VD's stage 2. -/
def State.mapped (s : State) (k ipa : Nat) : Bool :=
  match (s.stage2 k .none 0 ipa).out with | .ok _ => ipa < 2 ^ 52 | .error _ => false

/-- The checks of R304, on a state in which the VD's stage 2 is set. -/
def State.blockOk (s : State) (k : Nat) : Bool :=
  let v := s.vd k
  let q := v.field 0x52 2 % 2 ^ 10
  let d0 := s.dieOf (k / 256) 0
  !v.reservedSet && 10 ≤ q && q ≤ 1000 && !(s.partition k d0).isEmpty && s.taskQuota k d0 ≠ 0 && v.field 0x54 2 ≠ 0 &&
    (v.named ++ v.imagePages).all (s.mapped k)

/-- The dies of a module. -/
def State.diesOfModule (s : State) (m : Nat) : List Nat := (List.range 8).map (s.dieOf m)

/-- Whether a VD's partition masks or stage-2 table name a die in OUT or its HBM: by a frame that they map or by a table of theirs that
lies there (15 R333). -/
def State.namesOut (s : State) (k : Nat) : Bool :=
  (s.diesOfModule (k / 256)).any (fun d => (s.die d).service == .out && !(s.partition k d).isEmpty) ||
  ((s.framesOf k).map (·.2.addr) ++ s.tables2 (k / 256) 3 (root2 (s.vd k).s2root)).any fun a =>
    (s.die (s.home (k / 256) a)).service == .out

/-- Park frames that the VDs of a module hold on each die. -/
def State.framesHeld (s : State) (m : Nat) : Nat :=
  s.vds.foldl (fun n v => if v.1 / 256 = m ∧ v.2.keys.isSome then n + v.2.field 0x54 2 else n) 0

/-- Whether every die can supply the park frames that a VD asks for (14 R304, log 28). -/
def State.framesThere (s : State) (k : Nat) : Bool :=
  (s.diesOfModule (k / 256)).all fun d =>
    s.framesHeld (k / 256) + (s.vd k).field 0x54 2 ≤ Config.parkSupply d

/-! ### START from CONFIGURED (14 R306) -/

/-- Where n bytes at an IPA lie, one piece for each page, whatever the permissions. -/
def State.mappedPieces (s : State) (k ipa n : Nat) : List (Nat × Nat × Nat) :=
  (ipaPages ipa n).filterMap fun p =>
    match (s.stage2 k .none 0 (ipa + p.1)).out with
    | .ok (_, pa) => some (pa, p.1, p.2)
    | .error _ => none

/-- Bytes that firmware places in a VD's memory under its keys; no bell watches yet. -/
def State.placeBytes (s : State) (k ipa : Nat) (bs : List Byte) : State :=
  (s.mappedPieces k ipa bs.length).foldl (fun s p =>
    (s.applyWrite { vd := some k, die := s.dieOf (k / 256) 0, acc := .write } false 0 p.1 ((bs.drop p.2.1).take p.2.2)).1) s

/-- Host memory as firmware reads it; none beyond its end. -/
def State.hostBytes (s : State) (addr n : Nat) : Option (List Byte) :=
  if addr + n ≤ 2 ^ 50 then some (s.bytes (2 ^ 50 + addr) n) else none

/-- The resident task of a VD (14 R306). -/
def State.resident (s : State) (k : Nat) (tid : BitVec 32) : Task :=
  let v := s.vd k
  let m := k / 256
  let d0 := s.dieOf m 0
  let base := newTask m d0 (k % 256) (BitVec.ofNat 64 (v.field 0x58 8)) ((s.partition k d0).headD 0) (s.now d0)
  { base with
    tid, level := .s, prio := s.ceiling k (BitVec.ofNat 6 (v.field 0x7A 1)), stops := BitVec.ofNat 64 (v.field 0x60 8)
    trVec := BitVec.ofNat 64 (v.field 0x68 8), s1root := BitVec.ofNat 64 (v.field 0x70 8)
    asid := BitVec.ofNat 16 (v.field 0x78 2), rngKey := BitVec.ofNat 64 (v.field 0x88 8)
    ctl := (base.ctl.put 1#5 (BitVec.ofNat 64 (v.field 0x80 8))).put 2#5 (BitVec.ofNat 64 (k % 256)) : Task }.loadConverters

/-- The first steps of START: keys, zeroed frames, park frames (14 R306). -/
def State.beginVd (s : State) (k : Nat) : State :=
  let (keys, s) := s.drawKeys
  let s := (s.modVd k fun v => { v with keys := some keys }).zeroFrames k
  let frames := (s.vd k).field 0x54 2
  (s.diesOfModule (k / 256)).foldl (fun s d =>
    s.modDie d fun x => { x with parkFree := x.parkFree.set k ((List.range frames).map (Config.parkFrame k d)) }) s

/-- Firmware watches a service ring from its start: it acts on stores that change the seal there (07 R169, 14 R315; for a VD that has
moved, log 29). -/
def State.watchRing (s : State) (k : Nat) : State :=
  s.modVd k fun v => { v with svcOn := true, svcPos := 0, requests := [], replyPos := 0, replySeq := 0 }

/-- Its last steps: the image, the resident task. -/
def State.startVd (s : State) (k : Nat) (image : List Byte) : State :=
  let s := s.placeBytes k ((s.vd k).field 0xF0 8) image
  let s := (s.modVd k fun v => { v with state := .running, image := sha512 image }).watchRing k
  let (tid, s') := s.freshTid (s.dieOf (k / 256) 0)
  match s'.enrol (s'.resident k tid) with
  | some (_, s') => s'
  | none => s

/-- A start given up: the keys go, and with them the park frames. -/
def State.unbegin (s : State) (k : Nat) : State :=
  let s := s.modVd k fun v => { v with keys := none }
  (s.diesOfModule (k / 256)).foldl (fun s d => s.modDie d fun x => { x with parkFree := NMap.erase x.parkFree k }) s

/-- START from CONFIGURED: status and state (14 R304, R306, 15 R333). The frames are zeroed before the image is read. -/
def State.startConfigured (s : State) (k arg : Nat) : Nat × State :=
  let u := s.modVd k fun v => { v with s2root := BitVec.ofNat 64 (v.field 0x08 8) }
  if !u.blockOk k || u.namesOut k then (1, s)
  else if !u.framesThere k then (2, s)
  else
    let u := u.beginVd k
    match u.hostBytes arg ((u.vd k).field 0xF8 4) with
    | none => (1, u.unbegin k)
    | some image => (0, u.startVd k image)

/-- START from STOPPED: the parked tasks become ready, from now on and no sooner (12 R253, R255, R261); one that has stayed in a
slot may run on (14 R306). -/
def State.restartVd (s : State) (k : Nat) : State :=
  let s := s.modVd k fun v => { v with state := .running }
  s.tasks.foldl (fun s t =>
    if t.2.vdKey ≠ k then s else
    let u := s.modTask t.1 fun x =>
      { x.mapEngs (fun e => if x.rehome then e else { e with stop := .none, stall := none }) with
        parkAfter := x.parkAfter && (x.rehome || x.place == .held || x.atActive)
        readySince := s.now x.die, starving := false, fullSince := none }
    u.dueDecision t.2.die t.2.quad) s

/-- START (14 R306, 15 R329). -/
def execStart (module : Nat) (s : State) : Result State :=
  s.command module 2 fun k c s =>
    match (s.vd k).state with
    | .configured => let (st, s) := s.startConfigured k (commandArg c 0); .done s st 0
    | .stopped => if s.namesOut k then .done s 1 0 else .done (s.restartVd k) 0 0
    | _ => .done s 3 0

/-! ### STOP (14 R306) -/

/-- A task stopped where it stands and to be parked (12 R263, 14 R306). -/
def State.stopTask (s : State) (uid : Nat) : State :=
  (s.dropTlbis uid).modTask uid fun t =>
    match t.place with
    | .active => if t.dying then t else { t.haltAll with parkAfter := true, dest := none }
    | .standby => { t with parkAfter := true, dest := none }
    | _ => { t with dest := none }

/-- Switches on a core that a VD's tasks take part in are given up. -/
def State.cancelPlan (s : State) (k core : Nat) : State :=
  let mine (u : Option Nat) : Bool := match u with | some u => (s.task u).vdKey = k | none => false
  match (s.core core).plan with
  | none => s
  | some p =>
    if mine p.out || mine p.inn then
      let s := s.abortSwitch core p
      { s with tasks := s.tasks.map fun t => (t.1, if t.2.dest = some core then { t.2 with dest := none } else t.2) }
    else s

/-- Every task of a VD stopped, to be parked; the VD has still to reach STOPPED. -/
def State.stopVd (s : State) (k : Nat) : State :=
  let uids := (s.tasks.filter fun t => t.2.vdKey = k).map (·.1)
  let s := s.modVd k fun v => { v with stopping := true }
  let s := uids.foldl State.stopTask s
  let s := s.cores.foldl (fun s c => s.cancelPlan k c.1) s
  uids.foldl (fun s u => s.dueDecision (s.task u).die (s.task u).quad) s

/-- STOP (14 R306, 15 R329); firmware answers when it has been ordered (log 30). -/
def execStop (module : Nat) (s : State) : Result State :=
  s.command module 3 fun k _ s =>
    match (s.vd k).state with
    | .running => .done (s.stopVd k) 0 0
    | _ => .done s 3 0

/-! ### RELEASE (14 R306) -/

/-- Every frame of a VD zeroed under a fresh key, with its park frames, where its landing buffers end (14 R306). The frames of a VD that has
not been started are those that its block's stage-2 table maps. -/
def State.scrub (s : State) (k : Nat) : State :=
  let (keys, s) := s.drawKeys
  let s := s.modVd k fun v =>
    { v with keys := some keys, s2root := match v.state with | .configured => BitVec.ofNat 64 (v.field 0x08 8) | _ => v.s2root }
  (s.parkFrames k).foldl (fun s p => s.zeroBytes (some k) p parkBytes) (s.zeroFrames k)

/-- RELEASE: windows closed, tasks and bells gone, frames zeroed, keys erased. -/
def State.releaseVd (s : State) (k : Nat) : State :=
  let s := ((s.leaveWindows k).scrub k).dropVd k
  { s with vds := NMap.erase s.vds k }

/-- A release that a reset has asked for and that had to wait is made (15 R334). -/
def State.releaseIfWanted (s : State) (k : Nat) : State := if (s.vd k).releaseWanted then s.releaseVd k else s

/-- VD_STOPPED (14 R306): every copy of a stopped VD's tasks has completed. -/
def execVdStopped (module vd : Nat) (s : State) : Result State :=
  let k := vdKey module vd
  let v := s.vd k
  if v.state != .running || !v.stopping || s.copies.any (fun c => c.2.vdk = k) || (v.releaseWanted && s.leaveWaits k) then .next s
  else .next ((s.modVd k fun v => { v with state := .stopped, stopping := false }).releaseIfWanted k)

/-- RELEASE (14 R306, 15 R329). It waits for accesses under way in the VD's windows (14 R317). -/
def execRelease (module : Nat) (s : State) : Result State :=
  s.command module 4 fun k _ s =>
    match (s.vd k).state with
    | .configured | .stopped | .lost => if s.leaveWaits k then .wait s else .done (s.releaseVd k) 0 0
    | _ => .done s 3 0

end Sys2Proof.Machine
end

