-- ==== Sys2Proof/Machine/Migration.lean ====
section
/-!
DEFINITION. Migration of a virtual device (14 R322 to R325). The manual gives the blob's bytes and what the other messages say,
not how they lie in bytes: log 29.
-/

namespace Sys2Proof.Machine

/-- Ten seconds of reference time (14 R325). -/
def tenSeconds : Nat := 10 ^ 9

/-- The present tick of a module, that of its die 0 (14 R322). -/
def State.moduleNow (s : State) (m : Nat) : Nat := s.now (s.dieOf m 0)

/-- The seed with which firmware of a module signs. -/
def State.moduleSeed (s : State) (m : Nat) : BitVec 256 := identitySeed (s.dieOf m 0)

def State.modMig (s : State) (k : Nat) (f : Mig → Mig) : State := s.modVd k fun v => { v with migr := f v.migr }

/-- A message queued for the host to fetch. -/
def State.send (s : State) (k : Nat) (x : MigMsg) : State := s.modMig k fun g => { g with outbox := g.outbox ++ [x] }

/-! ### IMPORT, EXPORT, ABORT (14 R322) -/

/-- IMPORT: the block is taken as by CONFIGURE (log 29), a nonce and a key pair are drawn, and the report goes to the staging
area under the nonce. -/
def execImportVd (module : Nat) (s : State) : Result State :=
  s.command module 5 fun k _ s =>
    match (s.vd k).state with
    | .free =>
      let cfg := s.hostBlock k
      let (a, s) := s.draw
      let (b, s) := s.draw
      let nd := Config.random a
      let s := s.modVd k fun _ => { state := .importing, cfg, migr := { nd, secret := Config.random b } }
      .done (s.putWindow module stagingArea (s.report k (bytes256 nd))) 0 0
    | _ => .done s 3 0

/-- A 64-byte line under a data key, with a counter made of an IPA and a block's export sequence (14 R308, R322). -/
def exportLine (key : BitVec 256) (ipa seq : Nat) (bs : List Byte) : List Byte :=
  aesCtr key (BitVec.ofNat 128 (ipa / 2 ^ 6 * 2 ^ 82 + seq % 2 ^ 64 * 2 ^ 18)) bs

/-- Blocks of 4 KiB. -/
def blockBytes : Nat := 4096

/-- A block under a data key, or back. -/
def exportBlock (key : BitVec 256) (ipa seq : Nat) (bs : List Byte) : List Byte :=
  (List.range (blockBytes / 64)).flatMap fun i => exportLine key (ipa + 64 * i) seq ((bs.drop (64 * i)).take 64)

/-- The bytes that a task takes along beside its frame: its die in the module, and its landing buffer, filled up to whole blocks. -/
def State.carried (s : State) (t : Task) : List Byte :=
  let bs := leBytes 8 (s.dieInModule t.die) ++ landingBytes t.landing
  bs ++ List.replicate ((blockBytes - bs.length % blockBytes) % blockBytes) 0#8

/-- The blocks of a VD's frames, then those of the park frame and the landing buffer of each of its tasks, as they leave unnumbered
(14 R322). -/
def State.exportList (s : State) (k : Nat) : List MigMsg :=
  let cut (bs : List Byte) : List (Nat × List Byte) :=
    (List.range (bs.length / blockBytes)).map fun i => (i, (bs.drop (blockBytes * i)).take blockBytes)
  let frames := (s.framesOf k).flatMap fun f =>
    (List.range (2 ^ f.2.shift / blockBytes)).map fun i =>
      MigMsg.block (f.1 + blockBytes * i) 0 (s.fetch (some k) (f.2.addr + blockBytes * i) blockBytes)
  let tasks := ((s.tasks.filter fun t => t.2.vdKey = k).zipIdx).flatMap fun t =>
    (cut t.1.2.frameBytes).map (fun b => MigMsg.frame t.2 false b.1 0 b.2) ++
      (cut (s.carried t.1.2)).map fun b => MigMsg.frame t.2 true b.1 0 b.2
  frames ++ tasks

/-- A block under a data key with an export sequence, or back (14 R322): a block of a park frame has its offset there in place of an
IPA (log 29). -/
def cryptBlock (key : BitVec 256) (seq : Nat) : MigMsg → MigMsg
  | .block ipa _ bs => .block ipa seq (exportBlock key ipa seq bs)
  | .frame t l b _ bs => .frame t l b seq (exportBlock key (blockBytes * b) seq bs)
  | x => x

/-- The number of a block message. -/
def blockSeq : MigMsg → Nat
  | .block _ n _ | .frame _ _ _ n _ => n
  | _ => 0

/-- The bytes of a block message. -/
def messagePayload : MigMsg → List Byte
  | .block _ _ bs | .frame _ _ _ _ bs => bs
  | _ => []

/-- The manifest of block hashes (14 R322). -/
def manifestOf (l : List MigMsg) : List Byte := l.flatMap fun x => bytes512 (sha512 (messagePayload x))

/-- Whether an access's result or its stores are still to come, but for a muster's, which its root may keep for ever. -/
def Access.landsSoon (a : Access) : Bool :=
  match a.purpose with
  | .contribute _ _ _ _ _ _ _ | .reply _ | .mst _ _ _ _ | .pref _ => false
  | _ => true

/-- EXPORT (14 R317, R322). It waits for what a VD's tasks have under way to land (log 29). -/
def execExportVd (module : Nat) (s : State) : Result State :=
  s.command module 6 fun k _ s =>
    match (s.vd k).state with
    | .stopped =>
      if s.usesWindow k then .done s 3 0
      else if s.accesses.any fun a => a.2.vdk = k && a.2.landsSoon && !a.2.parts.isEmpty then .wait s
      else
        let key := ((s.vd k).keys.getD (0, 0)).1
        let l := (s.exportList k).zipIdx.map fun x => cryptBlock key x.2 x.1
        let mf := manifestOf l
        .done (s.modVd k fun v =>
          { v with state := .exporting
                   migr := { manifest := some (sha512 mf), outbox := l ++ [.manifest mf] } }) 0 0
    | _ => .done s 3 0

/-- A migration given up before its sealing (14 R322): EXPORTING returns to STOPPED, IMPORTING to FREE. -/
def State.abortVd (s : State) (k : Nat) : State :=
  match (s.vd k).state with
  | .exporting => s.modVd k fun v => { v with state := .stopped, migr := {} }
  | .importing => { s with vds := NMap.erase s.vds k }
  | _ => s

/-- ABORT (14 R322). -/
def execAbort (module : Nat) (s : State) : Result State :=
  s.command module 7 fun k _ s =>
    match (s.vd k).state with
    | .exporting | .importing => .done (s.abortVd k) 0 0
    | _ => .done s 3 0

/-! ### The sealed blob (14 R323) -/

/-- The key of the blob's encrypted field (14 R323). -/
def blobKey (shared nd ns : BitVec 256) : BitVec 256 :=
  (sha512 (bytes256 shared ++ bytes256 nd ++ bytes256 ns)).setWidth 256

/-- Bytes of the blob, and of its signed part. -/
def blobBytes : Nat := 296
def blobSigned : Nat := 232

/-- Sealing: the report of the destination is checked, the blob is made, and the plaintext keys are erased (14 R322, R323). -/
def State.sealVd (s : State) (k : Nat) (report : List Byte) : State :=
  let m := k / 256
  let (a, s) := s.draw
  let (b, s) := s.draw
  let ns := Config.random a
  let eph := Config.random b
  let nd := word256 (field report 32 32)
  let peer := word256 (field report 416 32)
  let key := blobKey (xShared eph (word256 (field report 384 32))) nd ns
  let v := s.vd k
  let keys := v.keys.getD (0, 0)
  let secret := bytes256 keys.1 ++ bytes256 keys.2 ++ bytes512 (v.migr.manifest.getD 0)
  let body := leBytes 4 0x424F4C42 ++ leBytes 4 1 ++ bytes256 nd ++ bytes256 ns ++ bytes256 (xPublic eph) ++
    field (aesCtr key 0#128 secret) 0 128
  let blob := body ++ bytes512 (edSign (s.moduleSeed m) body)
  let now := s.moduleNow m
  let s := s.modVd k fun v =>
    { v with state := .sealed, keys := none, migr := { v.migr with nd, ns, peer, blob, since := now } }
  s.send k (.blob blob (edPublic (s.moduleSeed m)))

/-- Whether a destination's report stands (14 R322): its record is the one whose hash it names, and signed; the identity key is the
record's for die 0 and has signed the report; and the source's policy accepts it. -/
def reportOk (r : List Byte) : Bool :=
  let record := Config.peerRecord r
  let key := word256 (field record 32 32)
  bytes512 (sha512 record) == field r 192 64 &&
    edVerify Config.romKey (field record 0 320) (word512 (field record 320 64)) && bytes256 key == field r 416 32 &&
    edVerify key (field r 0 448) (word512 (field r 448 64)) && Config.migPolicy r

/-! ### MIG_IN and MIG_OUT (15 R329) -/

/-- Whether ten seconds have passed since a VD's present wait began. -/
def State.waitedOut (s : State) (k : Nat) : Bool := (s.vd k).migr.since + tenSeconds ≤ s.moduleNow (k / 256)

/-- Messages but for blobs. -/
def noBlobs (l : List MigMsg) : List MigMsg := l.filter fun x => match x with | .blob _ _ => false | _ => true

/-- A VD is lost: its keys are erased first, and its blob is discarded (14 R325). -/
def State.loseVd (s : State) (k : Nat) : State :=
  (s.modVd k fun v =>
    { v with state := .lost, keys := none, migr := { v.migr with blob := [], outbox := noBlobs v.migr.outbox } }).releaseIfWanted k

/-- Whether an import has waited ten seconds since its manifest for a valid blob (14 R325). -/
def State.importOver (s : State) (k : Nat) : Bool :=
  (s.vd k).state == .importing && (s.vd k).migr.manifest.isSome && s.waitedOut k

/-- A message passed to firmware: status and state. An import whose time is over is given up first, and a second manifest does not begin its
ten seconds anew (14 R325). -/
def State.receive (s : State) (k : Nat) (x : MigMsg) : Nat × State :=
  let v := s.vd k
  let now := s.moduleNow (k / 256)
  let store (s : State) : State := s.modMig k fun g => { g with blocks := g.blocks ++ [x] }
  if s.importOver k then (3, s.abortVd k) else
  match x, v.state with
  | .report r, .exporting => if reportOk r then (0, s.sealVd k r) else (1, s)
  | .block _ _ _, .importing => (0, store s)
  | .frame _ _ _ _ _, .importing => (0, store s)
  | .manifest bs, .importing =>
    (0, s.modMig k fun g => { g with manifest := some (sha512 bs), since := if g.manifest.isSome then g.since else now })
  | .resend, .sealed =>
    if s.waitedOut k then (3, s.loseVd k) else (0, s.send k (.blob v.migr.blob (edPublic (s.moduleSeed (k / 256)))))
  | .blob _ _, _ => (0, s.modMig k fun g => { g with inbox := g.inbox ++ [x] })
  | .confirm _ _ _, _ => (0, s.modMig k fun g => { g with inbox := g.inbox ++ [x] })
  | .ack _ _ _, _ => (0, s.modMig k fun g => { g with inbox := g.inbox ++ [x] })
  | .lost _ _ _, _ => (0, s.modMig k fun g => { g with inbox := g.inbox ++ [x] })
  | _, _ => (3, s)

/-- MIG_IN (15 R329). -/
def execMigIn (module : Nat) (s : State) : Result State :=
  s.command module 8 fun k c s =>
    let n := commandArg c 0
    if stagingBytes < n then .done s 1 0 else
    match Config.readMessage (s.windowBytes module stagingArea n) with
    | none => .done s 1 0
    | some x => let (st, s) := s.receive k x; .done s st 0

/-- MIG_OUT (15 R329). Ten seconds after its sealing a VD is lost and its blob discarded (14 R325). A message longer than the staging area
is cut to it, and the answer gives the cut length: the manual does not say how such a one leaves (DESIGN CHOICE, log 29). -/
def execMigOut (module : Nat) (s : State) : Result State :=
  s.command module 9 fun k _ s =>
    let s := if (s.vd k).state == .sealed && s.waitedOut k then s.loseVd k else s
    match (s.vd k).migr.outbox with
    | [] => .done s 0 0
    | x :: rest =>
      let bs := (Config.writeMessage x).take stagingBytes
      .done ((s.modMig k fun g => { g with outbox := rest }).putWindow module stagingArea bs) 0 bs.length

/-! ### The messages that a state awaits (14 R322, R324, R325) -/

/-- The head of a VD's inbox taken by an event, if it is the event's. -/
def State.message (s : State) (m vd : Nat) (mine : MigMsg → Bool) (go : Nat → MigMsg → State → State) : Result State :=
  let k := vdKey m vd
  match (s.vd k).migr.inbox, s.serving m with
  | x :: rest, some true => if mine x then .next (go k x (s.modMig k fun g => { g with inbox := rest })) else .next s
  | _, _ => .next s

/-- A task that arrived in a park frame (14 R322): times of its old die mean nothing here (01 R22). -/
def State.landTask (s : State) (k : Nat) (t : Task) (carried : List Byte) : State :=
  let m := k / 256
  let die := s.dieOf m (dword carried 0 % 8)
  let t := { t with module := m, die, vd := k % 256, place := .parked, inFrame := true, frameAt := ((s.die die).freeFrames k).headD 0
                    readySince := s.now die, landing := readLanding carried.length (carried.drop 8) }
  let s := s.modDie die fun d => d.useFrame k
  { s with tasks := s.tasks.set s.nextUid t, nextUid := s.nextUid + 1 }

/-- One stored block of a frame put into the PA form under the keys of the blob (14 R322). -/
def State.landBlock (s : State) (k : Nat) (key : BitVec 256) (x : MigMsg) : State :=
  match cryptBlock key (blockSeq x) x with
  | .block ipa _ bs => s.placeBytes k ipa bs
  | _ => s

/-- The bytes of a task's park frame or landing buffer, from its blocks. -/
def frameOf (key : BitVec 256) (l : List MigMsg) (task : Nat) (landing : Bool) : List Byte :=
  let blocks := l.filterMap fun x => match cryptBlock key (blockSeq x) x with
    | .frame t b i _ bs => if t = task ∧ b = landing then some (i, bs) else none
    | _ => none
  blocks.foldl (fun acc b => patch acc (blockBytes * b.1) b.2) (List.replicate (blockBytes * blocks.length) 0#8)

/-- The tasks that came in park frames, each with what it took along. -/
def State.landTasks (s : State) (k : Nat) (key : BitVec 256) (l : List MigMsg) : State :=
  let tasks := (l.filterMap fun x => match x with | .frame t _ _ _ _ => some t | _ => none).dedup
  tasks.foldl (fun s t =>
    match frameTask (frameOf key l t false) with
    | some x => s.landTask k x (frameOf key l t true)
    | none => s) s

/-- Whether a blob passes the checks of R324 under the key that its source names. -/
def State.blobOk (s : State) (k : Nat) (blob : List Byte) (key : BitVec 256) (secret : List Byte) : Bool :=
  let g := (s.vd k).migr
  blob.length == blobBytes && dword blob 0 == 0x424F4C42 + 2 ^ 32 && word256 (field blob 8 32) == g.nd &&
    edVerify key (field blob 0 blobSigned) (word512 (field blob blobSigned 64)) &&
    g.manifest == some (word512 (field secret 64 64))

/-- The blob unsealed (14 R322 step 4): keys installed, blocks in place, a confirm sent. -/
def State.unseal (s : State) (k : Nat) (ns peer : BitVec 256) (secret : List Byte) : State :=
  let m := k / 256
  let key := word256 (field secret 0 32)
  let now := s.moduleNow m
  let s := s.modVd k fun v =>
    { v with state := .committing, keys := some (key, word256 (field secret 32 32))
             s2root := BitVec.ofNat 64 (v.field 0x08 8), migr := { v.migr with ns, peer, since := now } }
  let frames := (s.vd k).field 0x54 2
  let s := (s.diesOfModule m).foldl (fun s d => s.modDie d fun x =>
    { x with parkFree := x.parkFree.set k ((List.range frames).map (Config.parkFrame k d)) }) s
  let blocks := (s.vd k).migr.blocks
  let s := (blocks.foldl (fun s b => s.landBlock k key b) s).landTasks k key blocks
  let s := s.modMig k fun g => { g with blocks := [] }
  let nd := (s.vd k).migr.nd
  s.send k (.confirm nd ns (edSign (s.moduleSeed m) (Config.signedText 0 nd ns)))

/-- SEALED_BLOB (14 R322, R324): a blob that fails a check is discarded and counted, and nothing else changes. Ten seconds after the
manifest none is valid any more (14 R325). -/
def execSealedBlob (module vd : Nat) (s : State) : Result State :=
  s.message module vd (fun x => match x with | .blob _ _ => true | _ => false) fun k x s =>
    match x with
    | .blob blob key =>
      let g := (s.vd k).migr
      let ns := word256 (field blob 40 32)
      let secret := aesCtr (blobKey (xShared g.secret (word256 (field blob 72 32))) g.nd ns) 0#128 (field blob 104 128)
      if s.importOver k then s.abortVd k
      else if (s.vd k).state == .importing && s.blobOk k blob key secret then s.unseal k ns key secret
      else s.modMig k fun g => { g with discarded := g.discarded + 1 }
    | _ => s

/-- A signed reply to a confirm. -/
def State.release' (s : State) (k : Nat) (nd ns : BitVec 256) : MigMsg :=
  .ack nd ns (edSign (s.moduleSeed (k / 256)) (Config.signedText 1 nd ns))
def State.lost' (s : State) (k : Nat) (nd ns : BitVec 256) : MigMsg :=
  .lost nd ns (edSign (s.moduleSeed (k / 256)) (Config.signedText 2 nd ns))

/-- Whether a signed message names the nonces of the present move and carries the peer's signature. -/
def Mig.signed (g : Mig) (kind : Nat) (nd ns : BitVec 256) (sig : BitVec 512) : Bool :=
  nd == g.nd && ns == g.ns && edVerify g.peer (Config.signedText kind nd ns) sig

/-- The source lets a VD go: it is FREE, and the move stays on record until the host begins another or releases the number
(14 R322, R325; log 29). A release that a reset asked for follows: the frames are zeroed and the record goes (15 R334). -/
def State.letGo (s : State) (k : Nat) : State :=
  let g := (s.vd k).migr
  let wanted := (s.vd k).releaseWanted
  let s := (if wanted then s.scrub k else s).dropVd k
  { s with vds := s.vds.set k { migr := { nd := g.nd, ns := g.ns, peer := g.peer, moved := !wanted, outbox := noBlobs g.outbox } } }

/-- CONFIRM (14 R322, R325): SEALED releases, and FREE or LOST after the move answer again. Ten seconds after its sealing a VD is
lost. -/
def execConfirm (module vd : Nat) (s : State) : Result State :=
  s.message module vd (fun x => match x with | .confirm _ _ _ => true | _ => false) fun k x s =>
    match x with
    | .confirm nd ns sig =>
      let s := if (s.vd k).state == .sealed && s.waitedOut k then s.loseVd k else s
      let v := s.vd k
      if !v.migr.signed 0 nd ns sig then s
      else
        match v.state, v.migr.moved with
        | .sealed, _ => (s.letGo k).send k (s.release' k nd ns)
        | .lost, _ => s.send k (s.lost' k nd ns)
        | .free, true => s.send k (s.release' k nd ns)
        | _, _ => s
    | _ => s

/-- RELEASE_ACK (14 R322): COMMITTING becomes STOPPED, or LOST when the ack comes too late (14 R325). -/
def execReleaseAck (module vd : Nat) (s : State) : Result State :=
  s.message module vd (fun x => match x with | .ack _ _ _ => true | _ => false) fun k x s =>
    match x with
    | .ack nd ns sig =>
      if (s.vd k).state == .committing && s.waitedOut k then s.loseVd k
      else if (s.vd k).state == .committing && (s.vd k).migr.signed 1 nd ns sig then
        ((s.modVd k fun v => { v with state := .stopped, mig := true }).watchRing k).releaseIfWanted k
      else s
    | _ => s

/-- LOST_REPLY (14 R325). -/
def execLostReply (module vd : Nat) (s : State) : Result State :=
  s.message module vd (fun x => match x with | .lost _ _ _ => true | _ => false) fun k x s =>
    match x with
    | .lost nd ns sig =>
      if (s.vd k).state == .committing && (s.vd k).migr.signed 2 nd ns sig then s.loseVd k else s
    | _ => s

/-- SEAL_TIMEOUT (14 R325). -/
def execSealTimeout (module vd : Nat) (s : State) : Result State :=
  let k := vdKey module vd
  .next (if (s.vd k).state == .sealed && s.waitedOut k then s.loseVd k else s)

/-- IMPORT_TIMEOUT (14 R325): no valid blob ten seconds after the manifest. -/
def execImportTimeout (module vd : Nat) (s : State) : Result State :=
  let k := vdKey module vd
  .next (if s.importOver k then s.abortVd k else s)

/-- COMMIT_TIMEOUT (14 R325). -/
def execCommitTimeout (module vd : Nat) (s : State) : Result State :=
  let k := vdKey module vd
  .next (if (s.vd k).state == .committing && s.waitedOut k then s.loseVd k else s)

end Sys2Proof.Machine
end

