-- ==== Sys2Proof/Machine/Host.lean ====
section
/-!
DEFINITION. The host's accesses over PCIe: the firmware window, the memory of VDs, and requests the device does not serve
(15 R326 to R328, R333).
-/

namespace Sys2Proof.Machine

/-- A completion to the host. -/
def State.complete (s : State) (m : Nat) (a : HostAnswer) : State := s.modModule m fun x => { x with answers := x.answers ++ [a] }

/-- A request answered with Unsupported Request (15 R326). -/
def State.unsupported (s : State) (m : Nat) : State := s.complete m .unsupported

/-- Bytes of an access, and sizes of the BARs (15 R326). -/
def accessMax : Nat := 512
def bar0Size : Nat := 2 ^ 20
def vdBarSize : Nat := 2 ^ 40

/-! ### Reading the window (15 R328) -/

/-- The fatal dump as it is read: with its count of further errors, or zeros (15 R338, R339). -/
def Module.dumpByte (x : Module) (off : Nat) : Byte :=
  match x.dump with
  | none => 0#8
  | some d =>
    if 0x6044 ≤ off ∧ off < 0x6048 then BitVec.ofNat 8 (x.dumpMore / 256 ^ (off - 0x6044)) else d.getD off 0#8

/-- Records of the log area. -/
def logSlots : Nat := 4096

/-- A byte of the log area: slot i holds the latest record whose number is i modulo 4096 (15 R328). -/
def Module.logByte (x : Module) (off : Nat) : Byte :=
  let n := x.log.length
  let i := off / 64
  if n ≤ i then 0#8 else (x.log.getD (i + (n - 1 - i) / logSlots * logSlots) []).getD (off % 64) 0#8

/-- A byte of the window as the host reads it; `whole` is false in reset service (15 R328, R333). The command ring is write-only: a read
of it gives 0, whatever has been written (DESIGN CHOICE, log 73). -/
def State.windowByte (s : State) (m : Nat) (whole : Bool) (off : Nat) : Byte :=
  let x := s.module m
  let raw := x.window.getD off 0#8
  if off < commandRing then
    if !whole then 0#8
    else if off % 256 = 0 then BitVec.ofNat 8 (s.vd (vdKey m (off / 256))).state.code else raw
  else if off < answerRing then 0#8
  else if off < healthArea then raw
  else if off < recordArea then raw
  else if off < stagingArea then x.records.getD (off - recordArea) 0#8
  else if off < dumpArea then (if whole then raw else 0#8)
  else if off < logArea then x.dumpByte (off - dumpArea)
  else if off < windowEnd then (if whole then x.logByte (off - logArea) else 0#8)
  else 0#8

/-! ### Writing the window -/

/-- Whether a host write to an offset of the window is applied (14 R304, 15 R328). -/
def hostWritable (off : Nat) : Bool :=
  (off < commandRing && off % 256 != 0) || (commandRing ≤ off && off < answerRing) || (stagingArea ≤ off && off < dumpArea)

/-- The seal that stands where firmware waits for the next command. -/
def State.commandSeal (s : State) (m : Nat) : Nat := leNat (s.windowBytes m (commandRing + (s.module m).cmdPos) 8)

/-- A host write inside one line of the window: firmware sees a changed seal of the command ring (07 R169, R170, 15 R329). -/
def State.windowLine (s : State) (m off : Nat) (bs : List Byte) : State :=
  let old := s.commandSeal m
  let w := (bs.zipIdx).foldl (fun w b => if hostWritable (off + b.2) then w.set (off + b.2) b.1 else w) (s.module m).window
  let s := s.modModule m fun x => { x with window := w }
  let pos := (s.module m).cmdPos
  let word := s.commandSeal m
  if word = old || (s.module m).cmdOff then s
  else
    match sealStep word pos ringBytes with
    | .error => s.modModule m fun x => { x with cmdOff := true }
    | .padding => s.modModule m fun x => { x with cmdPos := 0 }
    | .message next =>
      let line := s.windowBytes m (commandRing + pos) 64
      s.modModule m fun x => { x with cmdPos := next, cmds := x.cmds ++ [line] }

/-! ### The events -/

/-- Whether the host's accesses to a VD's memory are applied (14 R305, 15 R334). -/
def Vd.hostOpen (v : Vd) : Bool :=
  !v.releaseWanted && match v.state with | .running | .stopped => true | _ => false

/-- Whether routes lead from die 0 to every page that a host access reaches: what lies on another die is reached over the links, as
peer memory of die 0 is (01 R17); pages that do not translate need none. -/
def State.hostReaches (s : State) (m k ipa n : Nat) (write : Bool) : Bool :=
  match s.devicePieces k ipa n write with
  | .ok l => l.all fun p => s.routed (s.dieOf m 0) p.1
  | .error _ => true

/-- HOST_MEMORY_WRITE (15 R327, R328): posted, so nothing is answered but an unsupported request. A write to a VD's memory is the
moment at which it is applied; until a route leads there it is not (01 R17, log 26). -/
def execHostMemoryWrite (module : Nat) (w : HostWin) (addr : Nat) (data : List Byte) (s : State) : Result State :=
  match s.serving module with
  | none => .next (s.unsupported module)
  | some whole =>
    if accessMax < data.length then .next (s.unsupported module) else
    match w with
    | .fw =>
      if bar0Size < addr + data.length then .next (s.unsupported module)
      else .next ((pieces (data.length + 1) addr data).foldl (fun s p => s.windowLine module p.1 p.2) s)
    | .vd n =>
      if whole = false ∨ vdBarSize < addr + data.length then .next (s.unsupported module)
      else
        let k := vdKey module n.toNat
        let die := s.dieOf module 0
        if !(s.vd k).hostOpen || !s.hostReaches module k addr data.length true then .next s
        else
          match s.deviceStore { vd := some k, die, acc := .write, host := true } k addr data with
          | .ok s => .next s
          | .error f => .next (s.deviceFault k die .write f)

/-- HOST_MEMORY_READ (15 R327, R328). -/
def execHostMemoryRead (module : Nat) (w : HostWin) (addr len : Nat) (s : State) : Result State :=
  match s.serving module with
  | none => .next (s.unsupported module)
  | some whole =>
    if accessMax < len then .next (s.unsupported module) else
    match w with
    | .fw =>
      if bar0Size < addr + len then .next (s.unsupported module)
      else .next (s.complete module (.data ((List.range len).map fun i => s.windowByte module whole (addr + i))))
    | .vd n =>
      if whole = false ∨ vdBarSize < addr + len then .next (s.unsupported module)
      else
        let k := vdKey module n.toNat
        let die := s.dieOf module 0
        let none' := List.replicate len 0xFF#8
        if !(s.vd k).hostOpen then .next (s.complete module (.data none'))
        else if !s.hostReaches module k addr len false then .next s
        else
          match s.deviceLoad { vd := some k, die, acc := .read, host := true } k addr len with
          | .ok (bs, s) => .next (s.complete module (.data bs))
          | .error f => .next ((s.deviceFault k die .read f).complete module (.data none'))

/-- UNSUPPORTED_REQUEST (15 R326). -/
def execUnsupportedRequest (module : Nat) (s : State) : Result State := .next (s.unsupported module)

/-- CONFIGURATION_REQUEST (15 R326): answered as the PCIe specification says, which the manual does not repeat (log 15). -/
def execConfigurationRequest (module fn : Nat) (s : State) : Result State :=
  let (k, s) := s.draw
  .next (s.complete module (.config (Config.configAnswer fn k)))

end Sys2Proof.Machine
end

