-- ==== Sys2Proof/Machine/Care.lean ====
section
/-!
DEFINITION. Firmware activation, bring-up, resets, fatal errors, power and heat, health and ageing (14 R318, R320, R321,
15 R331 to R342).
-/

namespace Sys2Proof.Machine

/-! ### Firmware images (14 R320, R321) -/

/-- Bytes of an image slot (15 R341). -/
def imageSlot : Nat := 2 ^ 22

/-- Whether an image may start above a floor (14 R320). -/
def imageOk (floor : Nat) (bs : List Byte) : Bool :=
  let (sig, body) := Config.imageSigned bs
  floor ≤ (Config.imageHeader bs).1.toNat && edVerify Config.romKey body sig

/-- The slots of a module: the active one and the other. -/
def Module.active (x : Module) : List Byte := if x.activeB then x.imageB else x.imageA
def Module.inactive (x : Module) : List Byte := if x.activeB then x.imageA else x.imageB
def Module.putInactive (x : Module) (bs : List Byte) : Module := if x.activeB then { x with imageA := bs } else { x with imageB := bs }

/-- The image that the boot ROM starts, if any (14 R320). -/
def Module.bootImage (x : Module) : Option (List Byte) :=
  if imageOk x.floor x.active then some x.active else if imageOk x.floor x.inactive then some x.inactive else none

/-- Version and hash of an image. -/
def imageId (bs : List Byte) : Nat × BitVec 512 := ((Config.imageHeader bs).1.toNat, sha512 bs)

/-- ACTIVATE (14 R321, 15 R329). Its first occurrence writes the inactive slot and checks it, its second commits, or fails to as
`ok` says; it answers at the end, and a failure is answered with status 1 (log 31). -/
def execActivate (module : Nat) (ok : Bool) (s : State) : Result State :=
  s.command module 11 fun _ c s =>
    let x := s.module module
    match x.staged with
    | none =>
      (match s.hostBytes (commandArg c 0) (commandArg c 1) with
       | none => .done s 1 0
       | some bs =>
         if imageSlot < bs.length then .done s 1 0
         else
           let s := s.modModule module fun x => x.putInactive bs
           let (version, raise) := Config.imageHeader bs
           if imageOk x.floor bs then
             .wait (s.modModule module fun x => { x with staged := some (version.toNat, sha512 bs, raise) })
           else .done s 1 0)
    | some (version, hash, raise) =>
      if ok then
        .done (s.modModule module fun x =>
          { x with activeB := !x.activeB, floor := if raise then version else x.floor, running := some (version, hash)
                   staged := none }) 0 0
      else .done (s.modModule module fun x => { x with staged := none }) 1 0

/-! ### Bring-up (14 R318, 15 R331 to R333, R342) -/

/-- A die whose ports are held down; its neighbours record them as down (15 R333). -/
def State.portsDown (s : State) (die : Nat) : State :=
  let s := s.modDie die fun d => { d with ports := 0#6 }
  (List.range 6).foldl (fun s p =>
    let n := s.neighbour die p
    s.modDie n fun d => { d with ports := d.ports &&& ~~~(BitVec.ofNat 6 (2 ^ opposite p)) }) s

/-- A die put out of service (15 R333). -/
def State.dieOut (s : State) (die : Nat) : State := (s.modDie die fun d => { d with service := .out }).portsDown die

/-- Whether the factory record's signature holds (15 R341, R342). -/
def Module.factoryOk (x : Module) : Bool := edVerify Config.romKey (field x.factory 0 320) (word512 (field x.factory 320 64))

/-- Whether the key that a die derives is the one in the record (14 R318). -/
def State.pufOk (s : State) (die : Nat) : Bool :=
  edPublic (identitySeed die) == word256 (field (s.module (s.moduleOf die)).factory (32 + 32 * s.dieInModule die) 32)

/-- RESET_RELEASE (14 R318, R320, 15 R331, R342): the boot ROM checks the record and the die's key and chooses an image; the die
goes on to TEST or to OUT. On die 0 the image becomes the module's, and firmware's keys are drawn. -/
def execResetRelease (die : Nat) (s : State) : Result State :=
  match (s.die die).service with
  | .reset =>
    let m := s.moduleOf die
    let x := s.module m
    (match x.bootImage with
     | some image =>
       if x.factoryOk && s.pufOk die then
         let s := s.modDie die fun d => { d with service := .test }
         if s.dieInModule die = 0 then
           let (keys, s) := s.drawKeys
           .next (s.modModule m fun x => { x with running := some (imageId image), fwKeys := some keys })
         else .next s
       else .next (s.dieOut die)
     | none => .next (s.dieOut die))
  | _ => .next s

/-- TEST_COMPLETE (15 R331, R342): training and self-tests end; `up` tells which links came up (13 R277). -/
def execTestComplete (die : Nat) (pass : Bool) (up : BitVec 6) (s : State) : Result State :=
  match (s.die die).service with
  | .test =>
    .next (if pass then s.modDie die fun d => { d with service := .early, ports := s.usable die up, decide := List.range quadsPerDie }
           else s.dieOut die)
  | _ => .next s

/-- ARRAY_SELF_TEST_DONE (15 R331). -/
def execArraySelfTestDone (die : Nat) (pass : Bool) (s : State) : Result State :=
  match (s.die die).service with
  | .early => .next (if pass then s.modDie die fun d => { d with service := .full } else s.dieOut die)
  | _ => .next s

/-! ### Powered hours (15 R335, R336) -/

/-- Ticks of an hour. -/
def hourTicks : Nat := 360000000000

/-- Powered hours of a die: those kept from before the last reset, and those since. -/
def Die.hours (d : Die) : Nat := (d.hrs.toNat + d.clk.toNat / hourTicks) % 2 ^ 32

/-! ### Resets (15 R334) -/

/-- A die in RESET: its ageing history is kept in flash, everything else is as at power-on. -/
def Die.wiped (d : Die) : Die :=
  { hrs := BitVec.ofNat 32 d.hours, margins := d.margins, means := d.means, marg := d.marg, left := d.left }

/-- A module reset: every die in RESET, every VD FREE, every key erased; flash and the dump are kept (15 R334). -/
def State.resetModule (s : State) (m : Nat) : State :=
  let here (d : Nat) : Bool := s.inModule m d
  let hbm (pa : Nat) : Bool := !isHostPa pa && here (s.home m pa)
  let uids := (s.tasks.filter fun t => t.2.module = m).map (·.1)
  { s with
    modules := s.modules.map fun x =>
      if x.1 = m then
        (m, { factory := x.2.factory, placement := x.2.placement, imageA := x.2.imageA, imageB := x.2.imageB
              activeB := x.2.activeB, floor := x.2.floor, dump := x.2.dump, dumpMore := x.2.dumpMore, answers := x.2.answers })
      else x
    dies := s.dies.map fun d => if here d.1 then (d.1, d.2.wiped) else d
    cores := s.cores.filter fun c => !here (c.1 / coresPerDie)
    vds := s.vds.filter fun v => v.1 / 256 ≠ m
    windows := s.windows.filter fun w => w.1 / windowCount ≠ m
    bells := s.bells.filter fun b => !here (b.1 / bellCount)
    owed := s.owed.filter fun r => r.1 / 256 ≠ m
    tasks := s.tasks.filter fun t => t.2.module ≠ m
    accesses := s.accesses.filter fun a => a.2.vdk / 256 ≠ m
    copies := s.copies.filter fun c => c.2.vdk / 256 ≠ m
    walks := s.walks.filter fun w => w.2.vdk / 256 ≠ m
    tlbis := s.tlbis.filter fun b => !uids.contains (b.2.who / 2)
    barriers := (s.barriers.map fun b => (b.1, { b.2 with arrived := b.2.arrived.filter fun w => !uids.contains (w / 2) })).filter
      fun b => !b.2.arrived.isEmpty
    packets := s.packets.filter fun p => !here p.2.at'
    splits := s.splits.filter fun x => !here x.2.die
    combines := s.combines.filter fun x => !here x.2.die
    rounds := s.rounds.filter fun x => !here x.2.die
    mem := s.mem.filter fun c => !hbm c.1
    bad := s.bad.filter fun b => !hbm (b.1 * 64)
    poison := s.poison.filter fun p => !hbm (p.1 * 64)
    hwids := s.hwids.filter fun p => !here p.1
    sealed := s.sealed.filter fun p => !hbm (p.1 * 64)
    views := s.views.filter fun v => v.vdk / 256 ≠ m && !hbm v.dw
    nodes := s.nodes.filter fun p => !hbm (p.1 / 2 ^ 24 / 16 * 2 ^ 36)
    minors := s.minors.filter fun p => !hbm (p.1 * 64)
    majors := s.majors.filter fun p => !hbm (p.1 * 4096) }

/-- COLD_RESET (15 R334): power is applied to a module. -/
def execColdReset (module : Nat) (s : State) : Result State := .next (s.resetModule module)

/-- WARM_RESET (15 R334): a fundamental or hot reset of PCIe. -/
def execWarmReset (module : Nat) (s : State) : Result State := .next (s.resetModule module)

/-- What a function-level reset does to a VD (15 R334): it is released, at once or when its state allows it. -/
def State.flrVd (s : State) (k : Nat) : State :=
  match (s.vd k).state with
  | .free => s
  | .configured | .stopped | .lost => s.releaseVd k
  | .running => (s.modVd k fun v => { v with releaseWanted := true }).stopVd k
  | .exporting => (s.abortVd k).releaseVd k
  | .importing => s.abortVd k
  | .sealed | .committing => s.modVd k fun v => { v with releaseWanted := true }

/-- PF_FLR (15 R334). -/
def execPfFlr (module : Nat) (s : State) : Result State :=
  .next (((s.vds.filter fun v => v.1 / 256 = module).map (·.1)).foldl State.flrVd s)

/-- VF_FLR (15 R334): the VFs are 1 to 255. -/
def execVfFlr (module vf : Nat) (s : State) : Result State :=
  if 1 ≤ vf ∧ vf ≤ 255 then .next (s.flrVd (vdKey module vf)) else .next s

/-! ### Fatal errors (15 R337 to R339) -/

/-- Calendar seconds at present; 0 if none was given (15 R329, R338). -/
def State.calendarNow (s : State) (m : Nat) : Nat :=
  match (s.module m).calendar with
  | some (secs, at') => secs.toNat + (s.moduleNow m - at') / 10 ^ 8
  | none => 0

/-- The dump of a fatal error (15 R338). -/
def State.makeDump (s : State) (die cause : Nat) : List Byte :=
  let m := s.moduleOf die
  let log := (s.module m).log
  let last := (log.drop (log.length - 256)).flatten
  leBytes 4 0x504D5544 ++ leBytes 4 cause ++ leBytes 8 (s.calendarNow m) ++ leBytes 4 (s.die die).hours ++
    leBytes 4 (s.dieInModule die) ++ List.replicate 40 0#8 ++ s.windowBytes m healthArea 0x2000 ++ field last 0 0x4000 ++
    leBytes 4 1 ++ leBytes 4 0

/-- A fatal error detected by a die (15 R337, R339). A die in RESET detects none. -/
def State.fatal (s : State) (die cause : Nat) : State :=
  let m := s.moduleOf die
  if (s.die die).service == .reset then s
  else
    let dump := s.makeDump die cause
    let s := (s.diesOfModule m).foldl (fun s d => s.modDie d fun x => { x with service := .fatal }) s
    let s := { s with
      vds := s.vds.map fun (v : Nat × Vd) => if v.1 / 256 = m then (v.1, { v.2 with keys := none }) else v
      windows := s.windows.map fun (w : Nat × Window) => if w.1 / windowCount = m then (w.1, { w.2 with keys := (0, 0) }) else w }
    s.modModule m fun x =>
      match x.dump with
      | some _ => { x with fwKeys := none, dumpMore := min (x.dumpMore + 1) 0xFFFFFFFF }
      | none => { x with fwKeys := none, dump := some dump, dumpMore := 0 }

/-- DMC_WATCHDOG_EXPIRY (15 R337). -/
def execDmcWatchdogExpiry (die : Nat) (s : State) : Result State := .next (s.fatal die 1)

/-- FIRMWARE_STATE_ERROR (15 R337). -/
def execFirmwareStateError (die : Nat) (s : State) : Result State := .next (s.fatal die 2)

/-- THERMAL_TRIP (15 R337, R340). -/
def execThermalTrip (die : Nat) (s : State) : Result State := .next (s.fatal die 3)

/-- POWER_RAIL_FAULT (15 R337). -/
def execPowerRailFault (die : Nat) (s : State) : Result State := .next (s.fatal die 4)

/-! ### Power and heat (15 R340) -/

/-- A change to a die that is out of RESET. -/
def State.onDie (s : State) (die : Nat) (f : Die → Die) : State := if (s.die die).service == .reset then s else s.modDie die f

/-- THERMAL_LIMIT (15 R340): a sensor reaches 100 °C. -/
def execThermalLimit (die : Nat) (s : State) : Result State := .next (s.onDie die fun d => { d with idleHeat := true })

/-- THERMAL_RECOVERY (15 R340): it falls below 98 °C. -/
def execThermalRecovery (die : Nat) (s : State) : Result State := .next (s.onDie die fun d => { d with idleHeat := false })

/-- A die's share of its module's limit, in proportion to the demands of the dies (15 R340). -/
def State.powerShare (s : State) (die : Nat) : Nat :=
  let m := s.moduleOf die
  let all := (s.diesOfModule m).foldl (fun n d => n + (s.die d).demand) 0
  (s.module m).limit * (s.die die).demand / all

/-- POWER_SHARE_CHECK (15 R340): a die's mean power over 1 ms against its share, by what it demands now and what the other dies last
demanded (log 31). -/
def execPowerShareCheck (die mean demand : Nat) (s : State) : Result State :=
  let s := s.onDie die fun d => { d with demand }
  .next (s.onDie die fun d => { d with idlePower := decide (s.powerShare die < mean) })

/-! ### Health (15 R335) -/

/-- Ticks between two health records. -/
def healthTicks : Nat := 10 ^ 7

/-- No prediction (15 R335). -/
def noPrediction : W32 := 0xFFFFFFFF#32

/-- The predicted end of life as a day, 0 without a prediction or a calendar (15 R335, R336). -/
def State.endOfLife (s : State) (m : Nat) (d : Die) : Nat :=
  if d.left = noPrediction || (s.module m).calendar.isNone then 0 else s.calendarNow m / 86400 + d.left.toNat

/-- The 16 doublewords of a die's health record (15 R335). -/
def Die.health (d : Die) : List Nat :=
  [d.stamp.toNat * 2 ^ 32 + d.service.code, d.pw.toNat * 2 ^ 16 + d.tmax.toNat, d.frz.toNat, d.hbmc.toNat, (~~~d.ports).toNat] ++
  ((List.range 6).map fun p => (d.retry.getD p 0#64).toNat) ++
  [d.malf.toNat, d.dup.toNat, d.stale.toNat, d.hours * 2 ^ 32 + d.marg.toNat, d.eol.toNat * 2 ^ 32 + d.left.toNat]

/-- HEALTH_RECORD_UPDATE (15 R335): due 10^7 ticks after the last; the doublewords are written in descending order. -/
def execHealthRecordUpdate (die tmax pw : Nat) (s : State) : Result State :=
  let d := s.die die
  if d.service == .reset || d.clk.toNat < d.lastRecord + healthTicks then .next s
  else
    let m := s.moduleOf die
    let eol := BitVec.ofNat 32 (s.endOfLife m d)
    let d := { d with stamp := d.stamp + 1#32, tmax := BitVec.ofNat 16 tmax, pw := BitVec.ofNat 32 pw, eol
                      lastRecord := d.clk.toNat }
    let s := s.setDie die d
    .next ((d.health.zipIdx.reverse).foldl (fun s w =>
      s.putWindow m (healthArea + 1024 * s.dieInModule die + 8 * w.2) (leBytes 8 w.1)) s)

/-! ### Ageing (15 R336) -/

/-- Measurements of a powered day, days kept, days a prediction needs, and 10 ps in units of 0.01 ps (15 R336). -/
def marginsPerDay : Nat := 24
def meansKept : Nat := 90
def meansNeeded : Nat := 14
def marginLimit : Nat := 1000

/-- MARGIN_MEASUREMENT (15 R336): once per powered hour, at 600 MHz; `slack` is the least slack in 0.01 ps. The health record's margin is
this one, and not the latest daily mean (DESIGN CHOICE, log 31). -/
def execMarginMeasurement (die slack : Nat) (s : State) : Result State :=
  let d := s.die die
  if d.service != .full || d.clk.toNat < d.lastMargin + hourTicks then .next s
  else .next (s.modDie die fun d =>
    { d with marg := BitVec.ofNat 32 slack, margins := d.margins ++ [slack], lastMargin := d.clk.toNat })

/-- The slope of the least-squares line through means at days 0, 1, …: numerator and positive denominator, in 0.01 ps a day. -/
def slope (ys : List Nat) : Int × Nat :=
  let n := ys.length
  let sx := n * (n - 1) / 2
  let sxx := (n - 1) * n * (2 * n - 1) / 6
  let sy := ys.foldl (· + ·) 0
  let sxy := ys.zipIdx.foldl (fun a y => a + y.1 * y.2) 0
  ((n * sxy : Nat) - (sx * sy : Nat), n * sxx - sx * sx)

/-- The predicted days that remain (15 R336; log 31 for which case comes first). -/
def predict (means : List Nat) : W32 :=
  let m := means.getLastD 0
  let (num, den) := slope means
  if means.length < meansNeeded then noPrediction
  else if m ≤ marginLimit then 0#32
  else if 0 ≤ num then noPrediction
  else BitVec.ofNat 32 (min ((m - marginLimit) * den / num.natAbs) 0xFFFFFFFE)

/-- DAILY_MARGIN_MEAN (15 R336): a powered day's mean is kept, and the prediction is made anew. -/
def execDailyMarginMean (die : Nat) (s : State) : Result State :=
  let d := s.die die
  if d.margins.length < marginsPerDay then .next s
  else
    let mean := (d.margins.take marginsPerDay).foldl (· + ·) 0 / marginsPerDay
    let means := (d.means ++ [mean]).drop (d.means.length + 1 - meansKept)
    .next (s.modDie die fun d => { d with means, margins := d.margins.drop marginsPerDay, left := predict means })

end Sys2Proof.Machine
end

