-- ==== Sys2Proof/Machine/Copy.lean ====
section
/-!
DEFINITION. The copy engine: NEST, the copy family, the transfer of a line, and completion (11 R238 to R252, 16 R360,
17 R387, 18 R439). Log 23 says how a transfer is cut where the manual leaves it open.
-/

namespace Sys2Proof.Machine

/-! ### NEST (11 R240) -/

/-- A task's state of a channel changed. -/
def Task.modChan (t : Task) (ch : Nat) (f : Chan → Chan) : Task :=
  { t with chans := t.chans.set ch (f (t.chans.getD ch {})) }

/-- NEST levels 0 to 5 (11 R240, 17 R387). -/
def execNest (ch : BitVec 2) (level : BitVec 3) (ra rb rc : GReg) (s : State) : Result State :=
  issue (.nest ch level ra rb rc)
    (fun s => if 65535 < (s.reg ra).toNat then .trap Cause.copyParam s.wordVal else .ok)
    (fun s =>
      let l : NestLevel := { count := (s.reg ra).toNat, sstride := s.reg rb, dstride := s.reg rc }
      s.modMe fun t => t.modChan ch.toNat fun c => { c with nest := c.nest.set level.toNat l }) s

/-- NEST level 6 (11 R240, R250). -/
def execNestEvent (ch : BitVec 2) (ra rb : GReg) (s : State) : Result State :=
  issue (.nestEvent ch ra rb)
    (fun s => if (s.reg ra).toNat % 8 ≠ 0 then .trap Cause.copyAlign s.wordVal else .ok)
    (fun s =>
      let ea := s.reg ra
      let clear := bit (s.reg rb) 0
      s.modMe fun t => t.modChan ch.toNat fun c =>
        { c with event := ea, status := if clear then 0#32 else c.status }) s

/-! ### The command (11 R241 to R243) -/

/-- Copies a core holds in flight at most (11 R238), and a counter's limit (06 R139). -/
def copyLimit : Nat := 48
def counterLimit : Nat := 4095

/-- The endpoint a register names (11 R241). -/
def endpointOf (k : EndKind) (v : W64) : Endpoint :=
  match k with
  | .mem => .mem v.toNat
  | .tile => .tile (bits v 7 0) (bits v 27 16)

/-- The rows an element spans in a tile: at least one (11 R242). -/
def rowSpan (bytes rlen : Nat) : Nat := max 1 ((bytes + rlen - 1) / rlen)

/-- The levels of a channel in order, as a copy snapshots them: a count of 0 is read as 1 (11 R239, R244). -/
def Chan.levels (c : Chan) : List NestLevel :=
  (List.range 6).map fun l => let x := c.nest.getD l {}; { x with count := max 1 x.count }

/-- The least and the greatest offset that counts and strides reach. -/
def nestReach (counts : List Nat) (strides : List W64) : Int × Int :=
  (counts.zip strides).foldl (fun r p =>
    let d : Int := (p.1 - 1 : Nat) * p.2.toInt
    if d < 0 then (r.1 + d, r.2) else (r.1, r.2 + d)) (0, 0)

/-- The rows, from row0 of an endpoint, that a copy reaches on its source (or destination) side (11 R242). Of a side that its member
does not allow to be a tile, which is found out only after this check, the manual does not say which: row0 alone (log 64). A count n
of 0, which COPY_PARAM refuses only after this check, is read as 1 (DESIGN CHOICE, log 64). -/
def Copy.reach (c : Copy) (dst : Bool) (rlen : Nat) : Int × Int :=
  match c.kind with
  | .nest | .reduce _ _ =>
    let (lo, hi) := nestReach c.counts (if dst then c.dstrides else c.sstrides)
    (lo, hi + (rowSpan c.bytes rlen : Int) - 1)
  | .window .. => if dst then (0, (max 1 c.n : Int) - 1) else (0, 0)
  | .gather .. => if dst then (0, (max 1 c.n * rowSpan c.bytes rlen : Int) - 1) else (0, 0)
  | .scatter .. => if dst then (0, 0) else (0, (max 1 c.n * rowSpan c.bytes rlen : Int) - 1)

/-- TILE_ROW with a row that may lie below 0 (08 R176, 12 R268). -/
def tileRowTrap (h : Nat) (row : Int) : Chk :=
  .trap Cause.tileRow (BitVec.ofNat 64 (h + (row % 2 ^ 48).toNat * 2 ^ 16))

/-- The tile check of one endpoint (11 R242). -/
def Copy.tileCheck (c : Copy) (t : Task) (dst : Bool) (k : Chk) : Chk :=
  match (if dst then c.dst else c.src) with
  | .tile h row0 =>
    (match NMap.find? t.tiles h with
     | none => .trap Cause.tileHandle (BitVec.ofNat 64 h)
     | some x =>
       let (lo, hi) := c.reach dst x.rlen
       if (row0 : Int) + lo < 0 then tileRowTrap h (row0 + lo)
       else if (x.rows : Int) ≤ row0 + hi then tileRowTrap h (row0 + hi)
       else k)
  | _ => k

/-- Whether one side of a copy breaks the alignment of memory endpoints (11 R242). -/
def Copy.misaligned (c : Copy) (dst : Bool) : Bool :=
  match (if dst then c.dst else c.src) with
  | .mem va =>
    va % 8 != 0 || c.bytes % 8 != 0 ||
      (match c.kind with
       | .nest | .reduce _ _ =>
         (c.counts.zip (if dst then c.dstrides else c.sstrides)).any fun p => 1 < p.1 && p.2.toNat % 8 != 0
       | _ => false)
  | _ => false

/-- Whether one side of a copy breaks the extent rule of tiles and the weight buffer (11 R242). -/
def Copy.uneven (c : Copy) (t : Task) (dst : Bool) : Bool :=
  match (if dst then c.dst else c.src), c.kind with
  | _, .window .. => false
  | .tile h _, _ => c.bytes % (t.tiles.getD h {}).rlen != 0
  | .wbuf _, _ => c.bytes % 512 != 0
  | .mem _, _ => false

/-- Endpoint kinds that COPYW, COPYG and COPYS do not accept (11 R245, R246). -/
def Copy.badKind (c : Copy) : Bool :=
  match c.kind, c.src, c.dst with
  | .window .., .mem _, .tile _ _ => false
  | .window .., _, _ => true
  | .gather .., .mem _, _ => false
  | .gather .., _, _ => true
  | .scatter .., _, .mem _ => false
  | .scatter .., _, _ => true
  | _, _, _ => false

/-- Parameters that raise COPY_PARAM (11 R252). -/
def Copy.badParam (c : Copy) (t : Task) : Bool :=
  match c.kind with
  | .nest | .reduce _ _ => c.bytes = 0 || 2 ^ 32 < c.elements
  | .window win _ dil str taps =>
    dil = 0 || str = 0 || taps = 0 || win = 0 || c.n = 0 ||
      (match c.dst with | .tile h _ => (t.tiles.getD h {}).rlen < taps * c.bytes | _ => false)
  | .gather .. | .scatter .. => c.bytes = 0 || c.n = 0

/-- The checks of a copy at issue, in their order (11 R242, R252, 16 R360). Of two endpoints that fail the tile check the manual does
not say which is reported: the destination (log 64). `word` is a window word, 0 for the other
members. -/
def Copy.check (c : Copy) (word : W64) (s : State) : Chk :=
  let t := s.me
  if copyLimit ≤ (s.copies.filter fun x => x.2.core = c.core).length then .stall false
  else if bits word 63 56 ≠ 0 then .trap Cause.rsvdField s.wordVal
  else
    c.tileCheck t true <| c.tileCheck t false <|
    if c.misaligned true || c.misaligned false || (match c.list? with | some l => l % 4 != 0 | none => false) then
      .trap Cause.copyAlign s.wordVal
    else if c.uneven t true || c.uneven t false then .trap Cause.copyExtent s.wordVal
    else if c.badKind then .trap Cause.copyKind s.wordVal
    else if c.badParam t then .trap Cause.copyParam s.wordVal
    else if counterLimit ≤ t.counters.getD c.ctr 0 then .stall false
    else .ok

/-- A destination endpoint register advanced by n bytes (11 R243). -/
def Copy.advance (c : Copy) (t : Task) (v : W64) (n : Nat) : W64 :=
  match c.dst with
  | .mem _ => v + BitVec.ofNat 64 n
  | .tile h row0 => setBits v 16 12 (row0 + n / (t.tiles.getD h {}).rlen)
  | .wbuf e => setBits v 0 9 (e + n / 512)

/-- What a copy writes back in rd (11 R243). -/
def Copy.writeBack (c : Copy) (t : Task) (v : W64) : W64 :=
  match c.kind with
  | .nest | .reduce _ _ => c.advance t v (c.elements * c.bytes)
  | .window .. => (match c.dst with | .tile _ row0 => setBits v 16 12 (row0 + c.n) | _ => v)
  | .gather .. => c.advance t v (c.n * c.bytes)
  | .scatter .. => v

/-- A copy accepted: its counter rises, its destination register advances (11 R243), and it takes its place in task order (09 R204). -/
def State.accept (s : State) (rd : GReg) (c : Copy) : State :=
  let (id, s) := s.newId
  let back := c.writeBack s.me (s.reg rd)
  let s := ({ s with copies := s.copies.set id { c with known := s.eng.ord.known } } : State).modEng fun e =>
    { e with ord := { e.ord with known := e.ord.known.set s.cur.eng.code id } }
  (s.modMe fun t => { t with counters := t.counters.set c.ctr (t.counters.getD c.ctr 0 + 1) }).result 1 rd back

/-- What every copy of the executing task takes from it and from its channel (11 R239). -/
def State.baseCopy (s : State) (ch : BitVec 2) (ctr : BitVec 4) : Copy :=
  let t := s.me
  let c := t.chans.getD ch.toNat {}
  { uid := s.cur.uid, core := t.core.getD 0, vdk := t.vdKey, root := t.s1root.toNat, asid := t.asid.toNat,
    isS := t.priv.isS, ch := ch.toNat, ctr := ctr.toNat, event := c.event.toNat }

/-- A copy under the nest (11 R244). -/
def State.nestCopy (s : State) (ch : BitVec 2) (ctr : BitVec 4) (kind : CopyKind) (dst src : Endpoint) (rb : GReg) : Copy :=
  let ls := (s.me.chans.getD ch.toNat {}).levels
  { s.baseCopy ch ctr with kind, dst, src, bytes := bits (s.reg rb) 31 0, counts := ls.map (·.count),
                           sstrides := ls.map (·.sstride), dstrides := ls.map (·.dstride) }

/-- COPYW's copy (11 R245). -/
def State.windowCopy (s : State) (ch : BitVec 2) (rd ra rb rc : GReg) (dk sk : EndKind) (ctr : BitVec 4) : Copy :=
  let w := s.reg rc
  { s.baseCopy ch ctr with
    kind := .window (bits w 55 32) (bits w 31 24) (bits w 23 16) (bits w 15 8) (bits w 7 0)
    dst := endpointOf dk (s.reg rd), src := endpointOf sk (s.reg ra), bytes := bits (s.reg rb) 31 0
    n := bits (s.reg rb) 63 32 }

/-- The copy of COPYG and COPYS (11 R246). -/
def State.indexCopy (s : State) (ch : BitVec 2) (rd ra rb rc : GReg) (dk sk : EndKind) (ctr : BitVec 4) (scatter : Bool) :
    Copy :=
  let b := s.reg rb
  let bound := bits b 63 40
  let list := (s.reg rc).toNat
  { s.baseCopy ch ctr with
    kind := if scatter then .scatter bound list else .gather bound list
    dst := endpointOf dk (s.reg rd), src := endpointOf sk (s.reg ra), bytes := bits b 15 0, n := bits b 39 16 }

/-- COPY (11 R244, 16 R360). -/
def execCopy (ch : BitVec 2) (rd ra rb : GReg) (dk sk : EndKind) (ctr : BitVec 4) (s : State) : Result State :=
  let mk (s : State) : Copy := s.nestCopy ch ctr .nest (endpointOf dk (s.reg rd)) (endpointOf sk (s.reg ra)) rb
  issueClass (.copy ch rd ra rb dk sk ctr) .cp (fun s => (mk s).check 0#64 s) (fun s => s.accept rd (mk s)) s

/-- WBF (11 R244, 18 R439). -/
def execWbf (ch : BitVec 2) (rd ra rb : GReg) (sk : EndKind) (ctr : BitVec 4) (s : State) : Result State :=
  let mk (s : State) : Copy := s.nestCopy ch ctr .nest (.wbuf (bits (s.reg rd) 8 0)) (endpointOf sk (s.reg ra)) rb
  issueClass (.wbf ch rd ra rb sk ctr) .cp (fun s => (mk s).check 0#64 s) (fun s => s.accept rd (mk s)) s

/-- COPYR (11 R247). -/
def execCopyr (ch : BitVec 2) (rd ra rb : GReg) (dk sk : EndKind) (rop : Rop) (ty : Ty) (ctr : BitVec 4) (s : State) :
    Result State :=
  let mk (s : State) : Copy :=
    s.nestCopy ch ctr (.reduce rop ty) (endpointOf dk (s.reg rd)) (endpointOf sk (s.reg ra)) rb
  issueClass (.copyr ch rd ra rb dk sk rop ty ctr) .cp (fun s => (mk s).check 0#64 s) (fun s => s.accept rd (mk s)) s

/-- COPYW (11 R245). -/
def execCopyw (ch : BitVec 2) (rd ra rb rc : GReg) (dk sk : EndKind) (ctr : BitVec 4) (s : State) : Result State :=
  let mk (s : State) : Copy := s.windowCopy ch rd ra rb rc dk sk ctr
  issueClass (.copyw ch rd ra rb rc dk sk ctr) .cp (fun s => (mk s).check (s.reg rc) s) (fun s => s.accept rd (mk s)) s

/-- COPYG (11 R246). -/
def execCopyg (ch : BitVec 2) (rd ra rb rc : GReg) (dk sk : EndKind) (ctr : BitVec 4) (s : State) : Result State :=
  let mk (s : State) : Copy := s.indexCopy ch rd ra rb rc dk sk ctr false
  issueClass (.copyg ch rd ra rb rc dk sk ctr) .cp (fun s => (mk s).check 0#64 s) (fun s => s.accept rd (mk s)) s

/-- COPYS (11 R246). -/
def execCopys (ch : BitVec 2) (rd ra rb rc : GReg) (dk sk : EndKind) (ctr : BitVec 4) (s : State) : Result State :=
  let mk (s : State) : Copy := s.indexCopy ch rd ra rb rc dk sk ctr true
  issueClass (.copys ch rd ra rb rc dk sk ctr) .cp (fun s => (mk s).check 0#64 s) (fun s => s.accept rd (mk s)) s

/-! ### Translation of copy lines (11 R249) -/

/-- An address of a copy's space through the last-level TLB of its die, for one of its lines. -/
def State.copyTranslate (s : State) (k line : Nat) (c : Copy) (va : Nat) (acc : AccKind) : Trans :=
  let t := s.task c.uid
  if 2 ^ 56 ≤ va then .fault ⟨Cause.trVaRange, va, 0, false, acc⟩ s else
  match (s.die t.die).llt.find? fun e => e.serves c.vdk c.asid va with
  | some e =>
    (match e.refuses c.isS acc with
     | some x => .fault ⟨x, va, 0, false, acc⟩ (s.bindHwid t.die (c.vdk, c.asid))
     | none => .ok [e.piece va] (s.bindHwid t.die (c.vdk, c.asid)))
  | none =>
    if s.walks.any fun w => w.2.by' = .copy k line && w.2.va / 65536 = va / 65536 then .miss s
    else
      let (id, s) := s.newId
      let w : Walk := { die := t.die, core := c.core, by' := .copy k line, uid := c.uid, va, access := acc,
                        num := (s.die t.die).shootNum, vdk := c.vdk, root := c.root, asid := c.asid }
      .miss { s with walks := s.walks.set id w }

/-- Something done at the physical address of an address of a copy's line: a line that fails stops with a record, and one that no
route leads to, or that waits for its walk, is left as it is (11 R249, 13 R278), and so is one where an earlier access of the task must be
performed first (09 R207). `spots` lists what is touched there, by offset and length. -/
def State.atLine (s : State) (k line : Nat) (c : Copy) (va : Nat) (acc : AccKind) (spots : List (Nat × Nat)) (go : Nat → State → State) :
    State :=
  if c.stopped line then s else
  match s.copyTranslate k line c va acc with
  | .ok ps s' =>
    let p := ps.headD {}
    let die := (s'.task c.uid).die
    if !s'.routed die p.pa || spots.any (fun x => s'.copyFollows c (acc != .read) (p.pa + x.1) x.2 p.ord) then s
    else go p.pa (s'.crossTo die p.pa)
  | .miss s => s
  | .fault f s => s.copyFault k line f

/-- Status bits of a channel set (11 R250). When a copy's bits enter the status the manual does not say for all of them: here as
soon as what gives rise to them is handled, so that the event of another copy, or a NEST in between, may meet them before the copy
completes (11 R239; DESIGN CHOICE, log 66). -/
def State.copyStatus (s : State) (c : Copy) (bs : W32) : State :=
  if bs = 0#32 then s else s.modTask c.uid fun t => t.modChan c.ch fun x => { x with status := x.status ||| bs }

/-! ### COPYR (11 R247) -/

/-- One lane of a reduction, destination first: bits and the status bits it sets. -/
def reduceLane (rop : Rop) (t : Ty) (a b : Nat) : Nat × Flags :=
  match tyFmt t with
  | some f =>
    if (f.decode a).isNan || (f.decode b).isNan then (f.canon, flNV)
    else
      (match rop with
       | .max => (pickValue t true a b, 0#9)
       | .min => (pickValue t false a b, 0#9)
       | _ => addValue t .rne 0 a b)
  | none =>
    match rop with
    | .max => (pickValue t true a b, 0#9)
    | .min => (pickValue t false a b, 0#9)
    | _ => addValue t .rne 0 a b

/-- One carry pair of a reduction (05 R123): s in bits 31:0, c in bits 63:32. An overflow is also inexact (05 R111), and
so is a rounding of t; the roundings that the pair compensates set no flag (log 51). -/
def reducePair (a b : Nat) : Nat × Flags :=
  let pr (x : Nat) : W32 × W32 := (BitVec.ofNat 32 x, BitVec.ofNat 32 (x / 2 ^ 32))
  let nan (x : W32 × W32) : Bool := (f32val x.1).isNan || (f32val x.2).isNan
  let (r, f) := cpAdd (pr a) (pr b)
  (r.1.toNat + r.2.toNat * 2 ^ 32, f ||| flagIf (f &&& flOF != 0#9) flNX ||| flagIf (nan (pr a) || nan (pr b)) flNV)

/-- Destination bytes reduced with source bytes. -/
def reduceBytes (rop : Rop) (t : Ty) (old new : List Byte) : List Byte × Flags :=
  let w := match rop with | .cpadd => 8 | _ => tyWidth t / 8
  (List.range (new.length / w)).foldl (fun r i =>
    let at' (l : List Byte) : Nat := leNat ((l.drop (w * i)).take w)
    let (v, f) := match rop with | .cpadd => reducePair (at' old) (at' new) | _ => reduceLane rop t (at' old) (at' new)
    (r.1 ++ leBytes w v, r.2 ||| f)) ([], 0#9)

/-- The status bits of the flags of a reduction (11 R250). -/
def reduceStatus (f : Flags) : W32 :=
  let on (g : Flags) (b : W32) : W32 := if f &&& g = 0#9 then 0#32 else b
  on flNV 0x8#32 ||| on flOF 0x10#32 ||| on flSAT 0x20#32 ||| on flNX 0x40#32

/-! ### COPY_LINE_TRANSFER: reads -/

/-- MAC_FAIL of a channel's status, and the bits of an index out of bound (11 R250). -/
def macFail : W32 := 0x80#32
def gatherOob : W32 := 0x2#32
def scatterOob : W32 := 0x4#32

/-- Whether a line of a read fails its MAC (11 R248). -/
def State.failsMac (s : State) (vdk pa : Nat) : Bool := !isHostPa pa && !s.poisoned pa && s.lineFault (some vdk) pa = some Cause.intMac

/-- n bytes of one line read at their home for a copy: `g` is what the integrity machinery finds (11 R248). MAC_FAIL is set for
every read of a copy that fails, also where the destination is memory, and for an index: the manual does not say (DESIGN CHOICE, log
66). -/
def State.copyRead (s : State) (c : Copy) (g : Integ) (va pa n : Nat) : List Byte × State :=
  let (bs, s) := s.homeRead (s.copyWho c .read) g va pa n
  (bs, if s.failsMac c.vdk pa then s.copyStatus c macFail else s)

/-- Bytes of a row or entry, and with some of them replaced. -/
def entryBytes (e : Entry) (off n : Nat) : List Byte := ((toBytes 512 e).drop off).take n
def entryPatch (e : Entry) (off : Nat) (bs : List Byte) : Entry := ofBytes 4096 (patch (toBytes 512 e) off bs)

/-- A write of a copy that has crossed the fabric is a tagged arrival where it is applied, for host memory at die 0 (11 R244, 13 R284). -/
def State.copyTag (s : State) (c : Copy) (pa : Nat) : State :=
  let t := s.task c.uid
  s.tagged (s.home t.module pa) t.die t.vd t.gang.toNat

/-- A read of a copy that meets an uncorrectable error of a core's storage: the issuing task takes MC_SRAM in LDA at its next
issue, and the storage reads as 0 (12 R273). -/
def State.copySram (s : State) (c : Copy) : Integ → State
  | .sram what el => s.modTask c.uid fun t =>
      let t := if what = 6 ∨ what = 7 then t.clearDamaged .lda what el else t
      { t with raised := t.raised ++ [{ eng := .lda, code := Cause.mcSram, val := sramVal what el, atIssue := true }] }
  | _ => s

/-- What passes the copy buffer: nothing of a damaged one (12 R273). -/
def throughBuffer (g : Integ) (bs : List Byte) : List Byte :=
  match g with | .sram 8 _ => bs.map fun _ => 0#8 | _ => bs

/-- A unit has read its source. -/
def State.stage (s : State) (k u : Nat) (bs : List Byte) : State :=
  { s with copies := s.copies.upd k fun c => { c with staged := c.staged.set u bs } }

/-- Units are performed. -/
def State.unitsDone (s : State) (k : Nat) (us : List Nat) : State :=
  { s with copies := s.copies.upd k fun c => { c with done := us ++ c.done, staged := c.staged.filter fun p => !us.contains p.1 } }

/-- The units of the element of unit u that have their source in the same row, entry or line. -/
def Copy.rowUnits (c : Copy) (t : Task) (u : Nat) : List Nat :=
  ((List.range c.words).map fun i => u / c.words * c.words + i).filter fun v =>
    ((c.move t v).src.map Spot.line) = (c.move t u).src.map Spot.line

/-- Units have read, each the same bytes. -/
def State.stageAll (s : State) (k : Nat) (us : List Nat) (bs : List Byte) : State := us.foldl (fun s u => s.stage k u bs) s

/-- The units of a copy that read from a line of memory. -/
def Copy.readers (c : Copy) (t : Task) (va : Nat) : List Nat :=
  (List.range c.units).filter fun v => (c.move t v).src.map Spot.line = some (.mem (va / 64 * 64))

/-- A doubleword of memory read for a unit. A line fails verification once for a copy, with one record: from then on, and in what has been
read of it and not yet written, the copy has zeros for the whole line (11 R248). -/
def State.readWord (s : State) (k u : Nat) (c : Copy) (g : Integ) (va pa : Nat) : State :=
  let s := s.copySram c g
  let line := va / 64
  if c.macs.contains line then s.stage k u (List.replicate 8 0#8) else
  let (bs, s) := s.copyRead c g va pa 8
  if s.tagOpen (s.copyWho c .read) pa && s.unreadable (some c.vdk) pa then
    let s := { s with copies := s.copies.upd k fun c => { c with macs := line :: c.macs } }
    s.stageAll k (u :: (c.readers (s.task c.uid) va).filter fun v => (NMap.find? c.staged v).isSome) (List.replicate 8 0#8)
  else s.stage k u (throughBuffer g bs)

/-- A unit reads its source: a doubleword of memory, or with the other units there a row at one instant (09 R208, R217). A row is not
read while the core is frozen (12 R273). A unit that has nothing to write is done. -/
def State.readUnit (s : State) (k u : Nat) (c : Copy) (g : Integ) : State :=
  let t := s.task c.uid
  let m := c.move t u
  match m.dst, m.src with
  | none, _ => s.unitsDone k [u]
  | _, none => s.stage k u (List.replicate 8 0#8)
  | _, some (.mem va) => s.atLine k (srcLine va) c va .read [(0, 8)] fun pa s => s.readWord k u c g va pa
  | _, some src =>
    if s.frozen c.uid then s else
    let s := s.copySram c g
    let t := s.task c.uid
    let row := match src with
      | .tile h row _ => (t.tiles.getD h {}).rowAt row
      | .wbuf e _ => t.wbuf.getD e 0#4096
      | .mem _ => 0#4096
    (c.rowUnits t u).foldl (fun s v => match (c.move t v).src with
      | some x => s.stage k v (throughBuffer g (entryBytes row x.off 8))
      | none => s) s

/-- An index of the list is read, once, whole (11 R246). -/
def State.readIndex (s : State) (k j : Nat) (c : Copy) (g : Integ) : State :=
  let va := ((c.list?.getD 0) + 4 * j) % 2 ^ 64
  s.atLine k (indexLine j) c va .read [(0, 4)] fun pa s =>
    let (bs, s) := s.copyRead c g va pa 4
    let x := leNat bs
    let out := match c.kind with
      | .gather bound _ => if x ≠ sentinel ∧ bound ≤ x then gatherOob else 0#32
      | .scatter bound _ => if x ≠ sentinel ∧ bound ≤ x then scatterOob else 0#32
      | _ => 0#32
    ({ s with copies := s.copies.upd k fun c => { c with index := c.index.set j x } } : State).copyStatus c out

/-! ### COPY_LINE_TRANSFER: writes -/

/-- The units whose destination lies in a line, row or entry, as far as their places are known: those of a gather are, whatever index they
still need (11 R246). -/
def Copy.lineUnits (c : Copy) (t : Task) (l : Spot) : List Nat :=
  (List.range c.units).filter fun v => !c.done.contains v && ((c.move t v).dst.map Spot.line) = some l

/-- Whether the units of a line are all known and have all read, and with them whatever else the copy takes from the same lines of memory,
which are verified as a whole (11 R248): a scatter knows its units once every index has been read, or has failed (11 R246, R249). -/
def Copy.lineReady (c : Copy) (t : Task) (us : List Nat) : Bool :=
  let got (v : Nat) : Bool := (NMap.find? c.staged v).isSome
  us.all got &&
    (us.all fun u => match (c.move t u).src with
      | some (.mem va) => (c.readers t va).all fun v => got v || c.done.contains v || ((c.move t v).dst).isNone
      | _ => true) &&
    (match c.kind with
     | .scatter .. => (List.range c.n).all fun j => (NMap.find? c.index j).isSome || c.stopped (indexLine j)
     | _ => true)

/-- The doublewords of a line put over its old bytes, or reduced with them (11 R247), one after another: the new bytes, and the flags
of a reduction. -/
def Copy.fillLine (c : Copy) (old : List Byte) (l : List (Nat × List Byte)) : List Byte × Flags :=
  l.foldl (fun r p =>
    let (bs, f) := match c.kind with
      | .reduce rop ty => reduceBytes rop ty ((r.1.drop p.1).take 8) p.2
      | _ => (p.2, 0#9)
    (patch r.1 p.1 bs, r.2 ||| f)) (old, 0#9)

/-- The doublewords of a memory line written at one instant, with one comparison (07 R162). What lies between them is written back as it
stands, and counts as written by no one; a line that fails its check and is not written whole, or is reduced with, gives one record
(14 R311). -/
def State.copyWrite (s : State) (c : Copy) (g : Integ) (va pa : Nat) (l : List (Nat × List Byte)) : State :=
  let lo := l.foldl (fun n p => min n p.1) 64
  let hi := l.foldl (fun n p => max n (p.1 + 8)) 0
  let dws := (l.map fun p => pa + p.1).dedup
  let reduces : Bool := match c.kind with | .reduce _ _ => true | _ => false
  let w := s.copyWho c (if reduces then .atomic else .write)
  let s := (s.damage pa g).finishAtomics (pa + lo) (if isHostPa pa then hi - lo else 0)
  let (new, f) := c.fillLine (s.fetch w.vd (pa + lo) (hi - lo)) (l.map fun p => (p.1 - lo, p.2))
  let s := match s.owner w pa, s.lineFault w.vd pa with
    | some o, some cause => if s.tagOpen w pa && hi - lo = 64 && !s.poisoned pa && (reduces || dws.length < 8) then
        s.record o (w.record cause va) else s
    | _, _ => s
  ((s.copyStatus c (reduceStatus f)).homeFill w .ok (va + lo) (pa + lo) new dws).copyTag c pa

/-- The status bits of the flags of a reduction set where a copy writes a tile row or an entry at one instant (11 R247, 09 R217). -/
def State.copyFill (s : State) (c : Copy) (l : Spot) (ws : List (Nat × List Byte)) : State :=
  let t := s.task c.uid
  match l with
  | .mem _ => s
  | .tile h row _ =>
    let x := t.tiles.getD h {}
    let (bs, f) := c.fillLine (toBytes 512 (x.rowAt row)) ws
    (s.copyStatus c (reduceStatus f)).modTask c.uid fun t => { t with tiles := t.tiles.set h (x.write row (ofBytes 4096 bs)) }
  | .wbuf e _ =>
    let (bs, _) := c.fillLine (toBytes 512 (t.wbuf.getD e 0#4096)) ws
    s.modTask c.uid fun t => { t with wbuf := t.wbuf.set e (ofBytes 4096 bs) }

/-- The line of a unit that has read is written, once (09 R218), as soon as all of its units have. A row or entry is not written while
the core is frozen (12 R273), nor an entry that a WLD in flight has taken (10 R229). -/
def State.writeLine (s : State) (k u : Nat) (c : Copy) (g : Integ) : State :=
  let t := s.task c.uid
  match (c.move t u).dst.map Spot.line with
  | none => s
  | some l =>
    let us := c.lineUnits t l
    let off (v : Nat) : Nat := match (c.move t v).dst with | some d => d.off | none => 0
    if !c.lineReady t us then s else
    let (order, s') := if (us.map off).dedup.length = us.length then (us, s) else s.anyOrder us.length us
    let ws := order.map fun v => (off v, c.staged.getD v [])
    match l with
    | .mem va =>
      let acc : AccKind := match c.kind with | .reduce _ _ => .atomic | _ => .write
      s'.atLine k (dstLine va) c va acc (us.map fun v => (off v, 8)) fun pa s => (s.copyWrite c g va pa ws).unitsDone k us
    | .tile .. => if s.frozen c.uid then s else (s'.copyFill c l ws).unitsDone k us
    | .wbuf e _ => if s.frozen c.uid || t.latches e then s else (s'.copyFill c l ws).unitsDone k us

/-- COPY_LINE_TRANSFER (11 R244): a unit of an accepted copy goes on: it reads the index it needs, then its source, and then its line
is written. A die that no longer serves moves nothing (15 R337). -/
def execCopyLineTransfer (k u : Nat) (g : Integ) (s : State) : Result State :=
  match NMap.find? s.copies k with
  | none => .next s
  | some c =>
    if c.units ≤ u || c.done.contains u || !(s.die (s.task c.uid).die).inService then .next s
    else
      match c.needs u with
      | some j =>
        .next (if (NMap.find? c.index j).isNone then s.readIndex k j c g
          else if (NMap.find? c.staged u).isNone then s.readUnit k u c g else s.writeLine k u c g)
      | none => .next (if (NMap.find? c.staged u).isNone then s.readUnit k u c g else s.writeLine k u c g)

/-! ### COPY_COMPLETION (11 R250) -/

/-- The event doubleword (11 R250). -/
def Chan.eventWord (c : Chan) : Nat := c.seq.toNat * 2 ^ 32 + c.status.toNat % 2 ^ 9 / 2 * 2

/-- A copy is over: its channel's sequence number has advanced, and its counter falls. -/
def State.endCopy (s : State) (k : Nat) (c : Copy) : State :=
  ({ s with copies := NMap.erase s.copies k } : State).modTask c.uid fun t =>
    { t.wake with counters := t.counters.set c.ctr (t.counters.getD c.ctr 0 - 1) }

/-- COPY_COMPLETION (11 R250): all units are done; the sequence number advances, the event doubleword is stored, the counter
falls. An event address that does not translate holds the copy, as a line of its own does (log 23). -/
def execCopyCompletion (k : Nat) (s : State) : Result State :=
  match NMap.find? s.copies k with
  | none => .next s
  | some c =>
    if c.done.length < c.units then .next s
    else
      let bump (s : State) : State := s.modTask c.uid fun t => t.modChan c.ch fun x => { x with seq := x.seq + 1#32 }
      if c.event = 0 then .next ((bump s).endCopy k c)
      else
        .next (s.atLine k eventLine c c.event .write [(0, 8)] fun pa s =>
          let s := bump s
          let w := ((s.task c.uid).chans.getD c.ch {}).eventWord
          ((s.homeWrite (s.copyWho c .write) .ok c.event pa (leBytes 8 w)).copyTag c pa).endCopy k c)

end Sys2Proof.Machine
end

