-- ==== Sys2Proof/Machine/Matrix.lean ====
section
/-!
DEFINITION. The M slot: WLD, MMA, MMAT and MZERO (10 R229 to R235, 17 R381, R382, R386, 18 R440), and the events of the array:
the accumulator read, the plane switch and the fill port.
-/

namespace Sys2Proof.Machine

/-- The active plane of a task, and the other one. -/
def Task.plane (t : Task) (second : Bool) : Plane := if second then t.plane1 else t.plane0

/-- The slots a WLD takes: half its entries, rounded up, and four (10 R235). -/
def wldSlots (t : Ty) : Nat := (latchEntries t + 1) / 2 + 4

/-- Whether a WLD of a type is one that a die in EARLY does not run (15 R332). -/
def State.narrowEarly (s : State) (t : Ty) : Bool :=
  (match (s.die s.me.die).service with | .early => true | _ => false) && t != .bf16 && t != .f16

/-- The waits of WLD (10 R229), which the results it waits for end, since they go on while it stalls (log 19), and the
early-service check, made when it would issue (15 R332). -/
def wldCheck (t : Ty) (s : State) : Chk :=
  if s.me.exe.pend.any (Pend.latchWaits s.me.activePlane) then .latch
  else if s.narrowEarly t then .trap Cause.typeMode 1#64
  else .ok

/-- WLD (10 R229). -/
def execWld (t : Ty) (entry : BitVec 9) (s : State) : Result State :=
  issue (.wld t entry) (wldCheck t) (fun s =>
    let latch := (List.range (latchEntries t)).map fun i => s.me.wbuf.getD ((entry.toNat + i) % 512) 0#4096
    let p : Plane := { fmt := some t, latch, entry := entry.toNat }
    let s := s.modMe fun u => if u.activePlane then { u with plane0 := p } else { u with plane1 := p }
    s.later (wldSlots t) .plane 0#4096 (flagIf (latchBlk t latch) flBLK)) s

/-- The side cursor of a QA queue (10 R231). -/
def Task.cursor (t : Task) (q : BitVec 2) : SideCur := t.side.getD q.toNat {}

/-- The value of MMA_FORMAT (12 R268). -/
def State.formatVal (s : State) (aty wt : Ty) : W64 :=
  s.wordVal ||| BitVec.ofNat 64 (aty.code * 2 ^ 40 + wt.code * 2 ^ 44)

/-- The checks of MMA and MMAT (10 R232, R237), and the entries they wait for. -/
def mmaCheck (aty : Ty) (q : BitVec 2) (s : State) : Chk :=
  let t := s.me
  match (t.plane t.activePlane).fmt with
  | none => .trap Cause.mmaNoplane s.wordVal
  | some wt =>
    let c := t.cursor q
    if !pairs aty wt || (c.cur != 0 && c.aty != aty) then .trap Cause.mmaFormat (s.formatVal aty wt)
    else if (t.front (.qa q)).isNone then .stall true
    else if 0 < sideRows aty ∧ c.cur = 0 ∧ (t.front (.qa (q ^^^ 1#2))).isNone then .stall true
    else .ok

/-- MMA and MMAT from their issue slot: the row lands after 132 slots and reads its accumulator one slot earlier
(10 R232, R233). -/
def mmaEffect (z : BitVec 3) (k : BitVec 7) (aty : Ty) (q : BitVec 2) (ov : Bool) (mask : Option (BitVec 11 × W32))
    (s : State) : State :=
  let t := s.me
  let elems := (t.front (.qa q)).getD 0#4096
  let t := t.pop (.qa q)
  let c := t.cursor q
  let n := sideRows aty
  let fresh := 0 < n ∧ c.cur = 0
  let side := if n = 0 then 0#4096 else if fresh then (t.front (.qa (q ^^^ 1#2))).getD 0#4096 else c.entry
  let t := if fresh then t.pop (.qa (q ^^^ 1#2)) else t
  let t := if n = 0 then t else { t with side := t.side.set q.toNat { cur := (c.cur + 1) % n, aty, entry := side } }
  let m : MatOp := { aty, elems, side, sideRow := c.cur, plane := t.activePlane, ov, mask }
  let f : FVec := ⟨z, .h, k⟩
  (s.modMe fun _ => t).modEng fun e =>
    { e with pend := e.pend ++ [{ rem := 132, slot := .m, dest := .vec f, mat := some m }] }

/-- MMA (10 R232). -/
def execMma (z : BitVec 3) (k : BitVec 7) (aty : Ty) (q : BitVec 2) (ov : Bool) (s : State) : Result State :=
  issue (.mma z k aty q ov) (mmaCheck aty q) (mmaEffect z k aty q ov none) s

/-- MMAT (10 R233): the mask value is read at issue. -/
def execMmat (z : BitVec 3) (k : BitVec 7) (aty : Ty) (q : BitVec 2) (ov : Bool) (g : BitVec 4) (off : BitVec 11)
    (s : State) : Result State :=
  issue (.mmat z k aty q ov g off) (mmaCheck aty q)
    (fun s => mmaEffect z k aty q ov (some (off, (s.breg g).setWidth 32)) s) s

/-- MZERO (10 R234). -/
def execMzero (x : ZTarget) (s : State) : Result State :=
  issue (.mzero x) noCheck (fun s =>
    s.write (match x with | .vec f => .vec f 0#4096 | .whole z => .clear z)) s

/-! ### Events -/

/-- MMA_ACCUMULATOR_READ (10 R232): the rows that land at EXE's coming slot are formed, unless the core is frozen (12 R273). -/
def execMmaAccumulatorRead (uid : Nat) (s : State) : Result State :=
  .next (if s.frozen uid then s else s.modTask uid Task.readAccumulators)

/-- WLD_PLANE_SWITCH (10 R229): a due plane switch lands; it is the first of its slot to do so (02 R32). A frozen core's does not
(12 R273). -/
def execWldPlaneSwitch (uid : Nat) (s : State) : Result State :=
  let t := s.task uid
  if s.frozen uid then .next s else
  match List.find? (fun p : Pend => p.rem = 0 ∧ p.dest = .plane) t.exe.pend with
  | none => .next s
  | some p =>
    .next (s.setTask uid
      (({ t with activePlane := !t.activePlane, side := [] }.addFlags p.flags).modEng .exe fun e =>
        { e with pend := e.pend.erase p }))

/-- FILL_PORT_WRITE (10 R228): the oldest entry of QW goes into the weight buffer at the fill cursor. It waits while a WLD in flight
has taken the entry there (10 R229), and while the core is frozen (12 R273). -/
def execFillPortWrite (uid : Nat) (s : State) : Result State :=
  let t := s.task uid
  if t.latches t.fillCur || s.frozen uid then .next s else
  match t.front .qw with
  | none => .next s
  | some e =>
    let tag := ((t.queue .qw).headD {}).tag
    let t := { (t.pop .qw) with wbuf := t.wbuf.set t.fillCur e, fillCur := (t.fillCur + 1) % 512 }
    .next { (s.setTask uid t.wake) with accesses := NMap.erase s.accesses tag }

end Sys2Proof.Machine
end

