-- ==== Sys2Proof/Machine/Multicast.lean ====
section
/-!
DEFINITION. Splits and their acks, and the multicast store (13 R287 to R291, 17 R384, R385, 20 R448).
-/

namespace Sys2Proof.Machine

/-! ### Acks (13 R291) -/

/-- Two acks merged. -/
def AckSum.merge (a b : AckSum) : AckSum := { pos := a.pos + b.pos, negs := a.negs ++ b.negs }

/-- The members of a mask answer negative. -/
def AckSum.deny (a : AckSum) (mask cause : Nat) : AckSum :=
  { a with negs := a.negs ++ (maskMembers mask).map fun m => (m, cause) }

/-- The cause of the lowest-numbered negative member; 0 if there is none. -/
def AckSum.cause (a : AckSum) : Nat :=
  (a.negs.foldl (fun best x =>
    match best with
    | some b => if x.1 < b.1 then some x else some b
    | none => some x) (none : Option (Nat × Nat))).elim 0 (·.2)

/-- The counts of an ack (13 R280, R291). -/
def AckSum.counts (a : AckSum) : Nat := a.pos % 1024 + a.negs.length % 1024 * 2 ^ 16 + a.cause % 512 * 2 ^ 32

/-- The negative mask of an ack (13 R291). -/
def AckSum.mask (a : AckSum) : Nat :=
  (maskMembers (2 ^ 512 - 1)).foldl (fun acc m => acc + if a.negs.any (fun x => x.1 = m) then 2 ^ m else 0) 0

/-- The ack record of an MST with a group word. -/
def AckSum.record (a : AckSum) (w : Nat) : List Byte :=
  let of' (c : Nat) : Nat := (a.negs.filter fun x => x.2 = c).length
  leBytes 8 a.counts ++
    leBytes 8 (of' Cause.fbNack % 1024 + of' Cause.fbUnreach % 1024 * 2 ^ 16 + of' Cause.fbGroup % 1024 * 2 ^ 32) ++
    leBytes 8 (w % 2 ^ 16) ++ List.replicate 40 0#8 ++
    leBytes 64 a.mask

/-- The notice that follows a round's aggregated ack (13 R298, 19 R445): E3 with the counts of E2, the stale reports of the
generation, and the error of the lowest negative member, else the round's. -/
def State.notice (s : State) (p : Packet) (sum : AckSum) : State :=
  let e2 := p.b.toNat
  let cause := if sum.negs.isEmpty then e2 / 2 ^ 48 % 512 else sum.cause
  let stale := match NMap.find? s.rounds ((p.at' * 256 + p.vd) * 4096 + gwId p.a.toNat) with
    | some r => if r.gen = gwGen p.a.toNat then r.stale else 0
    | none => 0
  let e3 := musterWord 3 cause (e2 / 2 ^ 38) (e2 / 2 ^ 28) stale e2
  s.inject { p with phase := 1, b := BitVec.ofNat 64 e3, port := 6, ttl := 64, hops := hopSplit, links := [], sum := {} }

/-- The replies to a packet are complete at the die it stands at: they go back through the port it came in on, or to what
issued it (13 R288, R291). -/
def State.answer (s : State) (p : Packet) (sum : AckSum) : State :=
  if p.port ≠ 6 then
    s.inject { kind := 7, vd := p.vd, gang := p.gang, src := p.at', at' := p.at', port := p.port, a := p.a,
               b := BitVec.ofNat 64 sum.counts, str := sum.mask, sum, links := p.links }
  else if p.kind = 6 then s.storeAck p.acc (sum.record p.a.toNat)
  else s.notice p sum

/-- A reply merged into the split record it belongs to: from a port, or (7) from a member of the die itself. -/
def State.mergeAck (s : State) (id port : Nat) (sum : AckSum) : State :=
  match NMap.find? s.splits id with
  | none => s
  | some r =>
    let owed := r.owed.erase port
    let sum := r.sum.merge sum
    if owed.isEmpty then ({ s with splits := NMap.erase s.splits id } : State).answer r.pkt sum
    else { s with splits := s.splits.set id { r with owed, sum } }

/-- MULTICAST_ACK (13 R291): an ack crosses its link and is merged into the split record it belongs to; a member's own reply crosses
none. -/
def execMulticastAck (k : Nat) (s : State) : Result State :=
  match s.packet k 7 with
  | none => .next s
  | some p =>
    let d := s.neighbour p.at' p.port
    if p.port = 7 then .next ((s.dropPacket k).mergeAck (p.links.headD 0) 7 p.sum)
    else if !s.linkUp p.at' p.port || s.behind k p || s.groupAway d p.vd (gwId p.a.toNat) then .next s
    else
      let s := ((s.dropPacket k).crossed [(p.at', p.port)]).judging d p.vd p.a.toNat
      if (s.groupNow d p.vd p.a.toNat).isNone then .next (s.modDie d fun x => { x with stale := x.stale + 1#64 })
      else .next (s.mergeAck (p.links.headD 0) (opposite p.port) p.sum)

/-! ### Splits (13 R288) -/

/-- A split under way: the state, the members still in the string, the replies so far, and the ports that owe one. -/
structure SplitRun where
  s : State
  rest : Nat
  sum : AckSum := {}
  owed : List Nat := []

/-- The copy for one port. -/
def SplitRun.port (r : SplitRun) (p : Packet) (g : Group) (id q : Nat) : SplitRun :=
  let part := r.rest &&& g.masks.getD q 0
  if part = 0 then r
  else
    let rest := r.rest ^^^ part
    if !r.s.linkUp p.at' q || p.ttl = 0 then { r with rest, sum := r.sum.deny part Cause.fbUnreach }
    else
      let copy : Packet :=
        { p with c := if p.kind = 6 && p.port = 6 then BitVec.ofNat 64 id else p.c, at' := r.s.neighbour p.at' q, port := opposite q
                 str := part, ttl := p.ttl - 1, hops := hopSplit, links := [id] }
      { s := (r.s.inject copy).crossed [(p.at', q)], rest, sum := r.sum, owed := r.owed ++ [q] }

/-- What becomes of a member that a split delivers to: it replies at once, positive or negative with a cause; its lines lie in a landing
buffer, and its reply follows when they are performed (13 R290); or the delivery is refused for now and stands there as a packet of its
own (12 R262). -/
inductive Reply | yes | no (cause : Nat) | landed | wait (p : Packet)

/-- A member's reply taken into a split. -/
def SplitRun.member (r : SplitRun) (m : Nat) : Reply → SplitRun
  | .yes => { r with sum := { r.sum with pos := r.sum.pos + 1 } }
  | .no c => { r with sum := r.sum.deny (2 ^ m) c }
  | .landed => { r with owed := r.owed ++ [7] }
  | .wait p => { r with s := r.s.inject p, owed := r.owed ++ [7] }

/-- A split of a packet at the die it stands at: local members first, then the ports in order; a delivery is told its split and its
member. A notice or refusal is acked by nobody. -/
def State.split (s : State) (p : Packet) (g : Group) (deliver : Nat → Nat → State → Reply × State) : State :=
  let named := p.str % 2 ^ g.n
  let near := named &&& g.here
  let s := if near = 0 then s else s.tagged p.at' p.src p.vd p.gang
  let r0 : SplitRun := { s, rest := named ^^^ near, sum := ({} : AckSum).deny (p.str ^^^ named) Cause.fbGroup }
  let (id, s) := r0.s.newId
  let r1 := (maskMembers near).foldl (fun (r : SplitRun) m =>
    let (c, s) := deliver id m r.s
    ({ r with s } : SplitRun).member m c) { r0 with s }
  let r2 := (List.range 6).foldl (fun r q => r.port p g id q) r1
  let sum := r2.sum.deny r2.rest Cause.fbGroup
  if p.phase ≠ 0 then r2.s
  else if r2.owed.isEmpty then r2.s.answer p sum
  else { r2.s with splits := r2.s.splits.set id { die := p.at', owed := r2.owed, sum, up := p.links.head?, pkt := p } }

/-! ### MST (13 R289, R290, 17 R384) -/

/-- The tasks of a die that a member of a packet's group may be: the live ones of its VD and gang. -/
def State.memberTasks (s : State) (p : Packet) : List Nat :=
  (s.tasks.filter fun t => t.2.die = p.at' && t.2.vd = p.vd && t.2.gang.toNat = p.gang).map (·.1)

/-- The task whose context a one-sided write to a member is addressed to (09 R220). Neither packet nor group names it: a free choice
among the tasks that it may be, or none of them (log 32). -/
def State.memberTask (s : State) (p : Packet) : Option Nat × State :=
  match s.memberTasks p with
  | [] => (none, s)
  | l => let (k, s) := s.draw; (l[Config.memberTask k % (l.length + 1)]?, s)

/-- Whether a task's context is in no slot that issues, so that what comes for it goes to its landing buffer (12 R262). -/
def Task.away (t : Task) : Bool := match t.place with | .parked | .held => true | _ => false

/-- The task whose landing buffer takes a member's lines: one whose buffer holds earlier ones of that member, which these come after, or
else the one they are for while it is parked or held (12 R262, 20 R448). -/
def State.holder (s : State) (die vdk block : Nat) (l : List Nat) : Option Nat :=
  let holds (x : Landing) : Bool := match x with | .write b .. => b == block | _ => false
  ((List.find? (fun t : Nat × Task => t.2.die = die && t.2.vdKey = vdk && t.2.landing.any holds) s.tasks).map (·.1)).orElse
    fun _ => l.find? fun u => (s.task u).away

/-- Whether an MST delivered earlier to the same member waits there (20 R448). Those of one task keep the order of their accesses. -/
def State.deliveredBefore (s : State) (k : Nat) (p : Packet) : Bool :=
  let task (p : Packet) : Nat := match NMap.find? s.accesses p.acc with | some a => a.uid | none => 0
  s.packets.any fun q => q.1 < k && q.2.kind = 6 && q.2.port = 7 && q.2.at' = p.at' && q.2.vd = p.vd && q.2.str = p.str &&
    gwId q.2.a.toNat = gwId p.a.toNat && (task q.2 != task p || q.2.acc < p.acc)

/-- A multicast store at a member of its die, by the block and the stage 2 as they stand: all its checks and all its lines at one instant
(13 R290, 20 R448). The packet's string is the member; its links are the split that awaits the reply, the IPA of the member's block and
the task it is for. Lines for a landing buffer, or after some that lie in one, are performed when it is replayed; their checks are then
made again, as one step with the writes. -/
def State.deliverTo (s : State) (k : Nat) (p : Packet) : Reply × State :=
  let vdk := vdKey (s.moduleOf p.at') p.vd
  let block := p.links.getD 1 0
  match s.memberSpots p.at' vdk block p.b.toNat p.body.length with
  | (none, s) => (.no Cause.fbNack, s.memberDone p.acc p.str)
  | (some l, u) =>
    if s.deliveredBefore k p then (.wait p, s) else
    let author := (p.src, match NMap.find? s.accesses p.acc with | some a => a.tid | none => 0)
    match s.holder p.at' vdk block (p.links.drop 2) with
    | none => (.yes, (u.writeLines (blockWho vdk p.at' (some author)) l p.body).memberDone p.acc p.str)
    | some t =>
      let x := Landing.write block p.b.toNat p.body author { split := p.links.headD 0, member := p.str, acc := p.acc }
      match u.intoLanding t x with
      | (true, u) => (.landed, { u with accesses := u.accesses.upd p.acc fun a => { a with landed := true } }.memberDone p.acc p.str)
      | (false, _) => (.wait p, (s.intoLanding t x).2)

/-- A multicast store delivered to a member of the die, for one of the tasks that it may be (13 R290, log 32). -/
def State.deliverStore (s : State) (p : Packet) (g : Group) (split m : Nat) : Reply × State :=
  let (u, s) := s.memberTask p
  s.deliverTo s.nextId { p with port := 7, str := m, links := split :: g.block m :: u.toList }

/-- A delivery that was refused is tried again; when it is over, the member's reply goes to the split that awaits it. -/
def State.redeliver (s : State) (k : Nat) (p : Packet) : State :=
  let id := p.links.headD 0
  match s.deliverTo k p with
  | (.wait _, s) => s
  | (.landed, s) => s.dropPacket k
  | (.yes, s) => (s.dropPacket k).mergeAck id 7 { pos := 1 }
  | (.no c, s) => (s.dropPacket k).mergeAck id 7 (({} : AckSum).deny (2 ^ p.str) c)

/-- Whether a multicast store has to wait before its die serves it, and with it what comes after (13 R282): for routes to the entry, the
blocks and the tables of the members it is delivered to there (01 R16, R17, 13 R278), or for accesses of the storing task that its
lines come after (09 R207, R214). -/
def State.storeWaits (s : State) (p : Packet) : Bool :=
  let vdk := vdKey (s.moduleOf p.at') p.vd
  let n := p.body.length
  let follows (l : List (Nat × PageOrd)) : Bool := match NMap.find? s.accesses p.acc with
    | none => false
    | some a => s.anyLive a.deps || l.any fun x => s.mustFollow a { pa := x.1, len := 64, ord := x.2, write := true }
  s.nearAway p.at' p.vd p.a.toNat p.str ||
  match s.groupNow p.at' p.vd p.a.toNat with
  | none => false
  | some g => (maskMembers (p.str % 2 ^ g.n &&& g.here)).any fun m =>
    match s.deviceBytes vdk (g.block m + 24) 16 with
    | .error _ => false
    | .ok bs =>
      let ipa := (receiveArea bs).1 + p.b.toNat
      !s.ipaRouted p.at' vdk ipa n || match s.lineSpots vdk p.at' ipa n with | .error _ => false | .ok l => follows l

/-- MULTICAST_STORE (13 R287 to R290): the packet is split at the router it stands at, or a delivery that a member had to refuse is
tried again. -/
def execMulticastStore (k : Nat) (s : State) : Result State :=
  match s.packet k 6 with
  | none => .next s
  | some p =>
    if p.port = 7 then .next (s.redeliver k p)
    else if s.behind k p || !s.mayApply p || p.malformed || s.storeWaits p then .next s
    else
      let s := (s.dropPacket k).judging p.at' p.vd p.a.toNat
      match s.groupNow p.at' p.vd p.a.toNat with
      | none => .next (s.answer p (({} : AckSum).deny p.str Cause.fbGroup))
      | some g => .next (s.split p g fun id m s => s.deliverStore p g id m)

/-- The row of the descriptor. -/
def State.mstRow (s : State) (rc : GReg) : Nat := bits (s.reg rc) 11 0

/-- The checks of MST before its translation (17 R384). The descriptor is read behind the tile accesses of STA that wait at
the port (09 R217). -/
def mstCheck (h : BitVec 8) (rc : GReg) (s : State) : Chk :=
  rowCheck h (s.mstRow rc) s
    (if s.accesses.any fun a => a.2.uid = s.cur.uid && a.2.eng == .sta && a.2.atPort then .stall false else .ok)

/-- The packet of an MST. -/
def mstPacket (t : Task) (id w off str : Nat) (body : List Byte) : Packet :=
  { kind := 6, vd := t.vd, gang := t.gang.toNat, src := t.die, a := groupField w 0 0, b := BitVec.ofNat 64 off,
    hops := hopSplit, str, body, at' := t.die, acc := id }

/-- The lines that an MST writes, by the group tables and blocks as they stand when it issues: what keeps its order with the task's
other accesses to the same locations, and shows whether a member's receive area is SO (09 R207, R210, 17 R385; log 32). -/
def State.mstParts (s : State) (w str off n : Nat) : List Part :=
  let t := s.me
  (s.podOf t.module).flatMap fun d =>
    match s.groupNow d t.vd w with
    | none => []
    | some g =>
      (maskMembers (str % 2 ^ g.n &&& g.here)).flatMap fun m =>
        let vdk := vdKey (s.moduleOf d) t.vd
        match s.deviceBytes vdk (g.block m + 24) 16 with
        | .error _ => []
        | .ok bs =>
          match s.lineSpots vdk d ((receiveArea bs).1 + off) n with
          | .error _ => []
          | .ok l => l.map fun x => { pa := x.1, len := 64, off := m, ord := x.2, write := true }

/-- MST (13 R289, 17 R384). -/
def execMst (q : BitVec 2) (ra rb : GReg) (h : BitVec 8) (rc : GReg) (s : State) : Result State :=
  issueClass (.mst q ra rb h rc) .fb (mstCheck h rc) (fun s =>
    let desc := toBytes 512 (((s.me.tile? h).getD {}).rowAt (s.mstRow rc))
    let str := leNat (desc.take 64)
    let lines := if dword desc 8 % 8 = 0 then 7 else dword desc 8 % 8
    let va := dword desc 9 / 64 % 2 ^ 50 * 64
    s.withPieces va 128 .write fun _ s =>
      match popCheck q 1 s with
      | .ok =>
        let body := (toBytes 512 ((s.entries q 1).headD 0#4096)).take (64 * lines)
        let w := (s.reg rb).toNat % 2 ^ 16
        let off := (s.reg ra).toNat / 64 * 64
        let parts := s.mstParts w str off (64 * lines)
        let so := parts.any fun q => q.ord == .so
        let s := if so then s.release else s
        let id := s.nextId
        let a : Access := { cls := some .fb, drain := some 1, purpose := .mst w va [] none, parts }
        let s := (s.addAccess a).popN q 1
        let s := if str = 0 then s.storeAck id (List.replicate 128 0#8) else s.inject (mstPacket s.me id w off str body)
        if so then s.holdFor .full else s
      | _ => s.stallNow true) s

end Sys2Proof.Machine
end

