-- ==== Sys2Proof/Machine/Musters.lean ====
section
/-!
DEFINITION. Musters: contributions and their reduction, rounds and their results, joins and closes (13 R292 to R301,
17 R377 to R380, 19 R444, R445).
-/

namespace Sys2Proof.Machine

/-! ### MCTB and MLDR at their die (13 R295, 17 R378, R379) -/

/-- E1 of a contribution whose check fails, where its block can be found (13 R295). -/
def State.refuseE1 (s : State) (vdk die w m tag cause : Nat) : State :=
  match s.blockEntry die (vdk % 256) w m with
  | some g => s.writeWord vdk die g m 0 (musterWord 1 cause 0 0 0 tag)
  | none => s

/-- A contribution that issues: it fails at once, or its reads go out; it waits for routes to what it needs (01 R16, R17). -/
def State.contribute (s : State) (ra rb rc : GReg) (ty : Option Bool) (q : Option InQueue) : State :=
  let t := s.me
  let w := (s.reg rb).toNat % 2 ^ 16
  let m := bits (s.reg rb) 24 16
  let tag := bits (s.reg rc) 15 0
  let id := s.nextId
  let drain := if q.isSome then some 0 else none
  let place (s : State) : State := match q with | some q => s.modMe fun t => t.reserve q.queue id | none => s
  if s.sourceAway t.die t.vd w m then s.stallNow false else
  let s := s.judging t.die t.vd w
  match s.checkMember t.die t.vd w m with
  | .error c =>
    let s := s.refuseE1 t.vdKey t.die w m tag c
    (match q with
     | none => s
     | some q =>
       let a : Access :=
         { cls := some .fb, drain, purpose := .entry q.queue.code id, parts := [{ len := 512, bytes := failureEntry, stat := .done }] }
       place (s.addAccess a))
  | .ok g =>
    let bf16 := ty.getD g.bf16
    s.memory (s.reg ra).toNat ((if bf16 then 2 else 4) * g.e) .read {} soLoad fun ps s =>
      let purpose : Purpose := .contribute w m tag bf16 g.e (q.map fun q => (q.queue.code, id)) false
      place (s.addAccess { cls := some .fb, drain, purpose, parts := s.readParts t.die ps })

/-- MCTB (13 R295, 17 R378). -/
def execMctb (ra rb rc : GReg) (s : State) : Result State :=
  issueClass (.mctb ra rb rc) .fb noCheck (fun s => s.contribute ra rb rc none none) s

/-- MLDR (13 R295, R299, 17 R379). -/
def execMldr (q : InQueue) (ra rb rc : GReg) (bf16 : Bool) (s : State) : Result State :=
  issueClass (.mldr q ra rb rc bf16) .fb (roomCheck q 1) (fun s => s.contribute ra rb rc (some bf16) (some q)) s

/-- The pairs of a contribution: each value exact in f32, and +0 (13 R295). -/
def contributionPairs (bf16 : Bool) (n : Nat) (bs : List Byte) : List Byte :=
  (List.range n).flatMap fun j =>
    leBytes 8 (if bf16 then leNat ((bs.drop (2 * j)).take 2) * 2 ^ 16 else leNat ((bs.drop (4 * j)).take 4))

/-- MCTB_SEND (13 R295): the reads of a contribution have returned; E1 is written and the packet goes out. The group word is
checked again, since the entry may have changed (log 25); an MLDR whose entry has changed generation has then taken the failure entry
(13 R301). -/
def execMctbSend (id : Nat) (s : State) : Result State :=
  match NMap.find? s.accesses id with
  | none => .next s
  | some a =>
    let ready := a.parts.all (·.stat == .done) &&
      match a.purpose with | .contribute w m .. => !s.sourceAway a.die (a.vdk % 256) w m | _ => false
    let s := match a.purpose with
      | .contribute w .. => if ready then s.judging a.die (a.vdk % 256) w else s
      | _ => s
    match (s.accesses.getD id a : Access).purpose with
    | .contribute w m tag bf16 e mldr false =>
      if !ready then .next s
      else
        let vd := a.vdk % 256
        let ended (s : State) (bs : Option (List Byte)) : State :=
          match mldr, bs with
          | none, _ => { s with accesses := NMap.erase s.accesses id }
          | some _, some bs => s.giveEntry id bs
          | some _, none =>
            { s with accesses := s.accesses.upd id fun a => { a with purpose := .contribute w m tag bf16 e mldr true } }
        match s.checkMember a.die vd w m with
        | .error c => .next (ended (s.refuseE1 a.vdk a.die w m tag c) (some failureEntry))
        | .ok g =>
          let p : Packet :=
            { kind := 8, vd, gang := a.gang, src := a.die, a := groupField w tag m, b := 1#64, hops := g.up, str := 2 ^ m,
              body := contributionPairs bf16 e a.data, at' := a.die, acc := id }
          .next (ended ((s.writeWord a.vdk a.die g m 0 (musterWord 1 0 0 0 0 tag)).inject p) none)
    | _ => .next s

/-! ### Carry pairs of a packet (05 R123) -/

/-- The pairs of a byte string, and their bytes. -/
def readPairs (bs : List Byte) : List (W32 × W32) :=
  (List.range (bs.length / 8)).map fun j => (BitVec.ofNat 32 (dword bs j), BitVec.ofNat 32 (dword bs j / 2 ^ 32))
def pairBytes (l : List (W32 × W32)) : List Byte := l.flatMap fun p => leBytes 4 p.1.toNat ++ leBytes 4 p.2.toNat

/-- Two states combined, pair by pair (13 R296). -/
def combinePairs (a b : List (W32 × W32)) : List (W32 × W32) := (a.zip b).map fun p => (cpAdd p.1 p.2).1

/-- A latecomer's pairs scaled by a bf16 weight (13 R297). -/
def scalePairs (w : Nat) (l : List (W32 × W32)) : List (W32 × W32) :=
  let k := fmtBF16.decode w
  let mul (x : W32) : W32 := (fl32 (Num.mul (f32val x) k).1).1
  l.map fun p => (mul p.1, mul p.2)

/-! ### Reduction (13 R296) -/

/-- Combine slots of a router, and the ticks a slot waits. -/
def combineSlots : Nat := 16
def combineTicks : Nat := 100

/-- Whether a packet belongs in a combine slot. -/
def Combine.takes (c : Combine) (p : Packet) : Bool :=
  c.die == p.at' && c.pkt.vd == p.vd && c.pkt.a.toNat % 2 ^ 32 == p.a.toNat % 2 ^ 32

/-- A packet sent on through a port: it acts as a forward from here, where it has been judged. -/
def Packet.forwarding (p : Packet) : Packet := { p with phase := 1, hops := BitVec.ofNat 8 (hopPort p.hop) :: p.hops.drop 1 }

/-- A slot is forwarded on the remaining hop list. Its packets have been judged here (13 R287). -/
def State.sendSlot (s : State) (k : Nat) : State :=
  match NMap.find? s.combines k with
  | none => s
  | some c => ({ s with combines := NMap.erase s.combines k } : State).inject
      { c.pkt with str := c.mask, b := BitVec.ofNat 64 (popcount c.mask), phase := 1 }

/-- A reduce at a router (13 R296). It is a tagged arrival where it reduces, and none where it acts as a forward or is dropped
(13 R284). -/
def State.reduce (s : State) (p : Packet) (g : Group) : State :=
  let full (m : Nat) : Bool := g.expect ≤ popcount m
  match List.find? (fun c : Nat × Combine => c.2.takes p) s.combines with
  | some (k, c) =>
    if c.mask &&& p.str ≠ 0 then s.modDie p.at' fun d => { d with dup := d.dup + 1#64 }
    else
      let mask := c.mask ||| p.str
      let body := pairBytes (combinePairs (readPairs c.pkt.body) (readPairs p.body))
      let s := ({ s with combines := s.combines.set k { c with mask, pkt := { c.pkt with body } } } : State).tagged p.at' p.src p.vd p.gang
      if full mask then s.sendSlot k else s
  | none =>
    if g.expect = 0 || combineSlots ≤ (s.combines.filter fun c => c.2.die = p.at').length then s.inject p.forwarding
    else if full p.str then (s.tagged p.at' p.src p.vd p.gang).inject p.forwarding
    else
      let (k, s) := (s.tagged p.at' p.src p.vd p.gang).newId
      let c : Combine := { die := p.at', pkt := p.forwarding, mask := p.str, opened := (s.die p.at').clk.toNat }
      { s with combines := s.combines.set k c }

/-- COMBINE_SLOT_TIMEOUT (13 R296): 100 ticks after a slot opened it is forwarded. -/
def execCombineSlotTimeout (k : Nat) (s : State) : Result State :=
  match NMap.find? s.combines k with
  | none => .next s
  | some c => if c.opened + combineTicks ≤ (s.die c.die).clk.toNat then .next (s.sendSlot k) else .next s

/-! ### Rounds at the root (13 R294, R297, R300) -/

/-- The key of a group's round state at a root. -/
def roundKey (die vd gid : Nat) : Nat := (die * 256 + vd) * 4096 + gid

/-- The round state of a group and generation. -/
def State.round (s : State) (die vd w : Nat) : Option Round :=
  match NMap.find? s.rounds (roundKey die vd (gwId w)) with
  | some r => if r.gen = gwGen w then some r else none
  | none => none

def State.setRound (s : State) (r : Round) : State :=
  { s with rounds := s.rounds.set (roundKey r.die r.vd r.group) r }

/-- open − t as a signed 16-bit difference (13 R293). -/
def tagDiff (open' tag : Nat) : Int := sextNat ((open' + 2 ^ 16 - tag % 2 ^ 16) % 2 ^ 16) 16

/-- The slot of a tag. -/
def Round.slot (r : Round) (tag : Nat) : RoundSlot := r.slots.getD tag {}

/-- A packet in kind-9 form that starts at the root, for members of a string (13 R298). -/
def Round.packet (r : Round) (gang str word : Nat) (body : List Byte) (phase : Nat) (late : List Nat) : Packet :=
  { kind := 9, vd := r.vd, gang, src := r.die, a := groupField (r.group + r.gen * 2 ^ 12) word 0, b := BitVec.ofNat 64 word,
    hops := hopSplit, str, body, phase, at' := r.die, sum := { negs := late.map fun x => (x / 2 ^ 16, x % 2 ^ 16) } }

/-- The oldest open round ends: closed, or failed with a cause. Its result goes out, and the window moves on (13 R297,
R300). -/
def State.endRound (s : State) (r : Round) (g : Group) (gang cause : Nat) : State × Round :=
  let t := r.openTag.toNat
  let x := r.slot t
  let word := musterWord 2 cause (popcount x.counted) x.folded 0 t
  let body := pairBytes (x.pairs.getD (List.replicate g.e (0#32, 0#32))) ++ leBytes 64 x.counted
  let next := (t + 1) % 2 ^ 16
  let r' := { r with openTag := r.openTag + 1#16, slots := NMap.erase r.slots t,
                     seen := r.seen.filter fun p => decide (tagDiff next p.1 ≤ 8) }
  (s.inject (r.packet gang (2 ^ g.n - 1) word body 0 x.late), r')

/-- Rounds that hold their quorum close, in tag order (13 R297). -/
def closeRounds (g : Group) (gang : Nat) : Nat → State → Round → State
  | 0, s, r => s.setRound r
  | n + 1, s, r =>
    if g.k ≤ popcount (r.slot r.openTag.toNat).counted then
      let (s, r) := s.endRound r g gang 0
      closeRounds g gang n s r
    else s.setRound r

/-- Round slots, and how many rounds may close at once. -/
def roundSlots : Nat := 8

/-- The members' dies are told of a refusal (13 R297, 19 R444). -/
def State.refuse (s : State) (p : Packet) (cause : Nat) : State :=
  let w := p.a.toNat
  let r : Round := { die := p.at', vd := p.vd, group := gwId w, gen := gwGen w }
  s.inject (r.packet p.gang p.str (musterWord 2 cause 0 0 0 (gwTag w)) [] 2 [])

/-- Pairs combined into a slot: the first start it as they stand (13 R296, R297). -/
def RoundSlot.fold (x : RoundSlot) (l : List (W32 × W32)) : RoundSlot :=
  { x with pairs := some (match x.pairs with | none => l | some a => combinePairs a l) }

/-- A contribution delivered at the root (13 R297, 19 R444). -/
def State.atRoot (s : State) (p : Packet) (g : Group) : State :=
  let s := s.tagged p.at' p.src p.vd p.gang
  let w := p.a.toNat
  match s.round p.at' p.vd w with
  | none => (s.modDie p.at' fun d => { d with stale := d.stale + 1#64 }).refuse p Cause.muGroup
  | some r =>
    let t := gwTag w
    let open' := r.openTag.toNat
    let d := tagDiff open' t
    let ms := maskMembers p.str
    let seen := r.seen.getD t 0
    let saw (r : Round) : Round := { r with seen := r.seen.set t (seen ||| p.str) }
    let dup : State := s.modDie p.at' fun d => { d with dup := d.dup + 1#64 }
    if d ≤ 0 ∧ -7 ≤ d then
      let x := r.slot t
      if p.str &&& x.counted ≠ 0 ∨ p.str &&& seen ≠ 0 then dup
      else
        let y := { x.fold (readPairs p.body) with counted := x.counted ||| p.str }
        closeRounds g p.gang roundSlots s (saw { r with slots := r.slots.set t y })
    else if 1 ≤ d ∧ d ≤ 7 ∧ ms.all fun m => decide (d ≤ g.lags.getD m 0) then
      if p.str &&& seen ≠ 0 then dup
      else
        let x := (r.slot open').fold (scalePairs (g.wt.getD (d.toNat - 1) 0) (readPairs p.body))
        let y := { x with folded := x.folded + ms.length, late := x.late ++ ms.map fun m => m * 2 ^ 16 + t }
        s.setRound (saw { r with slots := r.slots.set open' y })
    else s.refuse p Cause.muLag

/-- A packet moves through its hop's port to the next router (13 R281). -/
def State.forward (s : State) (p : Packet) : State :=
  let q := hopPort p.hop
  (s.crossed [(p.at', q)]).inject
    { p with at' := s.neighbour p.at' q, port := opposite q, ttl := p.ttl - 1, hops := p.hops.drop 1 ++ [hopEnd], phase := 0 }

/-- A contribution that a router has judged moves on: forwarded once its port is up, reduced, or delivered at the root. -/
def State.contributed (s : State) (k : Nat) (p : Packet) (g : Group) : State :=
  match hopOp p.hop with
  | 0 =>
    if s.linkUp p.at' (hopPort p.hop) && !s.behind k { p with phase := 1 } then (s.dropPacket k).forward p
    else { s with packets := s.packets.set k { p with phase := 1 } }
  | 1 => (s.dropPacket k).reduce p g
  | _ => (s.dropPacket k).atRoot p g

/-- CONTRIBUTION (13 R281, R287, R296, R297): a router judges a contribution when it arrives and acts on its first hop. One judged
before waits for its port alone. -/
def execContribution (k : Nat) (s : State) : Result State :=
  match s.packet k 8 with
  | none => .next s
  | some p =>
    if s.behind k p || p.malformed then .next s
    else if p.phase = 1 then .next (if s.linkUp p.at' (hopPort p.hop) then (s.dropPacket k).forward p else s)
    else if s.groupAway p.at' p.vd (gwId p.a.toNat) then .next s
    else
      let s := s.judging p.at' p.vd p.a.toNat
      match s.groupNow p.at' p.vd p.a.toNat with
      | none =>
        let s := (s.dropPacket k).modDie p.at' fun d => { d with stale := d.stale + 1#64 }
        (match s.group p.at' p.vd (gwId p.a.toNat) with
         | none => .next s
         | some g => .next (s.inject { kind := 14, vd := p.vd, src := p.at', dst := g.root, at' := p.at', a := p.a }))
      | some g => .next (s.contributed k p g)

/-- Stale reports of a generation, which saturate (13 R293). -/
def staleMax : Nat := 4095

/-- STALE_REPORT (13 R287, R301): counted for the generation that the root's entry names and that holds round state there; else,
or when the packet dropped was of that generation itself, for the generation that the next first join begins. -/
def execStaleReport (k : Nat) (s : State) : Result State :=
  if s.packetWaits k 14 fun p => s.groupAway p.dst p.vd (gwId p.a.toNat) then .next s
  else s.arrives k 14 fun p s =>
    let gid := gwId p.a.toNat
    let s := s.groupRecords p.dst p.vd gid
    let soon := s.modDie p.dst fun d =>
      { d with staleSoon := d.staleSoon.set (p.vd * 4096 + gid) (min (d.staleSoon.getD (p.vd * 4096 + gid) 0 + 1) staleMax) }
    match NMap.find? s.rounds (roundKey p.dst p.vd gid), s.group p.dst p.vd gid with
    | some r, some g =>
      if r.gen = g.gen ∧ r.gen ≠ gwGen p.a.toNat then s.setRound { r with stale := min (r.stale + 1) staleMax } else soon
    | _, _ => soon

/-! ### Results at the members (13 R298, R299) -/

/-- The MLDRs of a member on a die that a round has taken in: counted in it, or folded. -/
def State.roundMldrs (s : State) (p : Packet) (m : Nat) : List Nat :=
  let w := p.a.toNat % 2 ^ 16
  let counted := leNat (p.body.drop (p.body.length - 64))
  s.mldrs p.at' p.vd fun g x tag =>
    g = w && x = m && ((tag == p.b.toNat % 2 ^ 16 && counted.testBit m) || p.sum.negs.contains (m, tag))

/-- A round's result at a member (13 R298, 19 R447): the pairs and the counted mask, then E2, and the entries of its MLDRs;
of a failed round only E2. An unwritable block takes nothing. -/
def State.deliverResult (s : State) (p : Packet) (g : Group) (m : Nat) : Reply × State :=
  let vdk := vdKey (s.moduleOf p.at') p.vd
  let word := p.b.toNat
  let failed := word / 2 ^ 63 = 1
  let pairs := p.body.take (p.body.length - 64)
  let mask := p.body.drop (p.body.length - 64)
  let ids := s.roundMldrs p m
  match s.devicePieces vdk (g.block m) blockSize true with
  | .error f => (.no Cause.fbNack, (s.deviceFault vdk p.at' .write f).giveAll ids failureEntry)
  | .ok _ =>
    let s := if failed then s
      else (((s.writeBlock vdk p.at' g m 64 pairs).2).writeBlock vdk p.at' g m 512 mask).2
    (.yes, (s.writeWord vdk p.at' g m 8 word).giveAll ids (if failed then failureEntry else resultEntry pairs))

/-- A refusal at a member (13 R297, R299, 19 R444). -/
def State.deliverRefusal (s : State) (p : Packet) (g : Group) (m : Nat) : Reply × State :=
  let w := p.a.toNat
  let ids := s.mldrs p.at' p.vd fun v x tag => v = w % 2 ^ 16 && x = m && tag = gwTag w
  (.yes, (s.writeWord (vdKey (s.moduleOf p.at') p.vd) p.at' g m 8 p.b.toNat).giveAll ids failureEntry)

/-- A notice at a member: E3 (13 R298). -/
def State.deliverNotice (s : State) (p : Packet) (g : Group) (m : Nat) : Reply × State :=
  (.yes, s.writeWord (vdKey (s.moduleOf p.at') p.vd) p.at' g m 16 p.b.toNat)

/-- RESULT (13 R287, R288, R298): a packet in kind-9 form is split at the router it stands at. One that is dropped is acked, which for
a notice or a refusal nobody awaits. -/
def execResult (k : Nat) (s : State) : Result State :=
  match s.packet k 9 with
  | none => .next s
  | some p =>
    if s.behind k p || p.malformed || s.nearAway p.at' p.vd p.a.toNat p.str then .next s
    else
      let s := (s.dropPacket k).judging p.at' p.vd p.a.toNat
      match s.groupNow p.at' p.vd p.a.toNat, p.phase with
      | none, 0 => .next (s.answer p (({} : AckSum).deny p.str Cause.fbGroup))
      | none, _ => .next (if p.port = 6 then s else s.answer p (({} : AckSum).deny p.str Cause.fbGroup))
      | some g, 0 => .next (s.split p g fun _ m s => s.deliverResult p g m)
      | some g, 1 => .next (s.split p g fun _ m s => s.deliverNotice p g m)
      | some g, _ => .next (s.split p g fun _ m s => s.deliverRefusal p g m)

/-! ### MJOIN and MCLOSE (13 R294, R300, 17 R377) -/

/-- Groups that may hold round state on a die. -/
def roundStates : Nat := 256

/-- A request to a root and the register that waits for its word: a check that fails lands at once. The tag of its word is that of an
MCLOSE, and of an MJOIN, which knows no open then, 0 (DESIGN CHOICE, log 68). -/
def State.musterControl (s : State) (rd : GReg) (w m tag close : Nat) : State :=
  let t := s.me
  if s.groupAway t.die t.vd (gwId w) then s.stallNow false else
  let s := s.judging t.die t.vd w
  match s.checkMember t.die t.vd w m with
  | .error c => s.asyncResult rd (BitVec.ofNat 64 (musterWord (4 + close) c 0 0 0 tag))
  | .ok g =>
    let id := s.nextId
    ((s.addAccess { purpose := .reply rd }).awaitReg rd).inject
      { kind := 10, vd := t.vd, gang := t.gang.toNat, src := t.die, dst := g.root, at' := t.die, a := groupField w tag m,
        b := BitVec.ofNat 64 close, acc := id }

/-- MJOIN (13 R294, 17 R377). -/
def execMjoin (rd ra rb : GReg) (s : State) : Result State :=
  issue (.mjoin rd ra rb) noCheck (fun s => s.musterControl rd ((s.reg ra).toNat % 2 ^ 16) (bits (s.reg rb) 8 0) 0 0) s

/-- MCLOSE (13 R300, 17 R377). -/
def execMclose (rd ra rb : GReg) (s : State) : Result State :=
  issue (.mclose rd ra rb) noCheck (fun s =>
    s.musterControl rd ((s.reg ra).toNat % 2 ^ 16) (bits (s.reg ra) 24 16) (bits (s.reg rb) 15 0) 1) s

/-- A router judges a packet of a group: one of a group that is absent there, or of another generation, is dropped and counted
(13 R287). -/
def State.judge (s : State) (p : Packet) (die : Nat) : Option Group × State :=
  let s := s.judging die p.vd p.a.toNat
  match s.groupNow die p.vd p.a.toNat with
  | none => (none, s.modDie die fun d => { d with stale := d.stale + 1#64 })
  | some g => (some g, s)

/-- A muster packet crosses the links of its route, and every router that receives it judges it (13 R287). -/
def State.passes (s : State) (p : Packet) : List (Nat × Nat) → Option Group × State
  | [] => s.judge p p.dst
  | h :: l =>
    let s := s.crossed [h]
    match l with
    | [] => s.judge p p.dst
    | h' :: _ =>
      match s.judge p h'.1 with
      | (none, s) => (none, s)
      | (some _, s) => s.passes p l

/-- The arrival of a muster packet at its destination, or its end on the way, once every router can read its entry. -/
def State.atMuster (s : State) (k kind : Nat) (go : Packet → Group → State → State) : Result State :=
  match s.packet k kind with
  | none => .next s
  | some p =>
    match s.route (vcOf kind) p.at' p.dst with
    | none => .next s
    | some l =>
      if s.behind k p || !s.mayApply p || (p.dst :: (l.drop 1).map (·.1)).any fun d => s.groupAway d p.vd (gwId p.a.toNat) then .next s else
      match (s.dropPacket k).passes p l with
      | (none, s) => .next s
      | (some g, s) => .next (go p g s)

/-- The root's reply (13 R293). -/
def State.musterReply (s : State) (p : Packet) (word : Nat) : State :=
  s.inject { kind := 11, vd := p.vd, gang := p.gang, src := p.dst, dst := p.src, at' := p.dst, a := p.a,
             b := BitVec.ofNat 64 word, acc := p.acc }

/-- Whether a packet is a control of one sort. -/
def State.isControl (s : State) (k close : Nat) : Bool :=
  match s.packet k 10 with | some p => p.b.toNat = close | none => false

/-- Round state made for the generation of a control, with the stale reports that have come for it (13 R294, R301). -/
def State.beginRound (s : State) (p : Packet) : State :=
  let gid := gwId p.a.toNat
  let stale := (s.die p.dst).staleSoon.getD (p.vd * 4096 + gid) 0
  (s.modDie p.dst fun d => { d with staleSoon := NMap.erase d.staleSoon (p.vd * 4096 + gid) }).setRound
    { die := p.dst, vd := p.vd, group := gid, gen := gwGen p.a.toNat, stale }

/-- MUSTER_JOIN (13 R294, R301): the first join of a generation makes its round state, in place of that of any other. Where the
die holds as many as it can, the word's tag is 0 (DESIGN CHOICE, log 68). -/
def execMusterJoin (k : Nat) (s : State) : Result State :=
  if !s.isControl k 0 then .next s
  else s.atMuster k 10 fun p _ s =>
    let w := p.a.toNat
    match s.round p.dst p.vd w with
    | some r => s.musterReply p (musterWord 4 0 0 0 0 r.openTag.toNat)
    | none =>
      let key := roundKey p.dst p.vd (gwId w)
      let s := { s with rounds := NMap.erase s.rounds key }
      if roundStates ≤ (s.rounds.filter fun r => r.2.die = p.dst).length then s.musterReply p (musterWord 4 Cause.muGroup 0 0 0 0)
      else (s.beginRound p).musterReply p (musterWord 4 0 0 0 0 0)

/-- Rounds from the open one on, ended in order: with their quorum they close, without it they fail. The last one's word
says how it ended. -/
def endRounds (g : Group) (gang : Nat) : Nat → State → Round → Nat → State × Round × Nat
  | 0, s, r, w => (s, r, w)
  | n + 1, s, r, _ =>
    let x := r.slot r.openTag.toNat
    let cause := if g.k ≤ popcount x.counted then 0 else Cause.muQuorum
    let w := musterWord 5 cause (popcount x.counted) x.folded 0 r.openTag.toNat
    let (s, r) := s.endRound r g gang cause
    endRounds g gang n s r w

/-- MUSTER_CLOSE (13 R300, 17 R377). -/
def execMusterClose (k : Nat) (s : State) : Result State :=
  if !s.isControl k 1 then .next s
  else s.atMuster k 10 fun p g s =>
    let w := p.a.toNat
    let t := gwTag w
    match s.round p.dst p.vd w with
    | none => s.musterReply p (musterWord 5 Cause.muGroup 0 0 0 t)
    | some r =>
      let d := tagDiff r.openTag.toNat t
      if 1 ≤ d ∧ d ≤ 7 then s.musterReply p (musterWord 5 0 0 0 0 t)
      else if d ≤ 0 ∧ -7 ≤ d then
        let (s, r, word) := endRounds g p.gang ((-d).toNat + 1) s r 0
        (closeRounds g p.gang roundSlots s r).musterReply p word
      else s.musterReply p (musterWord 5 Cause.muLag 0 0 0 t)

/-- MUSTER_REPLY (13 R293): the word lands in the register that waits for it. -/
def execMusterReply (k : Nat) (s : State) : Result State :=
  s.atMuster k 11 fun p _ s =>
    match NMap.find? s.accesses p.acc with
    | some a => (match a.purpose with | .reply rd => s.landResult p.acc a rd p.b | _ => s)
    | none => s

end Sys2Proof.Machine
end

