-- ==== Sys2Proof/Machine/Scalar.lean ====
section
/-!
DEFINITION. The scalar instructions of all four sequencers (16 R344 to R347, R355, 17 R383): one definition each. Results
become available 1, 3 or 18 slots after issue (16 R346). None sets a flag or traps on an operand value.
-/

namespace Sys2Proof.Machine

/-! ### Arithmetic (16 R345) -/

/-- The shift or rotate amount: bits [5:0]. -/
def amount (v : W64) : Nat := v.toNat % 64

/-- DIV: truncated towards zero; division by zero gives all ones; -2^63 / -1 gives -2^63. -/
def divS (a b : W64) : W64 := if b = 0#64 then BitVec.allOnes 64 else ofInt 64 (a.toInt.tdiv b.toInt)

/-- DIVN: truncated; division by zero gives all ones. -/
def divU (a b : W64) : W64 := if b = 0#64 then BitVec.allOnes 64 else BitVec.ofNat 64 (a.toNat / b.toNat)

/-- REM: takes the sign of ra; division by zero gives ra. -/
def remS (a b : W64) : W64 := if b = 0#64 then a else ofInt 64 (a.toInt.tmod b.toInt)

/-- REMN: division by zero gives ra. -/
def remU (a b : W64) : W64 := if b = 0#64 then a else BitVec.ofNat 64 (a.toNat % b.toNat)

/-- Leading zero bits, 0 to 64. -/
def leadingZeros (v : W64) : Nat := if v = 0#64 then 64 else 63 - Nat.log2 v.toNat

/-- Trailing zero bits, 0 to 64. -/
def trailingZeros (v : W64) : Nat := ((List.range 64).find? fun i => bit v i).getD 64

/-- One bits. -/
def oneBits (v : W64) : Nat := ((List.range 64).filter fun i => bit v i).length

/-- The condition of CMP holds: 1, else 0. -/
def cmpWord (c : Cond) (a b : W64) : W64 := if condHolds c a b then 1#64 else 0#64

/-- BFX: the field of ra at lsb, w bits wide, zero-extended (16 R355). -/
def bfxWord (a : W64) (lsb wm1 : BitVec 6) : W64 := BitVec.ofNat 64 (a.toNat / 2 ^ lsb.toNat % 2 ^ (wm1.toNat + 1))

/-- BFI: rd with the field at lsb replaced by the low bits of ra (16 R355). -/
def bfiWord (d a : W64) (lsb wm1 : BitVec 6) : W64 := setBits d lsb.toNat (wm1.toNat + 1) a.toNat

/-- A scalar instruction: its result is computed from the state at issue and available n slots later. -/
def scalarOp (i : Instr) (n : Nat) (d : GReg) (v : State → W64) : State → Result State :=
  issue i noCheck fun s => s.result n d (v s)

/-! ### The ALU family (16 R345) -/

/-- ADD. -/
def execAdd (d a b : GReg) (s : State) : Result State :=
  scalarOp (.add d a b) 1 d (fun s => s.reg a + s.reg b) s

/-- SUB. -/
def execSub (d a b : GReg) (s : State) : Result State :=
  scalarOp (.sub d a b) 1 d (fun s => s.reg a - s.reg b) s

/-- MUL. -/
def execMul (d a b : GReg) (s : State) : Result State :=
  scalarOp (.mul d a b) 3 d (fun s => s.reg a * s.reg b) s

/-- MULH. -/
def execMulh (d a b : GReg) (s : State) : Result State :=
  scalarOp (.mulh d a b) 3 d (fun s => ofInt 64 ((s.reg a).toInt * (s.reg b).toInt / 2 ^ 64)) s

/-- MULHN. -/
def execMulhn (d a b : GReg) (s : State) : Result State :=
  scalarOp (.mulhn d a b) 3 d (fun s => BitVec.ofNat 64 ((s.reg a).toNat * (s.reg b).toNat / 2 ^ 64)) s

/-- DIV. -/
def execDiv (d a b : GReg) (s : State) : Result State :=
  scalarOp (.div d a b) 18 d (fun s => divS (s.reg a) (s.reg b)) s

/-- DIVN. -/
def execDivn (d a b : GReg) (s : State) : Result State :=
  scalarOp (.divn d a b) 18 d (fun s => divU (s.reg a) (s.reg b)) s

/-- REM. -/
def execRem (d a b : GReg) (s : State) : Result State :=
  scalarOp (.rem d a b) 18 d (fun s => remS (s.reg a) (s.reg b)) s

/-- REMN. -/
def execRemn (d a b : GReg) (s : State) : Result State :=
  scalarOp (.remn d a b) 18 d (fun s => remU (s.reg a) (s.reg b)) s

/-- AND. -/
def execAnd (d a b : GReg) (s : State) : Result State :=
  scalarOp (.and d a b) 1 d (fun s => s.reg a &&& s.reg b) s

/-- OR. -/
def execOr (d a b : GReg) (s : State) : Result State :=
  scalarOp (.or d a b) 1 d (fun s => s.reg a ||| s.reg b) s

/-- XOR. -/
def execXor (d a b : GReg) (s : State) : Result State :=
  scalarOp (.xor d a b) 1 d (fun s => s.reg a ^^^ s.reg b) s

/-- ANDN. -/
def execAndn (d a b : GReg) (s : State) : Result State :=
  scalarOp (.andn d a b) 1 d (fun s => s.reg a &&& ~~~(s.reg b)) s

/-- SHL. -/
def execShl (d a b : GReg) (s : State) : Result State :=
  scalarOp (.shl d a b) 1 d (fun s => s.reg a <<< amount (s.reg b)) s

/-- SHR. -/
def execShr (d a b : GReg) (s : State) : Result State :=
  scalarOp (.shr d a b) 1 d (fun s => s.reg a >>> amount (s.reg b)) s

/-- SAR. -/
def execSar (d a b : GReg) (s : State) : Result State :=
  scalarOp (.sar d a b) 1 d (fun s => (s.reg a).sshiftRight (amount (s.reg b))) s

/-- ROTR. -/
def execRotr (d a b : GReg) (s : State) : Result State :=
  scalarOp (.rotr d a b) 1 d (fun s => (s.reg a).rotateRight (amount (s.reg b))) s

/-- MIN. -/
def execMin (d a b : GReg) (s : State) : Result State :=
  scalarOp (.min d a b) 1 d (fun s => if (s.reg b).slt (s.reg a) then s.reg b else s.reg a) s

/-- MAX. -/
def execMax (d a b : GReg) (s : State) : Result State :=
  scalarOp (.max d a b) 1 d (fun s => if (s.reg a).slt (s.reg b) then s.reg b else s.reg a) s

/-- MINN. -/
def execMinn (d a b : GReg) (s : State) : Result State :=
  scalarOp (.minn d a b) 1 d (fun s => if s.reg b < s.reg a then s.reg b else s.reg a) s

/-- MAXN. -/
def execMaxn (d a b : GReg) (s : State) : Result State :=
  scalarOp (.maxn d a b) 1 d (fun s => if s.reg a < s.reg b then s.reg b else s.reg a) s

/-- CMP. -/
def execCmp (d a b : GReg) (c : Cond) (s : State) : Result State :=
  scalarOp (.cmp d a b c) 1 d (fun s => cmpWord c (s.reg a) (s.reg b)) s

/-- CLZ. -/
def execClz (d a : GReg) (s : State) : Result State :=
  scalarOp (.clz d a) 1 d (fun s => BitVec.ofNat 64 (leadingZeros (s.reg a))) s

/-- CTZ. -/
def execCtz (d a : GReg) (s : State) : Result State :=
  scalarOp (.ctz d a) 1 d (fun s => BitVec.ofNat 64 (trailingZeros (s.reg a))) s

/-- POPC. -/
def execPopc (d a : GReg) (s : State) : Result State :=
  scalarOp (.popc d a) 1 d (fun s => BitVec.ofNat 64 (oneBits (s.reg a))) s

/-- MOV. -/
def execMov (d a : GReg) (s : State) : Result State :=
  scalarOp (.mov d a) 1 d (fun s => s.reg a) s

/-! ### Immediates (16 R347, R355, 17 R383) -/

/-- ADDI. -/
def execAddi (d a : GReg) (imm : BitVec 14) (s : State) : Result State :=
  scalarOp (.addi d a imm) 1 d (fun s => s.reg a + imm.signExtend 64) s

/-- ANDI. -/
def execAndi (d a : GReg) (imm : BitVec 14) (s : State) : Result State :=
  scalarOp (.andi d a imm) 1 d (fun s => s.reg a &&& imm.setWidth 64) s

/-- ORI. -/
def execOri (d a : GReg) (imm : BitVec 14) (s : State) : Result State :=
  scalarOp (.ori d a imm) 1 d (fun s => s.reg a ||| imm.setWidth 64) s

/-- XORI. -/
def execXori (d a : GReg) (imm : BitVec 14) (s : State) : Result State :=
  scalarOp (.xori d a imm) 1 d (fun s => s.reg a ^^^ imm.setWidth 64) s

/-- SHLI. -/
def execShli (d a : GReg) (imm : BitVec 6) (s : State) : Result State :=
  scalarOp (.shli d a imm) 1 d (fun s => s.reg a <<< imm.toNat) s

/-- SHRI. -/
def execShri (d a : GReg) (imm : BitVec 6) (s : State) : Result State :=
  scalarOp (.shri d a imm) 1 d (fun s => s.reg a >>> imm.toNat) s

/-- SARI. -/
def execSari (d a : GReg) (imm : BitVec 6) (s : State) : Result State :=
  scalarOp (.sari d a imm) 1 d (fun s => (s.reg a).sshiftRight imm.toNat) s

/-- MOVI. -/
def execMovi (d : GReg) (imm : BitVec 19) (s : State) : Result State :=
  scalarOp (.movi d imm) 1 d (fun _ => imm.signExtend 64) s

/-- MOVHI: half hw of rd is replaced. -/
def execMovhi (d : GReg) (hw : BitVec 2) (imm : BitVec 16) (s : State) : Result State :=
  scalarOp (.movhi d hw imm) 1 d (fun s => setBits (s.reg d) (16 * hw.toNat) 16 imm.toNat) s

/-- BFX. -/
def execBfx (d a : GReg) (lsb wm1 : BitVec 6) (s : State) : Result State :=
  scalarOp (.bfx d a lsb wm1) 1 d (fun s => bfxWord (s.reg a) lsb wm1) s

/-- BFI. -/
def execBfi (d a : GReg) (lsb wm1 : BitVec 6) (s : State) : Result State :=
  scalarOp (.bfi d a lsb wm1) 1 d (fun s => bfiWord (s.reg d) (s.reg a) lsb wm1) s

/-- NOP changes no state and takes one slot (04 R96). -/
def execNop (s : State) : Result State := issue .nop noCheck (fun s => s) s

end Sys2Proof.Machine
end

