-- ==== Sys2Proof/Machine/Vector.lean ====
section
/-!
DEFINITION. The vector instructions (18 R412 to R433, 17 R395, 10 R236): one definition each, over the value computations of
Flags.
-/

namespace Sys2Proof.Machine

/-! ### Shapes -/

/-- An element-wise instruction of two sources: f takes the dither and the two values. -/
def binaryOp (i : Instr) (n : Nat) (d : VDst) (a b : VSrc) (t : Ty) (r : Rnd) (f : Nat → Nat → Nat → Nat × Flags) :
    State → Result State :=
  issue i (vectorCheck i) fun s =>
    let w := tyWidth t
    let (x, s) := s.source w a
    let (y, s) := s.source w b
    let (c, s) := s.converter r
    s.deliver n d (eachElem w (elemCount w) fun e => f (dither c w e) (elemAt w x e) (elemAt w y e))

/-- An element-wise instruction of one source. -/
def unaryOp (i : Instr) (n : Nat) (d : VDst) (a : VSrc) (t : Ty) (r : Rnd) (f : Nat → Nat → Nat × Flags) :
    State → Result State :=
  issue i (vectorCheck i) fun s =>
    let w := tyWidth t
    let (x, s) := s.source w a
    let (c, s) := s.converter r
    s.deliver n d (eachElem w (elemCount w) fun e => f (dither c w e) (elemAt w x e))

/-- A fused instruction of three sources. -/
def fusedOp (i : Instr) (d : VDst) (a b c : VSrc) (t : Ty) (r : Rnd) (negProd negAdd : Bool) : State → Result State :=
  issue i (vectorCheck i) fun s =>
    let w := tyWidth t
    let (x, s) := s.source w a
    let (y, s) := s.source w b
    let (z, s) := s.source w c
    let (k, s) := s.converter r
    s.deliver 6 d (eachElem w (elemCount w) fun e =>
      fusedValue t r (dither k w e) negProd negAdd (elemAt w x e) (elemAt w y e) (elemAt w z e))

/-- A bitwise instruction of two sources. -/
def bitOp2 (i : Instr) (d : VDst) (a b : VSrc) (t : Ty) (f : Entry → Entry → Entry) : State → Result State :=
  issue i (vectorCheck i) fun s =>
    let (x, s) := s.source (tyWidth t) a
    let (y, s) := s.source (tyWidth t) b
    s.deliver 2 d (f x y, 0#9)

/-- A bitwise instruction of one source. -/
def bitOp1 (i : Instr) (d : VDst) (a : VSrc) (t : Ty) (f : Entry → Entry) : State → Result State :=
  issue i (vectorCheck i) fun s =>
    let (x, s) := s.source (tyWidth t) a
    s.deliver 2 d (f x, 0#9)

/-! ### VBIN (18 R420, R421) -/

/-- VADD. -/
def execVadd (d : VDst) (a b : VSrc) (t : Ty) (r : Rnd) (s : State) : Result State :=
  binaryOp (.vadd d a b t r) 4 d a b t r (addValue t r) s

/-- VSUB. -/
def execVsub (d : VDst) (a b : VSrc) (t : Ty) (r : Rnd) (s : State) : Result State :=
  binaryOp (.vsub d a b t r) 4 d a b t r (subValue t r) s

/-- VMUL. -/
def execVmul (d : VDst) (a b : VSrc) (t : Ty) (r : Rnd) (s : State) : Result State :=
  binaryOp (.vmul d a b t r) 5 d a b t r (mulValue t r) s

/-- VMIN: sets no flag. -/
def execVmin (d : VDst) (a b : VSrc) (t : Ty) (s : State) : Result State :=
  binaryOp (.vmin d a b t) 4 d a b t .rne (fun _ x y => (pickValue t false x y, 0#9)) s

/-- VMAX: sets no flag. -/
def execVmax (d : VDst) (a b : VSrc) (t : Ty) (s : State) : Result State :=
  binaryOp (.vmax d a b t) 4 d a b t .rne (fun _ x y => (pickValue t true x y, 0#9)) s

/-- VAND. -/
def execVand (d : VDst) (a b : VSrc) (t : Ty) (s : State) : Result State :=
  bitOp2 (.vand d a b t) d a b t (fun x y => x &&& y) s

/-- VOR. -/
def execVor (d : VDst) (a b : VSrc) (t : Ty) (s : State) : Result State :=
  bitOp2 (.vor d a b t) d a b t (fun x y => x ||| y) s

/-- VXOR. -/
def execVxor (d : VDst) (a b : VSrc) (t : Ty) (s : State) : Result State :=
  bitOp2 (.vxor d a b t) d a b t (fun x y => x ^^^ y) s

/-- VSHL. -/
def execVshl (d : VDst) (a b : VSrc) (t : Ty) (s : State) : Result State :=
  binaryOp (.vshl d a b t) 4 d a b t .rne (fun _ x y => (shiftValue t true x y, 0#9)) s

/-- VSHR. -/
def execVshr (d : VDst) (a b : VSrc) (t : Ty) (s : State) : Result State :=
  binaryOp (.vshr d a b t) 4 d a b t .rne (fun _ x y => (shiftValue t false x y, 0#9)) s

/-- VCMP. -/
def execVcmp (c : VCond) (d : VDst) (a b : VSrc) (t : Ty) (s : State) : Result State :=
  binaryOp (.vcmp c d a b t) 4 d a b t .rne (fun _ x y => (cmpValue t c x y, 0#9)) s

/-! ### VUN (18 R418, R419) -/

/-- VABS. -/
def execVabs (d : VDst) (a : VSrc) (t : Ty) (s : State) : Result State :=
  unaryOp (.vabs d a t) 4 d a t .rne (fun _ x => absValue t x) s

/-- VNEG. -/
def execVneg (d : VDst) (a : VSrc) (t : Ty) (s : State) : Result State :=
  unaryOp (.vneg d a t) 4 d a t .rne (fun _ x => negValue t x) s

/-- VNOT. -/
def execVnot (d : VDst) (a : VSrc) (t : Ty) (s : State) : Result State :=
  bitOp1 (.vnot d a t) d a t (fun x => ~~~x) s

/-- VMOV. -/
def execVmov (d : VDst) (a : VSrc) (t : Ty) (s : State) : Result State :=
  bitOp1 (.vmov d a t) d a t (fun x => x) s

/-- VEXP. -/
def execVexp (d : VDst) (a : VSrc) (t : Ty) (r : Rnd) (s : State) : Result State :=
  unaryOp (.vexp d a t r) 16 d a t r (funValue funExp t r) s

/-- VLOG. -/
def execVlog (d : VDst) (a : VSrc) (t : Ty) (r : Rnd) (s : State) : Result State :=
  unaryOp (.vlog d a t r) 16 d a t r (funValue funLog t r) s

/-- VRCP. -/
def execVrcp (d : VDst) (a : VSrc) (t : Ty) (r : Rnd) (s : State) : Result State :=
  unaryOp (.vrcp d a t r) 12 d a t r (funValue funRcp t r) s

/-- VRSQ. -/
def execVrsq (d : VDst) (a : VSrc) (t : Ty) (r : Rnd) (s : State) : Result State :=
  unaryOp (.vrsq d a t r) 12 d a t r (funValue funRsq t r) s

/-- VSQRT. -/
def execVsqrt (d : VDst) (a : VSrc) (t : Ty) (r : Rnd) (s : State) : Result State :=
  unaryOp (.vsqrt d a t r) 14 d a t r (funValue funSqrt t r) s

/-- VTANH. -/
def execVtanh (d : VDst) (a : VSrc) (t : Ty) (r : Rnd) (s : State) : Result State :=
  unaryOp (.vtanh d a t r) 16 d a t r (funValue funTanh t r) s

/-! ### Fused forms, select (18 R425, R433) -/

/-- VFMA. -/
def execVfma (d : VDst) (a b c : VSrc) (t : Ty) (r : Rnd) (s : State) : Result State :=
  fusedOp (.vfma d a b c t r) d a b c t r false false s

/-- VFMS. -/
def execVfms (d : VDst) (a b c : VSrc) (t : Ty) (r : Rnd) (s : State) : Result State :=
  fusedOp (.vfms d a b c t r) d a b c t r false true s

/-- VFNMA. -/
def execVfnma (d : VDst) (a b c : VSrc) (t : Ty) (r : Rnd) (s : State) : Result State :=
  fusedOp (.vfnma d a b c t r) d a b c t r true false s

/-- VSEL. -/
def execVsel (d : VDst) (a b c : VSrc) (t : Ty) (s : State) : Result State :=
  issue (.vsel d a b c t) (vectorCheck (.vsel d a b c t)) (fun s =>
    let (x, s) := s.source (tyWidth t) a
    let (y, s) := s.source (tyWidth t) b
    let (m, s) := s.source (tyWidth t) c
    s.deliver 2 d ((x &&& m) ||| (y &&& ~~~m), 0#9)) s

/-! ### Conversions (18 R423, R424, R430, R431) -/

/-- VCVT. -/
def execVcvt (d : VDst) (a : VSrc) (dst src : Ty) (r : Rnd) (s : State) : Result State :=
  issue (.vcvt d a dst src r) (vectorCheck (.vcvt d a dst src r)) (fun s =>
    let ws := tyWidth src
    let wd := tyWidth dst
    let (x, s) := s.source ws a
    let (c, s) := s.converter r
    s.deliver 6 d (eachElem wd (min (elemCount wd) (elemCount ws)) fun e =>
      convert src dst r (dither c wd e) (elemAt ws x e))) s

/-- VQNT: it writes fd and then fb at its issue slot. -/
def execVqnt (d a b : FVec) (g : BitVec 4) (t : Ty) (r : Rnd) (s : State) : Result State :=
  issue (.vqnt d a b g t r) noCheck (fun s =>
    let x := s.me.vec a
    let q := (s.breg g).toNat % 512
    let (c, s) := s.converter r
    let blocks := (List.range 4).map fun k =>
      quantBlock t q r (fun j => ditherU c (32 * k + j) 0) ((List.range 32).map fun j => f32val (lane x (32 * k + j)))
    let elems := blocks.foldr (fun q acc => q.1 % 2 ^ blockElemBits t + acc * 2 ^ blockElemBits t) 0
    let sides := blocks.foldr (fun q acc => q.2.1 % 2 ^ 32 + acc * 2 ^ 32) 0
    ((s.write (.vec d (BitVec.ofNat 4096 elems))).write (.vec b (BitVec.ofNat 4096 sides))).write
      (.flags (blocks.foldl (fun f q => f ||| q.2.2) 0#9))) s

/-- VDQ. -/
def execVdq (d : VDst) (a b : VSrc) (t : Ty) (r : Rnd) (s : State) : Result State :=
  issue (.vdq d a b t r) (vectorCheck (.vdq d a b t r)) (fun s =>
    let (x, s) := s.source (tyWidth t) a
    let (y, s) := s.source 32 b
    let (c, s) := s.converter r
    let (vs, blk) := blockRow t ((List.range 4).map fun k =>
      blockJoin t (x.toNat / 2 ^ (blockElemBits t * k)) (lane y k).toNat)
    let (row, f) := eachElem 32 128 fun e => fmtF32.round r (dither c 32 e) (vs.getD e .nan)
    s.deliver 8 d (row, f ||| flagIf blk flBLK)) s

/-! ### Reductions and ranking (18 R427, R432, 10 R236) -/

/-- VRED. -/
def execVred (op : RedOp) (d : VDst) (a : VSrc) (t : Ty) (r : Rnd) (s : State) : Result State :=
  issue (.vred op d a t r) (vectorCheck (.vred op d a t r)) (fun s =>
    let w := tyWidth t
    let (x, s) := s.source w a
    let (c, s) := s.converter r
    let n := elemCount w
    let (out, f) := scan op t r (fun _ => dither c w 0) ((List.range n).map (elemAt w x))
    let (v, g) := out.getLastD (0, 0#9)
    s.deliver 10 d (ofElems w n fun _ => v, f ||| g)) s

/-- VSCAN. -/
def execVscan (op : RedOp) (d : VDst) (a : VSrc) (t : Ty) (r : Rnd) (s : State) : Result State :=
  issue (.vscan op d a t r) (vectorCheck (.vscan op d a t r)) (fun s =>
    let w := tyWidth t
    let (x, s) := s.source w a
    let (c, s) := s.converter r
    let n := elemCount w
    let (out, f) := scan op t r (dither c w) ((List.range n).map (elemAt w x))
    s.deliver 14 d (BitVec.ofNat 4096 (out.foldr (fun v acc => v.1 % 2 ^ w + acc * 2 ^ w) 0),
      out.foldl (fun g v => g ||| v.2) f)) s

/-- VMAXI. -/
def execVmaxi (d : VDst) (a : VSrc) (t : Ty) (s : State) : Result State :=
  issue (.vmaxi d a t) (vectorCheck (.vmaxi d a t)) (fun s =>
    let w := tyWidth t
    let (x, s) := s.source w a
    let (i, v) := largest t ((List.range (elemCount w)).map (elemAt w x))
    s.deliver 10 d (BitVec.ofNat 4096 (i + v * 2 ^ 32), 0#9)) s

/-- SELK: it writes at its issue slot. -/
def execSelk (zi zv zs : BitVec 3) (g : BitVec 4) (t : Ty) (s : State) : Result State :=
  issue (.selk zi zv zs g t) noCheck (fun s =>
    let m := min (s.breg g).toNat 128
    let cols := (List.range 128).map fun j => ranked t ((List.range 128).map fun i => (lane (s.me.row zs i) j).toNat)
    let row (f : Nat × Nat → Nat) (k : Nat) : Entry := ofElems 32 128 fun j => f ((cols.getD j []).getD k (0, 0))
    (s.write (.whole zi ((List.range m).map (row (·.1))))).write (.whole zv ((List.range m).map (row (·.2))))) s

/-! ### Moves (18 R422, R426, R428, R429) -/

/-- VPERM. -/
def execVperm (d : VDst) (a b : VSrc) (s : State) : Result State :=
  issue (.vperm d a b) (vectorCheck (.vperm d a b)) (fun s =>
    let (x, s) := s.source 32 a
    let (y, s) := s.source 32 b
    s.deliver 4 d (ofLanes fun i => if bit (lane y i) 31 then 0#32 else lane x (bits (lane y i) 6 0), 0#9)) s

/-- VBCST. -/
def execVbcst (d : VDst) (a : VSrc) (l : BitVec 7) (s : State) : Result State :=
  issue (.vbcst d a l) (vectorCheck (.vbcst d a l)) (fun s =>
    let (x, s) := s.source 32 a
    s.deliver 2 d (ofLanes fun _ => lane x l.toNat, 0#9)) s

/-- VLUT. -/
def execVlut (d : VDst) (a b : VSrc) (t : Ty) (r : Rnd) (s : State) : Result State :=
  issue (.vlut d a b t r) (vectorCheck (.vlut d a b t r)) (fun s =>
    let (x, s) := s.source 32 a
    let (y, s) := s.source 32 b
    let (c, s) := s.converter r
    s.deliver 8 d (eachElem 32 128 fun e => lutValue t r (dither c 32 e) y (elemAt 32 x e))) s

/-- VPOP. -/
def execVpop (d : FVec) (q : BitVec 2) (s : State) : Result State :=
  issue (.vpop d q) (vectorCheck (.vpop d q)) (fun s =>
    let (x, s) := s.source 32 (.qv q)
    s.later 1 (.vec d) x) s

/-- VPUSH. -/
def execVpush (q : BitVec 2) (a : PushSrc) (s : State) : Result State :=
  issue (.vpush q a) noCheck (fun s =>
    s.later 1 (.qs q) (match a with | .vec f => s.me.vec f | .bcast g => broadcast 32 (s.breg g))) s

/-! ### Random (05 R119 to R121, 17 R395, 18 R417) -/

/-- RNGV. -/
def execRngv (d : VDst) (t : Ty) (s : State) : Result State :=
  issue (.rngv d t) noCheck (fun s =>
    let (key, ctr, s) := s.drawRow
    s.deliver 20 d (eachElem 32 128 fun j =>
      let w := philoxLane key ctr j
      if t = .n32 then (w, 0#9) else fmtF32.round .rne 0 (.fin false (w / 2 ^ 8) (2 ^ 24)))) s

/-- SMPL. -/
def execSmpl (d : VDst) (a : VSrc) (g : BitVec 4) (s : State) : Result State :=
  issue (.smpl d a g) (vectorCheck (.smpl d a g)) (fun s =>
    let (x, s) := s.source 32 a
    let (key, ctr, s) := s.drawRow
    let (i, f) := smplIndex key ctr x (lane ((s.breg g).setWidth 4096) 0)
    s.deliver 28 d (ofLanes fun _ => BitVec.ofNat 32 i, f)) s

end Sys2Proof.Machine
end

