-- ==== Sys2Proof/Machine/Dispatch.lean ====
section
/-!
DEFINITION. One arm for every row of the opcode table: its meaning.
-/

namespace Sys2Proof.Machine

def exec (i : Instr) (s : State) : Host.Outcome State Fault Refusal :=
  match i with
  | .nop => Sys2Proof.Machine.execNop s
  | .grd x0 x1 x2 x3 => Sys2Proof.Machine.execGrd x0 x1 x2 x3 s
  | .br x0 x1 => Sys2Proof.Machine.execBr x0 x1 s
  | .call x0 x1 => Sys2Proof.Machine.execCall x0 x1 s
  | .jr x0 => Sys2Proof.Machine.execJr x0 s
  | .ret => Sys2Proof.Machine.execRet s
  | .loop x0 x1 x2 => Sys2Proof.Machine.execLoop x0 x1 x2 s
  | .add x0 x1 x2 => Sys2Proof.Machine.execAdd x0 x1 x2 s
  | .sub x0 x1 x2 => Sys2Proof.Machine.execSub x0 x1 x2 s
  | .mul x0 x1 x2 => Sys2Proof.Machine.execMul x0 x1 x2 s
  | .mulh x0 x1 x2 => Sys2Proof.Machine.execMulh x0 x1 x2 s
  | .mulhn x0 x1 x2 => Sys2Proof.Machine.execMulhn x0 x1 x2 s
  | .div x0 x1 x2 => Sys2Proof.Machine.execDiv x0 x1 x2 s
  | .divn x0 x1 x2 => Sys2Proof.Machine.execDivn x0 x1 x2 s
  | .rem x0 x1 x2 => Sys2Proof.Machine.execRem x0 x1 x2 s
  | .remn x0 x1 x2 => Sys2Proof.Machine.execRemn x0 x1 x2 s
  | .and x0 x1 x2 => Sys2Proof.Machine.execAnd x0 x1 x2 s
  | .or x0 x1 x2 => Sys2Proof.Machine.execOr x0 x1 x2 s
  | .xor x0 x1 x2 => Sys2Proof.Machine.execXor x0 x1 x2 s
  | .andn x0 x1 x2 => Sys2Proof.Machine.execAndn x0 x1 x2 s
  | .shl x0 x1 x2 => Sys2Proof.Machine.execShl x0 x1 x2 s
  | .shr x0 x1 x2 => Sys2Proof.Machine.execShr x0 x1 x2 s
  | .sar x0 x1 x2 => Sys2Proof.Machine.execSar x0 x1 x2 s
  | .rotr x0 x1 x2 => Sys2Proof.Machine.execRotr x0 x1 x2 s
  | .min x0 x1 x2 => Sys2Proof.Machine.execMin x0 x1 x2 s
  | .max x0 x1 x2 => Sys2Proof.Machine.execMax x0 x1 x2 s
  | .minn x0 x1 x2 => Sys2Proof.Machine.execMinn x0 x1 x2 s
  | .maxn x0 x1 x2 => Sys2Proof.Machine.execMaxn x0 x1 x2 s
  | .cmp x0 x1 x2 x3 => Sys2Proof.Machine.execCmp x0 x1 x2 x3 s
  | .clz x0 x1 => Sys2Proof.Machine.execClz x0 x1 s
  | .ctz x0 x1 => Sys2Proof.Machine.execCtz x0 x1 s
  | .popc x0 x1 => Sys2Proof.Machine.execPopc x0 x1 s
  | .mov x0 x1 => Sys2Proof.Machine.execMov x0 x1 s
  | .addi x0 x1 x2 => Sys2Proof.Machine.execAddi x0 x1 x2 s
  | .andi x0 x1 x2 => Sys2Proof.Machine.execAndi x0 x1 x2 s
  | .ori x0 x1 x2 => Sys2Proof.Machine.execOri x0 x1 x2 s
  | .xori x0 x1 x2 => Sys2Proof.Machine.execXori x0 x1 x2 s
  | .shli x0 x1 x2 => Sys2Proof.Machine.execShli x0 x1 x2 s
  | .shri x0 x1 x2 => Sys2Proof.Machine.execShri x0 x1 x2 s
  | .sari x0 x1 x2 => Sys2Proof.Machine.execSari x0 x1 x2 s
  | .movi x0 x1 => Sys2Proof.Machine.execMovi x0 x1 s
  | .movhi x0 x1 x2 => Sys2Proof.Machine.execMovhi x0 x1 x2 s
  | .bfx x0 x1 x2 x3 => Sys2Proof.Machine.execBfx x0 x1 x2 x3 s
  | .bfi x0 x1 x2 x3 => Sys2Proof.Machine.execBfi x0 x1 x2 x3 s
  | .fork x0 x1 x2 x3 => Sys2Proof.Machine.execFork x0 x1 x2 x3 s
  | .rdv => Sys2Proof.Machine.execRdv s
  | .sigtImm x0 x1 => Sys2Proof.Machine.execSigtImm x0 x1 s
  | .sigtReg x0 x1 => Sys2Proof.Machine.execSigtReg x0 x1 s
  | .waittImm x0 x1 => Sys2Proof.Machine.execWaittImm x0 x1 s
  | .waittReg x0 x1 => Sys2Proof.Machine.execWaittReg x0 x1 s
  | .waitc x0 x1 => Sys2Proof.Machine.execWaitc x0 x1 s
  | .drain x0 => Sys2Proof.Machine.execDrain x0 s
  | .fence x0 => Sys2Proof.Machine.execFence x0 s
  | .fenceAcq x0 => Sys2Proof.Machine.execFenceAcq x0 s
  | .fenceRel x0 => Sys2Proof.Machine.execFenceRel x0 s
  | .fencex x0 x1 x2 => Sys2Proof.Machine.execFencex x0 x1 x2 s
  | .bar x0 x1 => Sys2Proof.Machine.execBar x0 x1 s
  | .waitv x0 x1 x2 x3 x4 => Sys2Proof.Machine.execWaitv x0 x1 x2 x3 x4 s
  | .waitvPoll x0 => Sys2Proof.Machine.execWaitvPoll x0 s
  | .yield => Sys2Proof.Machine.execYield s
  | .spawn x0 x1 x2 => Sys2Proof.Machine.execSpawn x0 x1 x2 s
  | .exit => Sys2Proof.Machine.execExit s
  | .trap x0 x1 => Sys2Proof.Machine.execTrap x0 x1 s
  | .tret => Sys2Proof.Machine.execTret s
  | .csrr x0 x1 => Sys2Proof.Machine.execCsrr x0 x1 s
  | .csrw x0 x1 x2 => Sys2Proof.Machine.execCsrw x0 x1 x2 s
  | .csrs x0 x1 x2 => Sys2Proof.Machine.execCsrs x0 x1 x2 s
  | .csrc x0 x1 x2 => Sys2Proof.Machine.execCsrc x0 x1 x2 s
  | .tlbiVa x0 x1 x2 => Sys2Proof.Machine.execTlbiVa x0 x1 x2 s
  | .tlbiAsid x0 x1 => Sys2Proof.Machine.execTlbiAsid x0 x1 s
  | .tlbiVd x0 => Sys2Proof.Machine.execTlbiVd x0 s
  | .tlbiIpa x0 x1 x2 => Sys2Proof.Machine.execTlbiIpa x0 x1 x2 s
  | .tlbiS2Vd x0 x1 => Sys2Proof.Machine.execTlbiS2Vd x0 x1 s
  | .ld x0 x1 x2 x3 => Sys2Proof.Machine.execLd x0 x1 x2 x3 s
  | .ldLong x0 x1 x2 x3 x4 => Sys2Proof.Machine.execLdLong x0 x1 x2 x3 x4 s
  | .st x0 x1 x2 x3 => Sys2Proof.Machine.execSt x0 x1 x2 x3 s
  | .stLong x0 x1 x2 x3 x4 => Sys2Proof.Machine.execStLong x0 x1 x2 x3 x4 s
  | .ldq x0 x1 x2 => Sys2Proof.Machine.execLdq x0 x1 x2 s
  | .stq x0 x1 x2 => Sys2Proof.Machine.execStq x0 x1 x2 s
  | .atomSwap x0 x1 x2 x3 x4 x5 => Sys2Proof.Machine.execAtomSwap x0 x1 x2 x3 x4 x5 s
  | .atomCas x0 x1 x2 x3 x4 x5 x6 => Sys2Proof.Machine.execAtomCas x0 x1 x2 x3 x4 x5 x6 s
  | .atomAdd x0 x1 x2 x3 x4 x5 => Sys2Proof.Machine.execAtomAdd x0 x1 x2 x3 x4 x5 s
  | .atomAnd x0 x1 x2 x3 x4 x5 => Sys2Proof.Machine.execAtomAnd x0 x1 x2 x3 x4 x5 s
  | .atomOr x0 x1 x2 x3 x4 x5 => Sys2Proof.Machine.execAtomOr x0 x1 x2 x3 x4 x5 s
  | .atomXor x0 x1 x2 x3 x4 x5 => Sys2Proof.Machine.execAtomXor x0 x1 x2 x3 x4 x5 s
  | .atomMin x0 x1 x2 x3 x4 x5 => Sys2Proof.Machine.execAtomMin x0 x1 x2 x3 x4 x5 s
  | .atomMax x0 x1 x2 x3 x4 x5 => Sys2Proof.Machine.execAtomMax x0 x1 x2 x3 x4 x5 s
  | .atomMinn x0 x1 x2 x3 x4 x5 => Sys2Proof.Machine.execAtomMinn x0 x1 x2 x3 x4 x5 s
  | .atomMaxn x0 x1 x2 x3 x4 x5 => Sys2Proof.Machine.execAtomMaxn x0 x1 x2 x3 x4 x5 s
  | .atomFadd x0 x1 x2 x3 x4 => Sys2Proof.Machine.execAtomFadd x0 x1 x2 x3 x4 s
  | .ldr x0 x1 x2 => Sys2Proof.Machine.execLdr x0 x1 x2 s
  | .str x0 x1 x2 => Sys2Proof.Machine.execStr x0 x1 x2 s
  | .mst x0 x1 x2 x3 x4 => Sys2Proof.Machine.execMst x0 x1 x2 x3 x4 s
  | .mldr x0 x1 x2 x3 x4 => Sys2Proof.Machine.execMldr x0 x1 x2 x3 x4 s
  | .pref x0 x1 => Sys2Proof.Machine.execPref x0 x1 s
  | .prefTree x0 x1 => Sys2Proof.Machine.execPrefTree x0 x1 s
  | .bellset x0 x1 x2 x3 => Sys2Proof.Machine.execBellset x0 x1 x2 x3 s
  | .bellclr x0 => Sys2Proof.Machine.execBellclr x0 s
  | .bellqry x0 x1 => Sys2Proof.Machine.execBellqry x0 x1 s
  | .talloc x0 x1 x2 x3 x4 => Sys2Proof.Machine.execTalloc x0 x1 x2 x3 x4 s
  | .tfree x0 => Sys2Proof.Machine.execTfree x0 s
  | .trd x0 x1 x2 x3 => Sys2Proof.Machine.execTrd x0 x1 x2 x3 s
  | .twr x0 x1 x2 x3 => Sys2Proof.Machine.execTwr x0 x1 x2 x3 s
  | .tzero x0 x1 x2 x3 => Sys2Proof.Machine.execTzero x0 x1 x2 x3 s
  | .tdraft x0 x1 x2 => Sys2Proof.Machine.execTdraft x0 x1 x2 s
  | .tcommit x0 x1 x2 => Sys2Proof.Machine.execTcommit x0 x1 x2 s
  | .nest x0 x1 x2 x3 x4 => Sys2Proof.Machine.execNest x0 x1 x2 x3 x4 s
  | .nestEvent x0 x1 x2 => Sys2Proof.Machine.execNestEvent x0 x1 x2 s
  | .copy x0 x1 x2 x3 x4 x5 x6 => Sys2Proof.Machine.execCopy x0 x1 x2 x3 x4 x5 x6 s
  | .copyw x0 x1 x2 x3 x4 x5 x6 x7 => Sys2Proof.Machine.execCopyw x0 x1 x2 x3 x4 x5 x6 x7 s
  | .copyg x0 x1 x2 x3 x4 x5 x6 x7 => Sys2Proof.Machine.execCopyg x0 x1 x2 x3 x4 x5 x6 x7 s
  | .copys x0 x1 x2 x3 x4 x5 x6 x7 => Sys2Proof.Machine.execCopys x0 x1 x2 x3 x4 x5 x6 x7 s
  | .copyr x0 x1 x2 x3 x4 x5 x6 x7 x8 => Sys2Proof.Machine.execCopyr x0 x1 x2 x3 x4 x5 x6 x7 x8 s
  | .wbf x0 x1 x2 x3 x4 x5 => Sys2Proof.Machine.execWbf x0 x1 x2 x3 x4 x5 s
  | .mjoin x0 x1 x2 => Sys2Proof.Machine.execMjoin x0 x1 x2 s
  | .mctb x0 x1 x2 => Sys2Proof.Machine.execMctb x0 x1 x2 s
  | .mclose x0 x1 x2 => Sys2Proof.Machine.execMclose x0 x1 x2 s
  | .wacq x0 x1 => Sys2Proof.Machine.execWacq x0 x1 s
  | .wrel x0 x1 => Sys2Proof.Machine.execWrel x0 x1 s
  | .rngadv x0 x1 => Sys2Proof.Machine.execRngadv x0 x1 s
  | .wld x0 x1 => Sys2Proof.Machine.execWld x0 x1 s
  | .mma x0 x1 x2 x3 x4 => Sys2Proof.Machine.execMma x0 x1 x2 x3 x4 s
  | .mmat x0 x1 x2 x3 x4 x5 x6 => Sys2Proof.Machine.execMmat x0 x1 x2 x3 x4 x5 x6 s
  | .mzero x0 => Sys2Proof.Machine.execMzero x0 s
  | .vadd x0 x1 x2 x3 x4 => Sys2Proof.Machine.execVadd x0 x1 x2 x3 x4 s
  | .vsub x0 x1 x2 x3 x4 => Sys2Proof.Machine.execVsub x0 x1 x2 x3 x4 s
  | .vmul x0 x1 x2 x3 x4 => Sys2Proof.Machine.execVmul x0 x1 x2 x3 x4 s
  | .vmin x0 x1 x2 x3 => Sys2Proof.Machine.execVmin x0 x1 x2 x3 s
  | .vmax x0 x1 x2 x3 => Sys2Proof.Machine.execVmax x0 x1 x2 x3 s
  | .vand x0 x1 x2 x3 => Sys2Proof.Machine.execVand x0 x1 x2 x3 s
  | .vor x0 x1 x2 x3 => Sys2Proof.Machine.execVor x0 x1 x2 x3 s
  | .vxor x0 x1 x2 x3 => Sys2Proof.Machine.execVxor x0 x1 x2 x3 s
  | .vshl x0 x1 x2 x3 => Sys2Proof.Machine.execVshl x0 x1 x2 x3 s
  | .vshr x0 x1 x2 x3 => Sys2Proof.Machine.execVshr x0 x1 x2 x3 s
  | .vcmp x0 x1 x2 x3 x4 => Sys2Proof.Machine.execVcmp x0 x1 x2 x3 x4 s
  | .vabs x0 x1 x2 => Sys2Proof.Machine.execVabs x0 x1 x2 s
  | .vneg x0 x1 x2 => Sys2Proof.Machine.execVneg x0 x1 x2 s
  | .vnot x0 x1 x2 => Sys2Proof.Machine.execVnot x0 x1 x2 s
  | .vmov x0 x1 x2 => Sys2Proof.Machine.execVmov x0 x1 x2 s
  | .vexp x0 x1 x2 x3 => Sys2Proof.Machine.execVexp x0 x1 x2 x3 s
  | .vlog x0 x1 x2 x3 => Sys2Proof.Machine.execVlog x0 x1 x2 x3 s
  | .vrcp x0 x1 x2 x3 => Sys2Proof.Machine.execVrcp x0 x1 x2 x3 s
  | .vrsq x0 x1 x2 x3 => Sys2Proof.Machine.execVrsq x0 x1 x2 x3 s
  | .vsqrt x0 x1 x2 x3 => Sys2Proof.Machine.execVsqrt x0 x1 x2 x3 s
  | .vtanh x0 x1 x2 x3 => Sys2Proof.Machine.execVtanh x0 x1 x2 x3 s
  | .vfma x0 x1 x2 x3 x4 x5 => Sys2Proof.Machine.execVfma x0 x1 x2 x3 x4 x5 s
  | .vfms x0 x1 x2 x3 x4 x5 => Sys2Proof.Machine.execVfms x0 x1 x2 x3 x4 x5 s
  | .vfnma x0 x1 x2 x3 x4 x5 => Sys2Proof.Machine.execVfnma x0 x1 x2 x3 x4 x5 s
  | .vsel x0 x1 x2 x3 x4 => Sys2Proof.Machine.execVsel x0 x1 x2 x3 x4 s
  | .vcvt x0 x1 x2 x3 x4 => Sys2Proof.Machine.execVcvt x0 x1 x2 x3 x4 s
  | .vqnt x0 x1 x2 x3 x4 x5 => Sys2Proof.Machine.execVqnt x0 x1 x2 x3 x4 x5 s
  | .vdq x0 x1 x2 x3 x4 => Sys2Proof.Machine.execVdq x0 x1 x2 x3 x4 s
  | .vred x0 x1 x2 x3 x4 => Sys2Proof.Machine.execVred x0 x1 x2 x3 x4 s
  | .vscan x0 x1 x2 x3 x4 => Sys2Proof.Machine.execVscan x0 x1 x2 x3 x4 s
  | .vmaxi x0 x1 x2 => Sys2Proof.Machine.execVmaxi x0 x1 x2 s
  | .vperm x0 x1 x2 => Sys2Proof.Machine.execVperm x0 x1 x2 s
  | .vbcst x0 x1 x2 => Sys2Proof.Machine.execVbcst x0 x1 x2 s
  | .vlut x0 x1 x2 x3 x4 => Sys2Proof.Machine.execVlut x0 x1 x2 x3 x4 s
  | .selk x0 x1 x2 x3 x4 => Sys2Proof.Machine.execSelk x0 x1 x2 x3 x4 s
  | .rngv x0 x1 => Sys2Proof.Machine.execRngv x0 x1 s
  | .smpl x0 x1 x2 => Sys2Proof.Machine.execSmpl x0 x1 x2 s
  | .vpop x0 x1 => Sys2Proof.Machine.execVpop x0 x1 s
  | .vpush x0 x1 => Sys2Proof.Machine.execVpush x0 x1 s
  | .delayLineLanding x0 x1 => Sys2Proof.Machine.execDelayLineLanding x0 x1 s
  | .mmaAccumulatorRead x0 => Sys2Proof.Machine.execMmaAccumulatorRead x0 s
  | .wldPlaneSwitch x0 => Sys2Proof.Machine.execWldPlaneSwitch x0 s
  | .asyncResultLanding x0 => Sys2Proof.Machine.execAsyncResultLanding x0 s
  | .queueEntryArrival x0 => Sys2Proof.Machine.execQueueEntryArrival x0 s
  | .fillPortWrite x0 => Sys2Proof.Machine.execFillPortWrite x0 s
  | .streamDeadlock x0 => Sys2Proof.Machine.execStreamDeadlock x0 s
  | .homeWriteApply x0 x1 x2 => Sys2Proof.Machine.execHomeWriteApply x0 x1 x2 s
  | .runawayWindowEnd x0 => Sys2Proof.Machine.execRunawayWindowEnd x0 s
  | .homeReadApply x0 x1 x2 => Sys2Proof.Machine.execHomeReadApply x0 x1 x2 s
  | .subtreeRebuild x0 x1 x2 => Sys2Proof.Machine.execSubtreeRebuild x0 x1 x2 s
  | .copyLineTransfer x0 x1 x2 => Sys2Proof.Machine.execCopyLineTransfer x0 x1 x2 s
  | .copyCompletion x0 => Sys2Proof.Machine.execCopyCompletion x0 s
  | .tlbWalk x0 => Sys2Proof.Machine.execTlbWalk x0 s
  | .firstTouchPoolRefill x0 x1 => Sys2Proof.Machine.execFirstTouchPoolRefill x0 x1 s
  | .microsecondStep x0 => Sys2Proof.Machine.execMicrosecondStep x0 s
  | .grazeWindowEnd x0 => Sys2Proof.Machine.execGrazeWindowEnd x0 s
  | .droverDecision x0 x1 => Sys2Proof.Machine.execDroverDecision x0 x1 s
  | .stopPointReached x0 x1 => Sys2Proof.Machine.execStopPointReached x0 x1 s
  | .forcedStop x0 x1 => Sys2Proof.Machine.execForcedStop x0 x1 s
  | .slotSwitch x0 => Sys2Proof.Machine.execSlotSwitch x0 s
  | .taskPark x0 => Sys2Proof.Machine.execTaskPark x0 s
  | .taskRestore x0 x1 => Sys2Proof.Machine.execTaskRestore x0 x1 s
  | .heldTaskPark x0 => Sys2Proof.Machine.execHeldTaskPark x0 s
  | .taskStarving x0 => Sys2Proof.Machine.execTaskStarving x0 s
  | .partitionChange x0 x1 x2 x3 => Sys2Proof.Machine.execPartitionChange x0 x1 x2 x3 s
  | .trapEntry x0 => Sys2Proof.Machine.execTrapEntry x0 s
  | .arith x0 => Sys2Proof.Machine.execArith x0 s
  | .correctedErrorFreeze x0 => Sys2Proof.Machine.execCorrectedErrorFreeze x0 s
  | .freezeEnd x0 => Sys2Proof.Machine.execFreezeEnd x0 s
  | .flitReplay x0 x1 => Sys2Proof.Machine.execFlitReplay x0 x1 s
  | .readRequest x0 x1 => Sys2Proof.Machine.execReadRequest x0 x1 s
  | .readReply x0 => Sys2Proof.Machine.execReadReply x0 s
  | .remoteWrite x0 x1 => Sys2Proof.Machine.execRemoteWrite x0 x1 s
  | .writeAck x0 => Sys2Proof.Machine.execWriteAck x0 s
  | .atomicRequest x0 x1 => Sys2Proof.Machine.execAtomicRequest x0 x1 s
  | .atomicReply x0 => Sys2Proof.Machine.execAtomicReply x0 s
  | .multicastStore x0 => Sys2Proof.Machine.execMulticastStore x0 s
  | .multicastAck x0 => Sys2Proof.Machine.execMulticastAck x0 s
  | .contribution x0 => Sys2Proof.Machine.execContribution x0 s
  | .combineSlotTimeout x0 => Sys2Proof.Machine.execCombineSlotTimeout x0 s
  | .result x0 => Sys2Proof.Machine.execResult x0 s
  | .musterJoin x0 => Sys2Proof.Machine.execMusterJoin x0 s
  | .musterClose x0 => Sys2Proof.Machine.execMusterClose x0 s
  | .musterReply x0 => Sys2Proof.Machine.execMusterReply x0 s
  | .mctbSend x0 => Sys2Proof.Machine.execMctbSend x0 s
  | .barrierArrival x0 => Sys2Proof.Machine.execBarrierArrival x0 s
  | .barrierRelease x0 => Sys2Proof.Machine.execBarrierRelease x0 s
  | .staleReport x0 => Sys2Proof.Machine.execStaleReport x0 s
  | .hostMemoryWrite x0 x1 x2 x3 => Sys2Proof.Machine.execHostMemoryWrite x0 x1 x2 x3 s
  | .hostMemoryRead x0 x1 x2 x3 => Sys2Proof.Machine.execHostMemoryRead x0 x1 x2 x3 s
  | .unsupportedRequest x0 => Sys2Proof.Machine.execUnsupportedRequest x0 s
  | .configure x0 => Sys2Proof.Machine.execConfigure x0 s
  | .start x0 => Sys2Proof.Machine.execStart x0 s
  | .stop x0 => Sys2Proof.Machine.execStop x0 s
  | .vdStopped x0 x1 => Sys2Proof.Machine.execVdStopped x0 x1 s
  | .release x0 => Sys2Proof.Machine.execRelease x0 s
  | .importVd x0 => Sys2Proof.Machine.execImportVd x0 s
  | .exportVd x0 => Sys2Proof.Machine.execExportVd x0 s
  | .abort x0 => Sys2Proof.Machine.execAbort x0 s
  | .migIn x0 => Sys2Proof.Machine.execMigIn x0 s
  | .migOut x0 => Sys2Proof.Machine.execMigOut x0 s
  | .sealedBlob x0 x1 => Sys2Proof.Machine.execSealedBlob x0 x1 s
  | .confirm x0 x1 => Sys2Proof.Machine.execConfirm x0 x1 s
  | .releaseAck x0 x1 => Sys2Proof.Machine.execReleaseAck x0 x1 s
  | .lostReply x0 x1 => Sys2Proof.Machine.execLostReply x0 x1 s
  | .sealTimeout x0 x1 => Sys2Proof.Machine.execSealTimeout x0 x1 s
  | .importTimeout x0 x1 => Sys2Proof.Machine.execImportTimeout x0 x1 s
  | .commitTimeout x0 x1 => Sys2Proof.Machine.execCommitTimeout x0 x1 s
  | .measure x0 => Sys2Proof.Machine.execMeasure x0 s
  | .activate x0 x1 => Sys2Proof.Machine.execActivate x0 x1 s
  | .power x0 => Sys2Proof.Machine.execPower x0 s
  | .time x0 => Sys2Proof.Machine.execTime x0 s
  | .dumpclr x0 => Sys2Proof.Machine.execDumpclr x0 s
  | .measureRequest x0 x1 => Sys2Proof.Machine.execMeasureRequest x0 x1 s
  | .wopen x0 x1 => Sys2Proof.Machine.execWopen x0 x1 s
  | .wgrant x0 x1 => Sys2Proof.Machine.execWgrant x0 x1 s
  | .wclose x0 x1 => Sys2Proof.Machine.execWclose x0 x1 s
  | .stage2MappingChange x0 x1 x2 x3 => Sys2Proof.Machine.execStage2MappingChange x0 x1 x2 x3 s
  | .coldReset x0 => Sys2Proof.Machine.execColdReset x0 s
  | .warmReset x0 => Sys2Proof.Machine.execWarmReset x0 s
  | .pfFlr x0 => Sys2Proof.Machine.execPfFlr x0 s
  | .vfFlr x0 x1 => Sys2Proof.Machine.execVfFlr x0 x1 s
  | .resetRelease x0 => Sys2Proof.Machine.execResetRelease x0 s
  | .testComplete x0 x1 x2 => Sys2Proof.Machine.execTestComplete x0 x1 x2 s
  | .arraySelfTestDone x0 x1 => Sys2Proof.Machine.execArraySelfTestDone x0 x1 s
  | .dmcWatchdogExpiry x0 => Sys2Proof.Machine.execDmcWatchdogExpiry x0 s
  | .firmwareStateError x0 => Sys2Proof.Machine.execFirmwareStateError x0 s
  | .powerRailFault x0 => Sys2Proof.Machine.execPowerRailFault x0 s
  | .thermalTrip x0 => Sys2Proof.Machine.execThermalTrip x0 s
  | .thermalLimit x0 => Sys2Proof.Machine.execThermalLimit x0 s
  | .thermalRecovery x0 => Sys2Proof.Machine.execThermalRecovery x0 s
  | .powerShareCheck x0 x1 x2 => Sys2Proof.Machine.execPowerShareCheck x0 x1 x2 s
  | .healthRecordUpdate x0 x1 x2 => Sys2Proof.Machine.execHealthRecordUpdate x0 x1 x2 s
  | .marginMeasurement x0 x1 => Sys2Proof.Machine.execMarginMeasurement x0 x1 s
  | .dailyMarginMean x0 => Sys2Proof.Machine.execDailyMarginMean x0 s
  | .barrierCountLowered x0 x1 x2 x3 x4 => Sys2Proof.Machine.execBarrierCountLowered x0 x1 x2 x3 x4 s
  | .routeReturn x0 x1 => Sys2Proof.Machine.execRouteReturn x0 x1 s
  | .configurationRequest x0 x1 => Sys2Proof.Machine.execConfigurationRequest x0 x1 s
  | .malformedPacket x0 => Sys2Proof.Machine.execMalformedPacket x0 s

end Sys2Proof.Machine
end

