-- ==== Sys2Proof/Machine/Sequencer.lean ====
section
/-!
DEFINITION. How a sequencer takes its next slot: it drains at a crossing (03 R61), forms bundles (02 R31, 04 R99 to R102), applies guards
(04 R94), and runs what stands at its code pointer.
-/

namespace Sys2Proof.Machine

/-! ### Crossings (03 R61) -/

/-- Queue accesses a sequencer has issued from lines of the other region and that have not completed. -/
def State.oldQueueOps (s : State) (uid : Nat) (es : List Engine) (exposed : Bool) : Bool :=
  s.accesses.any fun a => a.2.uid = uid && es.contains a.2.eng && a.2.region != exposed && a.2.isQueue

/-- A pop that STA has begun, and waits for, in a line of the other region (03 R61, the example; log 21). -/
def oldPop (t : Task) (exposed : Bool) : Bool :=
  match t.sta.run, t.sta.line with
  | .running, some l =>
    let m := majorAt l (ptrWord t.sta.pc)
    linkExposed l != exposed && (m == 0x36 || m == 0x39 || m == 0x3A || m == 0x46) && t.sta.began
  | _, _ => false

/-- The drain of a crossing: none when the sequencer may issue from the new line. -/
def State.crossing (s : State) (l : Line) : Option State :=
  match s.eng.region with
  | none => none
  | some r =>
    if r = linkExposed l then none else
    let s := s.modMe fun t => t.land s.cur.eng
    if s.eng.blocked then some (s.stallNow true)
    else if !s.eng.pend.isEmpty || !s.eng.async.isEmpty then some (s.setStatus .empty)
    else
      let es := match s.cur.eng with | .exe => [Engine.lda, Engine.sta] | e => [e]
      if s.oldQueueOps s.cur.uid es (linkExposed l) || (s.cur.eng == .exe && oldPop s.me (linkExposed l)) then
        some (s.stallNow false)
      else none

/-! ### Bundles (02 R31, 04 R99, R101) -/

/-- Classes of EXE instructions (02 R31). -/
inductive SlotClass | m | v | v1 | x
  deriving DecidableEq, Repr

def slotClass (i : Instr) : SlotClass :=
  match i with
  | .wld _ _ | .mma _ _ _ _ _ | .mmat _ _ _ _ _ _ _ | .mzero _ => .m
  | .vexp _ _ _ _ | .vlog _ _ _ _ | .vrcp _ _ _ _ | .vrsq _ _ _ _ | .vsqrt _ _ _ _ | .vtanh _ _ _ _ | .vlut _ _ _ _ _
  | .selk _ _ _ _ _ | .smpl _ _ _ => .v1
  | .vpop _ _ | .vpush _ _ => .x
  | i => if (vdst i).isSome then .v else match i with | .vqnt _ _ _ _ _ _ => .v | _ => .x

/-- The slots of the members, in word order; none if the bundle breaks 02 R31. -/
def assignSlots (ms : List Member) : Option (List (Slot × Member)) :=
  let count (c : SlotClass) := (ms.filter fun m => slotClass m.ins = c).length
  if 1 < count .m ∨ 1 < count .x ∨ 1 < count .v1 ∨ 2 < count .v + count .v1 then none
  else
    some (ms.foldl (fun acc m =>
      let sl := match slotClass m.ins with
        | .m => Slot.m
        | .x => .x
        | .v1 => .v1
        | .v => if acc.any fun p => p.1 = .v0 then .v1 else .v0
      acc ++ [(sl, m)]) [])

/-! ### Storage errors (12 R273) -/

/-- A read of the instruction meets an uncorrectable error: MC_SRAM, and the instruction does not issue. -/
def State.sramTrap (s : State) (p : Nat × Nat) : State :=
  (s.modMe fun t => t.clearDamaged s.cur.eng p.1 p.2).trapNow Cause.mcSram (sramVal p.1 p.2)

/-! ### Running -/

/-- A slot whose instruction's guard is false: only due results land, and it issues (04 R94). -/
def State.falseSlot (s : State) : State :=
  let s := s.modMe fun t => t.land s.cur.eng
  if s.eng.blocked then s.stallNow true
  else if s.anyLive s.eng.hold then s.stallNow false
  else s.setStatus .issued

/-- The guard of a sequencer after the present slot. -/
def State.setGuard (s : State) (n : Nat) (v : Bool) : State := s.modEng fun e => { e with guardLeft := n, guardVal := v }

/-- One instruction of CTL, LDA or STA. GRD, RDV and TRET are never suppressed (04 R95): a GRD met inside what is left of a span
begins its own, and a TRET leaves the handler's span behind. -/
def State.runWord (s : State) (l : Line) : Result State :=
  let w := ptrWord s.eng.pc
  let s := { s with cur := { s.cur with line := l, word := w, first := w, next := w + wordsOf (lineWord l w) } }
  match readMember s.cur.eng l w with
  | .error b => .next (s.trapFrom b.code b.val (if b.split then s.eng.src else 0#64))
  | .ok i =>
    let x := s.eng
    match formCheck i s with
    | .trap c v => .next (s.trapNow c v)
    | _ =>
      let covered := 0 < x.guardLeft && match i with | .grd _ _ _ _ | .tret => false | _ => true
      let live := !covered || x.guardVal || match i with | .rdv => true | _ => false
      match live, s.cur.err with
      | true, some p => .next (s.sramTrap p)
      | _, _ =>
        let early := covered && match i with | .trap _ _ => true | _ => false
        let u := if early then s.setGuard (x.guardLeft - 1) x.guardVal else s
        let r := if live then exec i u else .next s.falseSlot
        match r with
        | .next t =>
          let t := if live then t.offering i else t
          .next (if !covered then t else
            match t.cur.status with
            | .issued => t.setGuard (x.guardLeft - 1) x.guardVal
            | .stalled _ => t.setGuard x.guardLeft x.guardVal
            | .empty => t.setGuard x.guardLeft x.guardVal
            | _ => t)
        | r => r

/-- The members of a bundle tried one by one on the state before it: the first that waits for a pending result, else the
first that traps, else the first that stalls, decides; `none` when all pass. -/
def probeBundle (s : State) : List (Slot × Member) → Option State → Option State → Option State → Result (Option State)
  | [], some e, _, _ => .next (some e)
  | [], none, some t, _ => .next (some t)
  | [], none, none, st => .next st
  | (sl, m) :: rest, em, tr, st =>
    match exec m.ins { s with cur := { s.cur with slot := sl, word := m.word } } with
    | .fault f => .fault f
    | .refused r => .refused r
    | .next u =>
      match u.cur.status with
      | .empty => probeBundle s rest (em.orElse fun _ => some u) tr st
      | .stalled _ =>
        probeBundle s rest em tr (match st with
          | some x => if x.cur.status = .latching then some u else some x
          | none => some u)
      | .latching => probeBundle s rest em tr (st.orElse fun _ => some u)
      | .issued => probeBundle s rest em tr st
      | _ =>
        (match m.ins with
         | .trap _ _ => probeBundle s rest em tr st
         | _ => probeBundle s rest em (tr.orElse fun _ => some u) st)

/-- Slot order (02 R32). -/
def inSlotOrder (l : List (Slot × Member)) : List (Slot × Member) :=
  let at' (sl : Slot) := l.filter fun p => p.1 = sl
  at' .m ++ at' .v0 ++ at' .v1 ++ at' .x

/-- The members that take effect, one after another in slot order (02 R32). -/
def commitBundle : State → List (Slot × Member) → Result State
  | s, [] => .next s
  | s, (sl, m) :: rest =>
    match exec m.ins { s with cur := { s.cur with slot := sl, word := m.word, commit := true } } with
    | .next u => commitBundle u rest
    | r => r

/-- How often the members pop each QV queue, against what has arrived (02 R34). -/
def State.bundlePops (s : State) (ms : List (Slot × Member)) : Bool :=
  let pops := ms.flatMap fun p => instrPops p.2.ins
  pops.all fun q => pops.count q ≤ arrived (s.me.queue (.qv q))

/-- Whether a member is an RDV (06 R133). -/
def Member.joins (m : Member) : Bool := match m.ins with | .rdv => true | _ => false

/-- The member of a bundle that adds to k7, where it alone makes the bundle stall: all the others would issue (06 R137). -/
def State.offerOf (s : State) (act : List (Slot × Member)) : Option Instr :=
  match act.find? fun p => (s.addsToK7 p.2.ins).isSome with
  | none => none
  | some p =>
    match probeBundle s (act.filter fun q => q.2.word != p.2.word) none none none with
    | .next none => if s.bundlePops act then some p.2.ins else none
    | _ => none

/-- Whether a member is a WLD that the early-service check will stop when its bundle issues (15 R332). -/
def State.tooEarly (s : State) (m : Member) : Bool := match m.ins with | .wld t _ => s.narrowEarly t | _ => false

/-- The members tried before the bundle issues; a WLD that the early-service check stops comes after all the others have passed, and their
waits (15 R332). -/
def State.probe (s : State) (act : List (Slot × Member)) : Result (Option State) :=
  let rest := act.filter fun p => !s.tooEarly p.2
  if rest.length = act.length then probeBundle s act none none none else
  match probeBundle s rest none none none with
  | .next none => if s.bundlePops rest then probeBundle s act none none none else .next (some (s.stallNow true))
  | r => r

/-- The members of a bundle that take effect do so in one slot, unless one of them waits or traps. With an RDV among others, these issue
with it, and its waits come after (06 R131, R133; DESIGN CHOICE, log 67); alone it is a stream that joins. -/
def State.runMembers (s : State) (act : List (Slot × Member)) (n : Nat) (v : Bool) : Result State :=
  let others := act.filter fun p => !p.2.joins
  let joins := others.length < act.length
  let act := if others.isEmpty then act else others
  match s.probe act with
  | .fault f => .fault f
  | .refused r => .refused r
  | .next (some u) => .next (match s.offerOf act with | some i => u.offering i | none => u)
  | .next none =>
    let s := s.falseSlot
    match s.cur.status with
    | .issued =>
      if !s.bundlePops act then .next (s.stallNow true) else
      let s := (s.setStatus .start).setGuard n v
      match commitBundle s (inSlotOrder act) with
      | .next u =>
        .next (match u.cur.status with
          | .issued =>
            let u := u.setGuard n v
            if joins then u.modEng fun e => { e with run := .joining } else u
          | .start => u.setStatus .issued
          | _ => u)
      | r => r
    | _ => .next s

/-- One bundle of EXE. The checks of 04 R101 are made for each member, then BUNDLE_SLOT, and after it the check of the target word 0
of a delta form (16 R357), which that list does not place (DESIGN CHOICE, log 67). Where a transfer leads into the middle of a
bundle that does not end in its line, BUNDLE_SLOT reports the word at the code pointer, where the bundle that would issue begins:
the manual's other words, the word after the last one with S = 1, would name an earlier one (12 R268; DESIGN CHOICE, log 67). -/
def State.runBundle (s : State) (l : Line) : Result State :=
  let w := ptrWord s.eng.pc
  let s := { s with cur := { s.cur with line := l, word := w, first := w } }
  match readBundle l 16 w [] with
  | .error b => .next (s.trapFrom b.code b.val (if b.split then s.eng.src else 0#64))
  | .ok (ms, next, closed) =>
    match (if closed then assignSlots ms else none) with
    | none => .next (s.trapNow Cause.bundleSlot (wordAt l w))
    | some sm =>
      let s := { s with cur := { s.cur with next } }
      match (ms.filterMap fun m => match formCheck m.ins s with | .trap c v => some (c, v) | _ => none) with
      | (c, v) :: _ => .next (s.trapNow c v)
      | [] =>
        let x := s.eng
        let ready := s.modMe fun t => t.land .exe
        let (live, n, v) := guardWalk (fun r => ready.reg r) ms x.guardLeft x.guardVal
        let act := (sm.zip live).filterMap fun p => if p.2 then some p.1 else none
        match act.isEmpty, s.cur.err with
        | false, some p => .next (s.sramTrap p)
        | _, _ => s.runMembers act n v

/-- One attempt of a sequencer at what stands at its code pointer. -/
def State.attempt (s : State) (en : Engine) (l : Line) : Result State := if en = .exe then s.runBundle l else s.runWord l

/-- Whether a sequencer waits that has been asked to stop and has not issued since: if its next attempt stalls once more, it was stalled at
the request (12 R263). -/
def Eng.stillWaits (e : Eng) : Bool := match e.stop with | .asked 0 => e.waits | _ => false

/-- What a sequencer does that is at its line: the drain of a crossing, or an attempt. -/
def State.proceed (s : State) (en : Engine) (l : Line) : Result State :=
  match s.crossing l with
  | some s => .next s
  | none => s.attempt en l

/-- A sequencer that was stalled when it was asked to stop, and is so still, stops whole before what it stalls on (12 R263, 06 R150). -/
def State.stopsWaiting (s : State) (uid : Nat) (en : Engine) (l : Line) : Option State :=
  if !((s.task uid).eng en).stillWaits || (s.task uid).trBusy then none else
  match s.proceed en l with
  | .next u => (match u.cur.status with
    | .stalled _ | .latching => some (u.halt uid en none)
    | _ => none)
  | _ => none

/-- A sequencer of an active task takes its next slot, or stalls. -/
def State.runSeq (s : State) (uid : Nat) (en : Engine) (err : Option (Nat × Nat)) : Result State :=
  let s := { s with cur := { uid, eng := en, err } }
  match (s.task uid).eng en |>.run with
  | .idle => .next { s with cur := {} }
  | .joining => .next s.joinSlot.finish
  | .running =>
    match s.enterLine with
    | .ended s => .next s.finish
    | .have l s =>
      match s.stopsWaiting uid en l with
      | some s => .next s.finish
      | none =>
        match s.meetStop uid en with
        | (true, s) => .next (s.setStatus .gone).finish
        | (false, s) =>
          match s.proceed en l with
          | .next s => .next s.finish
          | .fault f => .fault f
          | .refused r => .refused r

/-- A trap that a copy's read has raised, which an engine takes when it next issues (12 R273). -/
def Task.atIssue (t : Task) (en : Engine) : Option Raised :=
  if (t.eng en).run = .idle then none else t.raised.find? fun r => r.atIssue && r.eng = en

/-- The action `issue`: the sequencer of the task active on a core. A task being retired by fault goes when it is quiet
(12 R266); a raised trap and a due arithmetic trap come first. -/
def State.issueOn (s : State) (core : Nat) (en : Engine) (err : Option (Nat × Nat)) : Result State :=
  match s.activeOf core with
  | none => .next s
  | some uid =>
    let t := s.task uid
    if !s.coreRuns core || t.place != .active then .next s
    else if t.dying then .next (if s.quiet uid then s.retire uid else s)
    else if t.traps || s.mustStop uid en || (en == .exe && s.arithDue uid) then .next s
    else
      if !s.vdRuns t.vdKey then .next s
      else
        match t.atIssue en with
        | some r => .next ((s.modTask uid fun t => { t with raised := t.raised.erase r }).takeTrap uid en r.code r.val (t.eng en).pc 0#64)
        | none => s.runSeq uid en err

/-- The reference clock of a die advances by one tick, from its last cold or warm reset on; every hundredth makes a microsecond step
due, which is made before the next tick (01 R22, R23, 12 R258). -/
def State.tick (s : State) (die : Nat) : State :=
  if (s.die die).usDue then { s with agenda := .event (.microsecondStep die) :: .tick die :: s.agenda }
  else s.modDie die fun d => { d with clk := d.clk + 1#64, usDue := (d.clk + 1#64).toNat % 100 == 0 }

end Sys2Proof.Machine
end

