-- ==== Sys2Proof/Machine/Act.lean ====
section
/-!
DEFINITION. What an action does (log 4).
-/

namespace Sys2Proof.Machine

/-- Whether a row of the opcode table is an event of the machine: it has no engine (04 R97). -/
def isEvent (i : Instr) : Bool := i.engines.isEmpty

/-- An action: a sequencer's slot, a tick, a tile access at its port, a command that firmware does not know, a part that leaves for its
home (13 R283), what has waited for a route (13 R278), damage that no access has met yet (14 R311, R312), or an event of the opcode
table. -/
def State.act (s : State) (a : Action) : Result State :=
  match a with
  | .issue core en err => s.issueOn core en err
  | .tick die => .next (s.tick die)
  | .tilePort uid e => .next (s.tilePort uid e)
  | .badCommand m => .next (s.badCommand m)
  | .send id i => .next (s.sendPart id i)
  | .resume => .next s.resume
  | .damage pa i => .next (if isHostPa pa then s else s.damage pa i)
  | .event i => if isEvent i then exec i s else .next s

end Sys2Proof.Machine
end

