-- ==== Sys2Proof/Machine/Place.lean ====
section
/-!
DEFINITION. How a single instruction is made the next one to run (log 3): the lowest core of die 0 runs a task of VD 0 whose
sequencer stands at a line that holds the instruction.
-/

namespace Sys2Proof.Machine

/-- The address of the line, virtual and physical. -/
def placeBase : Nat := 65536

/-- The line: its engine, exposed, a stop line of 15 words, the instruction first. -/
def placeLine (e : Engine) (w : Nat) : List Byte :=
  leBytes 4 (e.code * 2 ^ 30 + 0x3F000000) ++ leBytes 8 w ++ List.replicate 52 0#8

/-- The page of the line as the core's TLB holds it. -/
def placeEntry (t : Task) : TlbEntry :=
  { vd := t.vdKey, asid := t.asid.toNat, va := placeBase, ipa := placeBase, pa := placeBase, size := 16, ord := .rc,
    u := true, x := true, w := true, r := true }

/-- The task that runs the instruction: the one active on core 0, or a new one at level S with a handler. -/
def State.placeTask (s : State) : Nat × Task :=
  match s.activeOf 0 with
  | some uid => (uid, s.task uid)
  | none =>
    let t : Task := { level := .s, tid := 1#32, trVec := codePtr (BitVec.ofNat 64 (placeBase + 64)) 1, core := some 0,
                      ctl := { run := .running } }
    (s.nextUid, t.loadConverters)

/-- The pod with an instruction where its next step fetches. -/
def State.placeWord (s : State) (nbits w : Nat) : State :=
  let v := w % 2 ^ nbits
  let e := (engineOf (v % 2 ^ 32)).getD .ctl
  let (uid, t) := s.placeTask
  let t := { t with place := .active, core := some 0, dying := false, raised := [] }
  let t := t.modEng e fun x =>
    { x with run := .running, pc := codePtr (BitVec.ofNat 64 placeBase) 1, line := none, entry := .fresh, region := none,
             guardLeft := 0, pend := [], async := [], hold := [], stop := .none }
  let s := (s.modDie 0 fun d => { d with service := .full }).modCore 0 fun c =>
    { c with freeze := false, plan := none, tlb := placeEntry t :: c.tlb }
  let s := (s.modVd t.vdKey fun x => { x with state := .running }).setTask uid t
  { (s.poke placeBase (placeLine e v)) with
      nextUid := max s.nextUid (uid + 1), agenda := [.issue 0 e none], bad := NMap.erase s.bad (placeBase / 64), poison := [] }

end Sys2Proof.Machine
end

