-- ==== Sys2Proof/Machine/Step.lean ====
section
/-!
DEFINITION. One step: the next action of the agenda, or one the model does not choose. And where a step fetches.
-/

namespace Sys2Proof.Machine

/-- One step of the pod (log 4). -/
def step (s : State) : Host.Outcome State Fault Refusal :=
  match s.agenda with
  | a :: rest => State.act { s with agenda := rest } a
  | [] => State.act { s with choice := s.choice + 1 } (Config.nextAction s.choice)

/-- The pod with an instruction, given as the opcode table numbers its bits, where the next step fetches (log 3). -/
def State.withFetchWord (s : State) (nbits w : Nat) : State := s.placeWord nbits w

end Sys2Proof.Machine
end

