-- ==== Sys2Proof/Safety.lean ====
section
/-!
DEFINITION. The terms in which statements are made: when an instruction's own checks are reached, what it means that it issues
with an effect, what an instruction leaves unchanged, and the invariant that every step keeps.
-/

namespace Sys2Proof.Machine

/-! ### Issuing -/

/-- The state in which an instruction makes its own checks: the due results of its sequencer have landed (06 R147). -/
def State.landed (s : State) : State := s.modMe fun t => t.land s.cur.eng

/-- Nothing that every instruction is subject to keeps i from its own checks: it passes the checks of 04 R101, no due result
waits for its queue (02 R35), no pending result of an interlocked region clashes with it (03 R60), no asynchronous result it
names is outstanding (06 R145), and no fence or FENCEX holds its class back (09 R213, R215). -/
def State.admits (s : State) (i : Instr) (cls : Option PathClass) : Bool :=
  s.cur.status == .start && !s.cur.commit && (i.operandTrap s.cur.eng).isNone && !s.landed.eng.blocked &&
    (linkExposed s.cur.line || !clashes s.landed.eng i) && !awaits s.landed.eng i && !s.landed.heldBack cls

/-- Instruction i issues with an effect wherever it is admitted and a condition on the state it then reads holds. -/
def Issues (i : Instr) (cls : Option PathClass) (cond : State → Prop) (eff : State → State) : Prop :=
  ∀ s, s.admits i cls = true → cond s.landed → exec i s = .next (eff s.landed).issued

/-- Instruction i traps with a code and a value wherever it is admitted and a condition holds; it does not issue. -/
def Traps (i : Instr) (cls : Option PathClass) (cond : State → Prop) (code : State → Nat) (val : State → W64) : Prop :=
  ∀ s, s.admits i cls = true → cond s.landed → exec i s = .next (s.landed.trapNow (code s.landed) (val s.landed))

/-- An access of n bytes at a virtual address that translates at once to pieces on no SO page, leaving a state (08 R198,
09 R210). A fence that its sequencer was left waiting for is over before (09 R213). -/
def State.reaches (s : State) (va n : Nat) (acc : AccKind) (ps : List Piece) (u : State) : Prop :=
  s.holdOver.translate (.task s.cur.uid s.cur.eng) s.cur.uid va n acc = .ok ps u ∧ (ps.any fun p => p.ord == .so) = false

/-- What a fence that comes before an access leaves, once what it waits for is over (09 R213). -/
def State.fencedBy (u : State) : Before → State
  | .none => u
  | .rel => u.release
  | .full => u.acquireNow

/-- A memory instruction issues with an effect on the pieces of its access, wherever it is admitted, its condition holds, the
access translates at once, and no access that a fence before it waits for is outstanding (09 R213). Its ordering is that of its
form, or of SO pages if it touches one (09 R210): a release or a fence precedes it, or what follows it waits. The effect depends on the
state in which its registers are read, on the pieces, and on the state after translation. -/
def Accesses (i : Instr) (cls : PathClass) (cond : State → Prop) (va : State → Nat) (n : Nat) (acc : AccKind) (o so : Ordering)
    (eff : State → List Piece → State → State) : Prop :=
  ∀ s ps u, s.admits i (some cls) = true → cond s.landed →
    s.landed.holdOver.translate (.task s.cur.uid s.cur.eng) s.cur.uid (va s.landed) n acc = .ok ps u →
    let k := if ps.any fun p => p.ord == .so then so else o
    (k.before = .full → u.pendingIds u.cur.uid Access.fences = []) →
    exec i s = .next ((eff s.landed ps (u.fencedBy k.before)).holdFor k.after).issued

/-! ### Events -/

/-- An event has an effect wherever its condition holds. -/
def Becomes (i : Instr) (cond : State → Prop) (eff : State → State) : Prop := ∀ s, cond s → exec i s = .next (eff s)

/-- The command at the head of a module's ring: a record of an op, for a VD that exists, met by firmware that serves
(15 R329). -/
def State.commanded (s : State) (m op : Nat) (c : List Byte) : Prop :=
  (s.module m).cmds.head? = some c ∧ s.serving m = some true ∧ commandOp c = op ∧ commandVd c ≤ 255

/-- A command answers with status 0, a value and an effect on the VD it names, wherever its condition holds (15 R329). -/
def Commanded (i : Instr) (m op : Nat) (cond : Nat → List Byte → State → Prop) (eff : Nat → List Byte → State → State)
    (value : Nat → List Byte → State → Nat) : Prop :=
  ∀ s c, s.commanded m op c → cond (vdKey m (commandVd c)) c s →
    exec i s = .next (((eff (vdKey m (commandVd c)) c s).popCommand m).commandAnswer m op 0 (value (vdKey m (commandVd c)) c s)
      none)

/-- A command is answered with a status and changes nothing else (15 R329). -/
def Refused (i : Instr) (m op status : Nat) (cond : Nat → List Byte → State → Prop) : Prop :=
  ∀ s c, s.commanded m op c → cond (vdKey m (commandVd c)) c s → exec i s = .next ((s.popCommand m).commandAnswer m op status 0 none)

/-- The state in which a service request is no longer at the head of its VD's ring. -/
def State.popRequest (s : State) (k : Nat) : State := s.modVd k fun v => { v with requests := v.requests.tail }

/-- A service request at the head of a VD's ring is served with an effect while firmware serves and no activation is between
its check and its commit (14 R315, R321). -/
def Served (i : Instr) (m vd kind : Nat) (eff : Nat → List Byte → State → State) : Prop :=
  ∀ s r, (s.vd (vdKey m vd)).requests.head? = some r → s.serving m = some true → requestKind r = kind →
    (kind = 1 ∨ (s.module m).staged = none) → exec i s = .next (eff (vdKey m vd) r (s.popRequest (vdKey m vd)))

/-- A message at the head of a VD's inbox is taken by firmware that serves (14 R322). -/
def Received (i : Instr) (m vd : Nat) (cond : Nat → MigMsg → State → Prop) (eff : Nat → MigMsg → State → State) : Prop :=
  ∀ s x rest, (s.vd (vdKey m vd)).migr.inbox = x :: rest → s.serving m = some true →
    cond (vdKey m vd) x (s.modMig (vdKey m vd) fun g => { g with inbox := rest }) →
    exec i s = .next (eff (vdKey m vd) x (s.modMig (vdKey m vd) fun g => { g with inbox := rest }))

/-- A point-to-point packet has an effect at its destination once a route leads there, no older packet of its flow must go
first, and what it asks for may be performed (13 R278, R280). -/
def Delivered (i : Instr) (k kind : Nat) (cond : Packet → State → Prop) (eff : Packet → State → State) : Prop :=
  ∀ s p l, s.packet k kind = some p → s.route (vcOf kind) p.at' p.dst = some l → s.behind k p = false →
    s.mayApply p = true → cond p ((s.dropPacket k).crossed l) → exec i s = .next (eff p ((s.dropPacket k).crossed l))

/-- A sequencer of an active task that may take its next slot: the state in which it does, with its line (06 R131, 12 R263,
03 R58). It does not stop at what it waits for, it meets no stop point, no raised trap waits for it, and no crossing makes it
drain. -/
def State.turn (s : State) (core uid : Nat) (en : Engine) (rest : List Action) (l : Line) (u : State) : Prop :=
  let s' : State := { s with agenda := rest }
  s.agenda = .issue core en none :: rest ∧ s'.activeOf core = some uid ∧ s'.coreRuns core = true ∧
  (s'.task uid).place = .active ∧ (s'.task uid).dying = false ∧ (s'.task uid).traps = false ∧ s'.mustStop uid en = false ∧
  (en = .exe → s'.arithDue uid = false) ∧ s'.vdRuns (s'.task uid).vdKey = true ∧ (s'.task uid).atIssue en = none ∧
  ((s'.task uid).eng en).run = .running ∧
  ∃ w, ({ s' with cur := { uid, eng := en } } : State).enterLine = .have l w ∧ w.stopsWaiting uid en l = none ∧
    w.meetStop uid en = (false, u) ∧ u.crossing l = none

/-- The state in which the word at the code pointer of the executing sequencer is run from a line. -/
def State.atWord (u : State) (l : Line) : State :=
  { u with cur := { u.cur with line := l, word := ptrWord u.eng.pc, first := ptrWord u.eng.pc,
                               next := ptrWord u.eng.pc + wordsOf (lineWord l (ptrWord u.eng.pc)) } }

/-- The words at the code pointer read as an instruction that passes the checks made before its guard (04 R94, R101). -/
def State.reads (u : State) (l : Line) (i : Instr) : Prop :=
  readMember u.cur.eng l (ptrWord u.eng.pc) = .ok i ∧ formCheck i (u.atWord l) = .ok

/-! ### Frames -/

/-- Every byte of memory reads as before. -/
def KeepsMemory (s t : State) : Prop := ∀ a, t.byte a = s.byte a

/-- Everything outside the tasks is as before, but for what belongs to the slot itself. -/
def KeepsMachine (s t : State) : Prop :=
  t.mem = s.mem ∧ t.modules = s.modules ∧ t.dies = s.dies ∧ t.cores = s.cores ∧ t.vds = s.vds ∧ t.windows = s.windows ∧
  t.bells = s.bells ∧ t.owed = s.owed ∧ t.accesses = s.accesses ∧ t.copies = s.copies ∧ t.walks = s.walks ∧ t.tlbis = s.tlbis ∧ t.barriers = s.barriers ∧
  t.packets = s.packets ∧ t.splits = s.splits ∧ t.combines = s.combines ∧ t.rounds = s.rounds ∧ t.bad = s.bad ∧
  t.poison = s.poison ∧ t.hwids = s.hwids ∧ t.sealed = s.sealed ∧ t.views = s.views ∧ t.minors = s.minors ∧
  t.nodes = s.nodes ∧ t.majors = s.majors ∧ t.agenda = s.agenda

/-- Every other task is as before. -/
def KeepsOthers (s t : State) : Prop := ∀ uid, uid ≠ s.cur.uid → NMap.find? t.tasks uid = NMap.find? s.tasks uid

/-- The registers of all four sequencers are as before. -/
def KeepsRegisters (a b : Task) : Prop := ∀ e, (b.eng e).regs = (a.eng e).regs

/-- The frame, the planes and the weight buffer, the queues and the tiles of a task are as before. -/
def KeepsStorage (a b : Task) : Prop :=
  b.frame = a.frame ∧ b.plane0 = a.plane0 ∧ b.plane1 = a.plane1 ∧ b.activePlane = a.activePlane ∧ b.wbuf = a.wbuf ∧
  b.fillCur = a.fillCur ∧ b.side = a.side ∧ b.queues = a.queues ∧ b.tokens = a.tokens ∧ b.tiles = a.tiles ∧
  b.counters = a.counters ∧ b.chans = a.chans

/-- The flags of a task are as before. -/
def KeepsFlags (a b : Task) : Prop :=
  b.arFlags = a.arFlags ∧ b.arEn = a.arEn ∧ b.arPend = a.arPend ∧ b.arSet = a.arSet

/-- The trap registers, the space, the random stream, the level and the priority of a task are as before. -/
def KeepsSpecial (a b : Task) : Prop :=
  b.trBusy = a.trBusy ∧ b.trCode = a.trCode ∧ b.trEpc = a.trEpc ∧ b.trVal = a.trVal ∧ b.trFrom = a.trFrom ∧
  b.trVec = a.trVec ∧ b.trRun = a.trRun ∧ b.trEng = a.trEng ∧ b.exeOwn = a.exeOwn ∧ b.exeSpill = a.exeSpill ∧
  b.held = a.held ∧ b.s1root = a.s1root ∧ b.asid = a.asid ∧ b.rngKey = a.rngKey ∧ b.rngCtr = a.rngCtr ∧
  b.conv0 = a.conv0 ∧ b.conv1 = a.conv1 ∧ b.level = a.level ∧ b.prio = a.prio ∧ b.gang = a.gang

/-- The scalar instructions of 16 R345 to R347 with NOP. -/
def isScalar : Instr → Bool
  | .nop | .add _ _ _ | .sub _ _ _ | .mul _ _ _ | .mulh _ _ _ | .mulhn _ _ _ | .div _ _ _ | .divn _ _ _ | .rem _ _ _
  | .remn _ _ _ | .and _ _ _ | .or _ _ _ | .xor _ _ _ | .andn _ _ _ | .shl _ _ _ | .shr _ _ _ | .sar _ _ _
  | .rotr _ _ _ | .min _ _ _ | .max _ _ _ | .minn _ _ _ | .maxn _ _ _ | .cmp _ _ _ _ | .clz _ _ | .ctz _ _ | .popc _ _
  | .mov _ _ | .addi _ _ _ | .andi _ _ _ | .ori _ _ _ | .xori _ _ _ | .shli _ _ _ | .shri _ _ _ | .sari _ _ _
  | .movi _ _ | .movhi _ _ _ | .bfx _ _ _ _ | .bfi _ _ _ _ => true
  | _ => false

/-- The vector instructions that read no queue, converter or random stream by their form: the moves, bit operations, minima and
maxima, shifts and comparisons, from vectors and broadcasts. -/
def isQuietVector : Instr → Bool
  | .vmin _ a b _ | .vmax _ a b _ | .vand _ a b _ | .vor _ a b _ | .vxor _ a b _ | .vshl _ a b _ | .vshr _ a b _
  | .vcmp _ _ a b _ | .vperm _ a b => (srcPops a ++ srcPops b).isEmpty
  | .vabs _ a _ | .vneg _ a _ | .vnot _ a _ | .vmov _ a _ | .vbcst _ a _ => (srcPops a).isEmpty
  | _ => false

/-- The loads, stores and atomics of registers and of queue entries. -/
def isAccess : Instr → Bool
  | .ld _ _ _ _ | .ldLong _ _ _ _ _ | .st _ _ _ _ | .stLong _ _ _ _ _ | .ldq _ _ _ | .stq _ _ _ | .ldr _ _ _ | .str _ _ _
  | .atomSwap _ _ _ _ _ _ | .atomCas _ _ _ _ _ _ _ | .atomAdd _ _ _ _ _ _ | .atomAnd _ _ _ _ _ _ | .atomOr _ _ _ _ _ _
  | .atomXor _ _ _ _ _ _ | .atomMin _ _ _ _ _ _ | .atomMax _ _ _ _ _ _ | .atomMinn _ _ _ _ _ _ | .atomMaxn _ _ _ _ _ _
  | .atomFadd _ _ _ _ _ => true
  | _ => false

/-! ### The invariant -/

/-- What every step keeps: memory in its canonical form. -/
def State.Inv (s : State) : Prop := Memory.wf s.mem = true

end Sys2Proof.Machine
end

