-- ==== Sys2Proof/Certificates/Slice0/Obligations.lean ====
section
/-!
DEFINITION. The statements. Each docstring names the rules of the manual it is about, and the log entries it rests on. Where a
statement says that an instruction issues, the state in which its operands are read is the one in which due results have landed.
-/

open Sys2Proof Sys2Proof.Machine

/-! ### Reset, the invariant, memory -/

/-- After power-on (15 R334): no task lives, every VD is FREE and without keys, every die is in RESET, every bell is free,
nothing is in flight and no key of firmware exists. Ticks and counters that start at 0 are the model's choice (log 8), memory
that reads 0 is log 1, the shape of the pod is log 2. -/
def Obligations.ResetState : Prop :=
  State.reset.tasks = [] ∧ (∀ k, (State.reset.vd k).state = .free ∧ (State.reset.vd k).keys = none) ∧
  (∀ d, (State.reset.die d).service = .reset ∧ (State.reset.die d).ports = 0#6 ∧ (State.reset.die d).clk = 0#64) ∧
  (∀ k, (State.reset.bell k).state = .free) ∧ (∀ m, (State.reset.module m).fwKeys = none ∧ (State.reset.module m).dump = none) ∧
  State.reset.accesses = [] ∧ State.reset.copies = [] ∧ State.reset.packets = [] ∧ (∀ a, State.reset.byte a = 0#8) ∧
  State.reset.dieCount = 8

/-- The invariant holds after power-on. -/
def Obligations.ResetInv : Prop := State.reset.Inv

/-- Every step of the pod, whatever acts, keeps memory in its canonical form: addresses rise strictly and no listed byte is one
that an unlisted address reads as. -/
def Obligations.InvStep : Prop := ∀ s t, s.Inv → step s = .next t → t.Inv

/-- A part of a store performed at its home (07 R162) writes its bytes at its address and no other byte of memory, in a line that
no bell watches and that its writer can verify (14 R308, R311, R312), while firmware watches no service ring (14 R315); no bell has
changed, nor any register, flag, special register, row of the frame, tile, queue or counter of a task, and the part is done, which
completes a store that has no other (06 R142). What a sequencer waits for may be looked at again.
Where the manual leaves a choice, the model's is in log 7. -/
def Obligations.HomeWriteFrame : Prop :=
  ∀ s id i a p, s.Inv → NMap.find? s.accesses id = some a → a.parts[i]? = some p → a.purpose = .store → p.write = true →
    s.isPeer a.die p.pa = false → s.mayPerform a p = true → s.tagOpen a.who p.pa = true → p.pa % 64 + p.bytes.length ≤ 64 →
    isHostPa p.pa = false → s.unreadable (some a.vdk) p.pa = false → (∀ v, v ∈ s.vds → v.2.svcOn = false) →
    s.bellsAt (s.home 0 p.pa) (lineOf p.pa) = [] →
    ∃ t, exec (.homeWriteApply id i .ok) s = .next t ∧
      (∀ x, t.byte x = if p.pa ≤ x ∧ x < p.pa + p.bytes.length then p.bytes.getD (x - p.pa) 0#8 else s.byte x) ∧
      t.bells = s.bells ∧ (∀ u, KeepsRegisters (s.task u) (t.task u) ∧ KeepsStorage (s.task u) (t.task u) ∧
        KeepsFlags (s.task u) (t.task u) ∧ KeepsSpecial (s.task u) (t.task u)) ∧
      (a.parts = [p] → NMap.find? t.accesses id = none)

/-! ### Encoding and stepping -/

/-- Decoding what the encoder writes gives the instruction back, for every instruction that an engine can be given and every
operand; with S = 1, or for a bundle of EXE with either value (04 R99 to R101). -/
def Obligations.RoundTripAll : Prop :=
  ∀ e i b, i.wf e = true → (e = .exe ∨ b = true) →
    decode e ((encode b i).headD 0) ((encode b i).getD 1 0) = .ok i

/-- Words written out in the manual stand for the instructions it gives with them. -/
def Obligations.DecodeSamples : Prop :=
  decode .sta 0xA4200000 0 = .ok (.waitc 2#4 0#12) ∧ decode .ctl 0xAB088600 0 = .ok (.spawn 1#5 2#5 3#5) ∧
  decode .ctl 0xC2314000 0 = .ok (.bellqry 6#5 5#5) ∧ decode .ctl 0xC8051980 0 = .ok (.tdraft 5#8 3#5 6#5) ∧
  decode .ctl 0xC9051900 0 = .ok (.tcommit 5#8 3#5 4#5) ∧ decode .lda 0x81000000 0 = .ok .nop

/-- A step in which a sequencer of CTL, LDA or STA takes its turn without a guard, or at a GRD or a TRET, which no guard covers (04
R95), runs the instruction that the words at its code pointer decode to, and ends the slot (03 R58, 06 R131); a SIGT of k7 that
stalls offers its addition there (06 R137). Of the others, one whose guard holds and an RDV, which no guard suppresses, run and
leave one less of the span if they issue (04 R94; TRAP, whose slot ends before it traps, leaves it before); one whose guard is false
does not run: its slot only lands what is due, and one less is left of the span.
Where the manual leaves a choice, the model's is in log 4. -/
def Obligations.StepRunsWord : Prop :=
  let free (i : Instr) : Prop := (∃ r b sense span, i = .grd r b sense span) ∨ i = .tret
  (∀ s core uid en rest l u i, en ≠ .exe → s.turn core uid en rest l u → (u.eng.guardLeft = 0 ∨ free i) →
     u.cur.err = none → u.reads l i → step s = match exec i (u.atWord l) with
       | .next t => .next (t.offering i).finish
       | r => r) ∧
  (∀ s core uid en rest l u i, en ≠ .exe → s.turn core uid en rest l u → 0 < u.eng.guardLeft → ¬ free i →
     (u.eng.guardVal = true ∨ i = .rdv) → (∀ n p, i ≠ .trap n p) → u.cur.err = none → u.reads l i →
     step s = match exec i (u.atWord l) with
       | .next t => .next (match (t.offering i).cur.status with
           | .issued => (t.offering i).setGuard (u.eng.guardLeft - 1) u.eng.guardVal
           | .stalled _ | .empty => (t.offering i).setGuard u.eng.guardLeft u.eng.guardVal
           | _ => t.offering i).finish
       | r => r) ∧
  (∀ s core uid en rest l u n p, en ≠ .exe → s.turn core uid en rest l u → 0 < u.eng.guardLeft → u.eng.guardVal = true →
     u.cur.err = none → u.reads l (.trap n p) →
     ((u.atWord l).setGuard (u.eng.guardLeft - 1) true).admits (.trap n p) none = true →
     step s = match exec (.trap n p) ((u.atWord l).setGuard (u.eng.guardLeft - 1) true) with
       | .next t => .next t.finish
       | r => r) ∧
  (∀ s core uid en rest l u i, en ≠ .exe → s.turn core uid en rest l u → 0 < u.eng.guardLeft → u.eng.guardVal = false →
     u.cur.err = none → u.reads l i → ¬ free i → i ≠ .rdv → (u.atWord l).falseSlot.cur.status = .issued →
     step s = .next ((u.atWord l).falseSlot.setGuard (u.eng.guardLeft - 1) false).finish)

/-- A step in which EXE takes its turn runs the bundle at its code pointer: if no member waits, traps or stalls and its results
and pops are ready, the members whose guards hold take effect in slot order (02 R31, R32, 04 R94), and the slot ends. An RDV beside others
takes its place after them: EXE then joins (06 R133).
Where the manual leaves a choice, the model's is in logs 4 and 67. -/
def Obligations.StepRunsBundle : Prop :=
  ∀ s core uid rest l u ms next sm live n v, s.turn core uid .exe rest l u → u.cur.err = none →
    let b : State := { u with cur := { u.cur with line := l, word := ptrWord u.eng.pc, first := ptrWord u.eng.pc, next } }
    let act := (sm.zip live).filterMap fun p => if p.2 then some p.1 else none
    let others := act.filter fun p => !p.2.joins
    readBundle l 16 (ptrWord u.eng.pc) [] = .ok (ms, next, true) → assignSlots ms = some sm →
    ms.filterMap (fun m => match formCheck m.ins b with | .trap c v => some (c, v) | _ => none) = [] →
    guardWalk (fun r => (b.modMe fun t => t.land .exe).reg r) ms u.eng.guardLeft u.eng.guardVal = (live, n, v) →
    (others ≠ [] ∨ act = []) → b.probe others = .next none → b.falseSlot.cur.status = .issued →
    b.falseSlot.bundlePops others = true →
    step s = match commitBundle ((b.falseSlot.setStatus .start).setGuard n v) (inSlotOrder others) with
      | .next t => .next (match t.cur.status with
          | .issued =>
            if others.length < act.length then (t.setGuard n v).modEng fun e => { e with run := .joining } else t.setGuard n v
          | .start => t.setStatus .issued
          | _ => t).finish
      | r => r

/-- A line is entered by a read of 64 bytes at the physical address of its virtual one, made as an execution by the task
(03 R58), once a route leads to its home (13 R278): the line is what its home serves, if its link word passes the checks of 03
R53. -/
def Obligations.FetchReadsTheLine : Prop :=
  ∀ (s t : State) ps (l : Line) u, s.eng.line = none → pointerOk s.eng.pc = true →
    s.translate1 (.task s.cur.uid s.cur.eng) s.cur.uid (ptrLine s.eng.pc).toNat .exec = .ok ps t →
    t.routed s.me.die (ps.headD {}).pa = true → (t.crossTo s.me.die (ps.headD {}).pa).homeRead
      { vd := some s.me.vdKey, die := s.me.die, tid := s.me.tid.toNat, eng := s.cur.eng.code, acc := .exec } .ok
      (ptrLine s.eng.pc).toNat (ps.headD {}).pa 64 = (toBytes 64 l, u) →
    linkTrap s.cur.eng l = none → ptrWord s.eng.pc ≤ linkCount l →
    s.enterLine = .have l (u.modEng fun e => { e with line := some l })

/-- A result that is available n slots after the slot of its instruction (00 R5): the k-th slot after it still reads the value
held before if k is less than n, and reads the new one from the n-th on.
Where the manual leaves a choice, the model's is in log 33. -/
def Obligations.ResultAvailable : Prop :=
  ∀ (t : Task) (e : Engine) (r : GReg) (v : W64) (n k : Nat), (t.eng e).pend = [] → r ≠ 0#5 → 0 < n →
    let u := t.modEng e fun x => { x with pend := [{ rem := n, dest := .reg r, data := v.setWidth 4096 }] }
    ((((fun (x : Task) => (x.land e).endSlot e [])^[k] u).land e).eng e).get r = if n ≤ k then v else (t.eng e).get r

/-! ### Scalar instructions -/

/-- NOP changes no state and takes one issue slot, in EXE the X slot of its bundle; it is major 0x01 in Z format (04 R96). What
lands in the slot is due from instructions before it. -/
def Obligations.NopChangesNothing : Prop :=
  Issues .nop none (fun _ => True) (fun s => s) ∧ slotClass .nop = .x ∧
    encode true .nop = [0x81000000] ∧ encode false .nop = [0x01000000]

/-- g0 reads as zero and takes no write, and an instruction of EXE that names a register above 15, and whose types are ones it
accepts, traps and does nothing (02 R28). -/
def Obligations.RegisterZero : Prop :=
  (∀ x : Eng, x.get 0#5 = 0#64) ∧ (∀ (x : Eng) v, x.put 0#5 v = x) ∧ (∀ (s : State) n v, s.result n 0#5 v = s) ∧
  (∀ i : Instr, i.typesOk = true → (i.exeRegs.any fun r => 16 ≤ r.toNat) = true → i.operandTrap .exe = some Cause.exeReg) ∧
  (∀ (d a b : GReg) (s : State), s.cur.eng = .exe → 16 ≤ d.toNat → exec (.add d a b) s = .next (s.trapNow Cause.exeReg s.wordVal))

/-- The ALU family (16 R345, R346): what each leaves in rd, and after how many slots it is available. The instructions with an
immediate (16 R347, R355, 17 R383), each available one slot later. -/
def Obligations.Scalar : Prop :=
  (let op (i : Instr) (n : Nat) (d : GReg) (v : State → W64) : Prop := Issues i none (fun _ => True) fun s => s.result n d (v s)
   ∀ d a b : GReg,
     op (.add d a b) 1 d (fun s => s.reg a + s.reg b) ∧ op (.sub d a b) 1 d (fun s => s.reg a - s.reg b) ∧
     op (.mul d a b) 3 d (fun s => s.reg a * s.reg b) ∧
     op (.mulh d a b) 3 d (fun s => BitVec.ofInt 64 ((s.reg a).toInt * (s.reg b).toInt / 2 ^ 64)) ∧
     op (.mulhn d a b) 3 d (fun s => BitVec.ofNat 64 ((s.reg a).toNat * (s.reg b).toNat / 2 ^ 64)) ∧
     op (.div d a b) 18 d (fun s => if s.reg b = 0 then BitVec.allOnes 64 else BitVec.ofInt 64 ((s.reg a).toInt.tdiv (s.reg b).toInt)) ∧
     op (.divn d a b) 18 d (fun s => if s.reg b = 0 then BitVec.allOnes 64 else BitVec.ofNat 64 ((s.reg a).toNat / (s.reg b).toNat)) ∧
     op (.rem d a b) 18 d (fun s => if s.reg b = 0 then s.reg a else BitVec.ofInt 64 ((s.reg a).toInt.tmod (s.reg b).toInt)) ∧
     op (.remn d a b) 18 d (fun s => if s.reg b = 0 then s.reg a else BitVec.ofNat 64 ((s.reg a).toNat % (s.reg b).toNat)) ∧
     op (.and d a b) 1 d (fun s => s.reg a &&& s.reg b) ∧ op (.or d a b) 1 d (fun s => s.reg a ||| s.reg b) ∧
     op (.xor d a b) 1 d (fun s => s.reg a ^^^ s.reg b) ∧ op (.andn d a b) 1 d (fun s => s.reg a &&& ~~~(s.reg b)) ∧
     op (.shl d a b) 1 d (fun s => s.reg a <<< ((s.reg b).toNat % 64)) ∧
     op (.shr d a b) 1 d (fun s => s.reg a >>> ((s.reg b).toNat % 64)) ∧
     op (.sar d a b) 1 d (fun s => (s.reg a).sshiftRight ((s.reg b).toNat % 64)) ∧
     op (.rotr d a b) 1 d (fun s => (s.reg a).rotateRight ((s.reg b).toNat % 64)) ∧
     op (.min d a b) 1 d (fun s => BitVec.ofInt 64 (min (s.reg a).toInt (s.reg b).toInt)) ∧
     op (.max d a b) 1 d (fun s => BitVec.ofInt 64 (max (s.reg a).toInt (s.reg b).toInt)) ∧
     op (.minn d a b) 1 d (fun s => BitVec.ofNat 64 (min (s.reg a).toNat (s.reg b).toNat)) ∧
     op (.maxn d a b) 1 d (fun s => BitVec.ofNat 64 (max (s.reg a).toNat (s.reg b).toNat)) ∧
     (∀ c, op (.cmp d a b c) 1 d (fun s => if condHolds c (s.reg a) (s.reg b) then 1 else 0)) ∧
     op (.clz d a) 1 d (fun s => BitVec.ofNat 64 (leadingZeros (s.reg a))) ∧
     op (.ctz d a) 1 d (fun s => BitVec.ofNat 64 (trailingZeros (s.reg a))) ∧
     op (.popc d a) 1 d (fun s => BitVec.ofNat 64 (oneBits (s.reg a))) ∧ op (.mov d a) 1 d (fun s => s.reg a)) ∧
  (let op (i : Instr) (d : GReg) (v : State → W64) : Prop := Issues i none (fun _ => True) fun s => s.result 1 d (v s)
   ∀ (d a : GReg),
     (∀ imm : BitVec 14, op (.addi d a imm) d (fun s => s.reg a + imm.signExtend 64) ∧
       op (.andi d a imm) d (fun s => s.reg a &&& imm.setWidth 64) ∧ op (.ori d a imm) d (fun s => s.reg a ||| imm.setWidth 64) ∧
       op (.xori d a imm) d (fun s => s.reg a ^^^ imm.setWidth 64)) ∧
     (∀ n : BitVec 6, op (.shli d a n) d (fun s => s.reg a <<< n.toNat) ∧ op (.shri d a n) d (fun s => s.reg a >>> n.toNat) ∧
       op (.sari d a n) d (fun s => (s.reg a).sshiftRight n.toNat)) ∧
     (∀ imm : BitVec 19, op (.movi d imm) d (fun _ => imm.signExtend 64)) ∧
     (∀ (hw : BitVec 2) (imm : BitVec 16), op (.movhi d hw imm) d (fun s => setBits (s.reg d) (16 * hw.toNat) 16 imm.toNat)) ∧
     (∀ l w : BitVec 6, l.toNat + w.toNat < 64 →
       op (.bfx d a l w) d (fun s => BitVec.ofNat 64 ((s.reg a).toNat / 2 ^ l.toNat % 2 ^ (w.toNat + 1))) ∧
       op (.bfi d a l w) d (fun s => setBits (s.reg d) l.toNat (w.toNat + 1) (s.reg a).toNat)))

/-- The frame of the scalar instructions: no byte of memory, nothing outside the task, no register, queue, tile, flag or special
register changes at issue; other sequencers stay as they are, and only rd can change, when the one result that is put into the
delay line lands, which sets no flag (16 R345 to R347). -/
def Obligations.ScalarFrame : Prop :=
  ∀ i s, isScalar i = true → s.admits i none = true →
    ∃ t, exec i s = .next t ∧ KeepsMemory s t ∧ KeepsMachine s t ∧ KeepsOthers s t ∧ KeepsRegisters s.landed.me t.me ∧
      KeepsStorage s.landed.me t.me ∧ KeepsFlags s.landed.me t.me ∧ KeepsSpecial s.landed.me t.me ∧
      (∀ e, e ≠ s.cur.eng → t.me.eng e = s.landed.me.eng e) ∧ t.eng.async = s.landed.eng.async ∧
      (t.eng.pend = s.landed.eng.pend ∨
        ∃ p d, t.eng.pend = s.landed.eng.pend ++ [p] ∧ (instrRegs i).head? = some d ∧ p.dest = .reg d ∧ p.flags = 0#9)

/-! ### Control -/

/-- GRD and the transfers (04 R94, R95, 16 R356 to R359, R369, R376, 17 R391): where control goes and what a call and a loop
leave, and the traps of a target word 0, of every delta form and whatever a LOOP's register holds, and of a bad pointer. -/
def Obligations.Transfers : Prop :=
  (∀ r b sense span, Issues (.grd r b sense span) none (fun s => grdTrap s.cur.line s.cur.word span = none)
    fun s => s.modEng fun e => { e with guardLeft := span.toNat + 1, guardVal := (s.reg r).getLsbD b.toNat != sense }) ∧
  (∀ d (w : BitVec 4), w ≠ 0#4 →
    Issues (.br d w) none (fun _ => True) (fun s => s.transfer ⟨lineOffset (ptrLine s.eng.pc) d.toInt, w.toNat, .delta⟩) ∧
    Issues (.call d w) none (fun _ => True) (fun s =>
      (s.result 1 31#5 (returnPoint s.cur.line (ptrLine s.eng.pc) s.cur.next)).transfer
        ⟨lineOffset (ptrLine s.eng.pc) d.toInt, w.toNat, .delta⟩)) ∧
  (∀ d, Traps (.br d 0#4) none (fun _ => True) (fun _ => Cause.targetWord)
    fun s => codePtr (lineOffset (ptrLine s.eng.pc) d.toInt) 0) ∧
  (∀ d, Traps (.call d 0#4) none (fun _ => True) (fun _ => Cause.targetWord)
    fun s => codePtr (lineOffset (ptrLine s.eng.pc) d.toInt) 0) ∧
  (∀ a d, Traps (.loop a d 0#4) none (fun _ => True) (fun _ => Cause.targetWord)
    fun s => codePtr (lineOffset (ptrLine s.eng.pc) d.toInt) 0) ∧
  (∀ a, Issues (.jr a) none (fun s => pointerOk (s.reg a) = true)
      (fun s => s.transfer ⟨ptrLine (s.reg a), ptrWord (s.reg a), .pointer⟩) ∧
    Traps (.jr a) none (fun s => pointerOk (s.reg a) = false) (fun _ => Cause.targetPointer) (fun s => s.reg a)) ∧
  Issues .ret none (fun s => pointerOk (s.reg 31#5) = true)
    (fun s => s.transfer ⟨ptrLine (s.reg 31#5), ptrWord (s.reg 31#5), .pointer⟩) ∧
  Traps .ret none (fun s => pointerOk (s.reg 31#5) = false) (fun _ => Cause.targetPointer) (fun s => s.reg 31#5) ∧
  (∀ a d (w : BitVec 4), w ≠ 0#4 →
    Issues (.loop a d w) none (fun s => s.reg a = 0) (fun s => s) ∧
    Issues (.loop a d w) none (fun s => s.reg a = 1) (fun s => s.result 1 a 0) ∧
    Issues (.loop a d w) none (fun s => 1 < (s.reg a).toNat) (fun s =>
      (s.result 1 a (s.reg a - 1)).transfer ⟨lineOffset (ptrLine s.eng.pc) d.toInt, w.toNat, .delta⟩))

/-! ### Streams, tokens, barriers, tasks -/

/-- FORK starts an idle stream at the pointer in ra with rb and rc in its g1 and g2, outside a handler or in one that owns EXE; it
traps on a bad pointer, and then on a stream that is not idle. RDV of CTL issues when the other streams are idle; RDV of
another stream makes it join, its code pointer still at the RDV, and a joining stream without results or queue accesses becomes
idle (06 R132, R133, 17 R390). SPAWN (06
R130, 17 R397): with a bad entry pointer rd reads 2^63 + 1 and nothing is created; else, once the task's stores have
completed, rd reads the child's number or why there is none. YIELD marks the task and its quad decides again (06 R135). EXIT
ends a task whose other streams are idle and whose operations have completed (06 R134).
Where the manual leaves a choice, the model's is in logs 14, 38 and 39. -/
def Obligations.StreamsAndTasks : Prop :=
  ((∀ e a b c, Issues (.fork e a b c) none
     (fun s => pointerOk (s.reg a) = true ∧ (s.me.eng e).run = .idle ∧ (s.me.trBusy = false ∨ s.me.exeOwn = true))
     fun s => s.start e (s.reg a) (s.reg b) (s.reg c)) ∧
   (∀ e a b c, Traps (.fork e a b c) none (fun s => pointerOk (s.reg a) = false) (fun _ => Cause.targetPointer) (fun s => s.reg a)) ∧
   (∀ e a b c, Traps (.fork e a b c) none (fun s => pointerOk (s.reg a) = true ∧ (s.me.eng e).run ≠ .idle)
     (fun _ => Cause.forkBusy) fun _ => BitVec.ofNat 64 e.code) ∧
   (∀ (s : State) e pc v w, e ≠ s.cur.eng → ((s.start e pc v w).me.eng e).run = .running ∧ ((s.start e pc v w).me.eng e).pc = pc ∧
     ((s.start e pc v w).me.eng e).get 1#5 = v ∧ ((s.start e pc v w).me.eng e).get 2#5 = w) ∧
   Issues .rdv none (fun s => s.cur.eng = .ctl ∧ s.me.joined = true) (fun s => s.modEng fun e =>
     { e with ord := ((e.ord.join s.me.lda.ord).join s.me.exe.ord).join s.me.sta.ord }) ∧
   Issues .rdv none (fun s => s.cur.eng ≠ .ctl) (fun s => (s.modEng fun e => { e with run := .joining }).joinSlot) ∧
   (∀ s : State, s.landed.eng.pend = [] → s.landed.eng.async = [] → s.accesses = [] →
     s.joinSlot.eng.run = .idle ∧ s.joinSlot.eng.pc = s.landed.eng.pc ∧ s.joinSlot.cur.status = .gone) ∧
   (∀ s, s.admits .rdv none = true → s.cur.eng = .ctl → s.landed.me.joined = false → exec .rdv s = .next (s.landed.stallNow true))) ∧
  ((∀ d a b, Issues (.spawn d a b) none (fun s => pointerOk (s.reg a) = false) fun s => s.asyncResult d (BitVec.ofNat 64 (2 ^ 63 + 1))) ∧
   (∀ d a b, Issues (.spawn d a b) none (fun s => spawnCheck a s = .ok)
     fun s => (s.spawnChild (s.reg a) (s.reg b)).2.asyncResult d (s.spawnChild (s.reg a) (s.reg b)).1) ∧
   Issues .yield none (fun _ => True)
     (fun s => (s.modMe fun t => { t with yielded := true }).dueDecision s.me.die s.me.quad) ∧
   Issues .exit none (fun s => s.me.joined = true ∧ s.quiet s.cur.uid = true) (fun s => (s.retire s.cur.uid).setStatus .gone) ∧
   (∀ (s : State) uid, NMap.find? (s.retire uid).tasks uid = none))

/-- SIGT and WAITT with their count, from the immediate or from a register up to 255, add and take tokens where the queue has room
or tokens; a greater count traps and changes none (06 R136). WAITC issues when its counter is at most n, and DRAIN when every
operation of the classes of its mask has completed; neither changes a register or a count (06 R140, R141), but after a DRAIN of class 0
LDA's loads see at least what a WAITV before it has seen (06 R142, 09 R211). The count of a token queue rises
by what SIGT gives and falls by what WAITT takes (06 R136). The count that a SIGT meets is that of its queue, and on k7, for another
sequencer than CTL, with what stalled producers before it in the order of 06 R137 still add. -/
def Obligations.Tokens : Prop :=
  ((∀ k n, Issues (.sigtImm k n) none (fun s => s.countMet k + n.toNat ≤ 255) fun s => s.give k n.toNat) ∧
   (∀ k a, Issues (.sigtReg k a) none (fun s => (s.reg a).toNat ≤ 255 ∧ s.countMet k + (s.reg a).toNat ≤ 255)
     fun s => s.give k (s.reg a).toNat) ∧
   (∀ k n, Issues (.waittImm k n) none (fun s => n.toNat ≤ s.me.tokenCount k) fun s => s.take k n.toNat) ∧
   (∀ k a, Issues (.waittReg k a) none (fun s => (s.reg a).toNat ≤ 255 ∧ (s.reg a).toNat ≤ s.me.tokenCount k)
     fun s => s.take k (s.reg a).toNat) ∧
   (∀ k a, Traps (.sigtReg k a) none (fun s => 255 < (s.reg a).toNat) (fun _ => Cause.tokenCount) (fun s => s.reg a) ∧
     Traps (.waittReg k a) none (fun s => 255 < (s.reg a).toNat) (fun _ => Cause.tokenCount) (fun s => s.reg a)) ∧
   (∀ c n, Issues (.waitc c n) none (fun s => s.me.counters.getD c.toNat 0 ≤ n.toNat) fun s => s) ∧
   (∀ m, Issues (.drain m) none (fun s => s.drained s.cur.uid m.toNat = true) fun s => if m.getLsbD 0 then s.acquireNow else s)) ∧
  ((∀ (s : State) k n, (s.give k n).me.tokenCount k = s.me.tokenCount k + n) ∧
   (∀ (s : State) k n, n ≤ s.me.tokenCount k → (s.take k n).me.tokenCount k = s.me.tokenCount k - n) ∧
   (∀ (s : State) k j n, j ≠ k → (s.give k n).me.tokenCount j = s.me.tokenCount j) ∧
   (∀ (s : State) k, k ≠ 7#3 ∨ s.cur.eng = .ctl → s.countMet k = s.me.tokenCount k) ∧
   (∀ (s : State) k, s.me.tokenCount k ≤ s.countMet k))

/-- BAR (06 R143, R144): the last member to arrive completes the barrier and goes on; an earlier one waits, as every member of a
barrier over the pod does, whose arrival goes to its home unit, and goes on once the barrier has completed and no access that a full
fence waits for is outstanding; what precedes an arrival, and what precedes the going on, lies before a fence; a member of gang 0,
or of a gang that no member count is set for, traps with BAR_NONE, 0x063, and the value gang + scope × 2^16, and a failed read of
the gang's entry is recorded (12 R256, R268). Barriers over the pod (06 R143, 13 R285): an arrival is counted at the home unless
another pair holds the barrier, the last one sends a release to every die that sent an arrival, and a release lets the tasks it
names go on; a barrier whose count has been lowered to its arrivals completes. Routes lead to the gang's entry where it is read (13
R278).
Where the manual leaves a choice, the model's is in log 41. -/
def Obligations.Barriers : Prop :=
  (let key (s : State) (sc : Scope) (id : BitVec 8) : Nat := barKey sc (s.barInstance s.me sc) id.toNat
   let count (s : State) (sc : Scope) : Nat := (s.gangEntry s.me.vdKey s.me.gang.toNat).barCount sc
   let fenced (s : State) : State := (s.modEng fun e => { e with ord := e.ord.fenceAll }).acquireNow
   let pass (s : State) (k : Nat) : State :=
     (s.modMe fun t => { t with bars := t.bars.filter fun b => !(b.1 = k && b.2.1 == t.trBusy) }).acquireViews s.me
   let arrive (s : State) (sc : Scope) (id : BitVec 8) : State :=
     ((fenced s).modMe fun t => { t with bars := t.bars ++ [(key s sc id, t.trBusy, false)] }).arriveAt (key s sc id) s.me.vdKey
       s.me.gang.toNat (s.cur.uid * 2 + b2n s.me.trBusy) []
   let asks (s : State) (id : BitVec 8) : State :=
     let u := ((fenced s).modMe fun t => { t with bars := t.bars ++ [(key s .pod id, t.trBusy, false)] }).newId
     let p : Packet :=
       { kind := 12, vd := s.me.vd, gang := s.me.gang.toNat, src := s.me.die, at' := s.me.die, a := id.setWidth 64
         links := [s.cur.uid * 2 + b2n s.me.trBusy], dst := u.2.barrierHome s.me.module s.me.vd s.me.gang.toNat id.toNat }
     { u.2 with packets := u.2.packets.set u.1 p }
   (∀ sc id s, s.admits (.bar sc id) none = true → s.landed.arrivalOf (key s.landed sc id) = some true →
     s.landed.pendingIds s.cur.uid Access.fences = [] →
     exec (.bar sc id) s = .next (pass (fenced s.landed) (key s.landed sc id)).issued) ∧
   ∀ sc id s, s.admits (.bar sc id) none = true → s.landed.arrivalOf (key s.landed sc id) = none →
     s.landed.gangAway s.landed.me.vdKey s.landed.me.die s.landed.me.gang.toNat = false →
     (s.landed.me.gang ≠ 0#16 → count s.landed .pod ≠ 0 → s.landed.classesDone s.cur.uid = true → sc = .pod →
       exec (.bar sc id) s = .next ((asks s.landed id).stallNow false).issued) ∧
     (s.landed.me.gang ≠ 0#16 → count s.landed sc ≠ 0 → s.landed.classesDone s.cur.uid = true → sc ≠ .pod →
       s.landed.barrierOpen (key s.landed sc id) s.landed.me.vdKey s.landed.me.gang.toNat = true →
       (count s.landed sc ≤ ((arrive s.landed sc id).barriers.getD (key s.landed sc id) {}).arrived.length →
         exec (.bar sc id) s = .next
           (pass ((arrive s.landed sc id).completeBarrier (key s.landed sc id)) (key s.landed sc id)).issued) ∧
       (((arrive s.landed sc id).barriers.getD (key s.landed sc id) {}).arrived.length < count s.landed sc →
         exec (.bar sc id) s = .next ((arrive s.landed sc id).stallNow false).issued)) ∧
     (s.landed.me.gang = 0#16 ∨ count s.landed sc = 0 → Cause.barNone = 0x063 ∧
       exec (.bar sc id) s = .next ((s.landed.trapNow Cause.barNone
         (BitVec.ofNat 64 (s.landed.me.gang.toNat + sc.code * 2 ^ 16))).gangRecords s.me.vdKey s.me.die s.me.gang.toNat))) ∧
  ((∀ k (s : State) p l, s.packet k 12 = some p → s.route 2 p.at' p.dst = some l → s.behind k p = false →
     s.barrierOpen (podBarrier (bits p.a 7 0)) p.vd p.gang = true →
     s.gangAway (vdKey (s.moduleOf p.dst) p.vd) p.dst p.gang = false →
     let key := podBarrier (bits p.a 7 0)
     let x := (s.dropPacket k).crossed l
     let u := (x.arriveAt key p.vd p.gang (p.links.headD 0) [p.src]).gangRecords (vdKey (x.moduleOf p.dst) p.vd) p.dst p.gang
     exec (.barrierArrival k) s = .next (if u.podCount p.dst p.vd p.gang ≤ (u.barriers.getD key {}).arrived.length then
       u.completePod key p.dst (bits p.a 7 0) else u)) ∧
   (∀ k, Delivered (.barrierRelease k) k 13 (fun _ _ => True) fun p s =>
     s.releaseArrived (podBarrier (bits p.a 7 0)) (p.links.filter fun w => (NMap.find? s.tasks (w / 2)).isSome)) ∧
   (∀ (s : State) vd gang sc inst id b, NMap.find? s.barriers (barKey sc inst id) = some b → b.vd = vd → b.gang = gang →
     (sc ≠ .pod →
       let die := b.arrived.head?.elim 0 fun w => (s.task (w / 2)).die
       let u := s.gangRecords vd die gang
       s.gangAway vd die gang = false → (u.gangEntry vd gang).barCount sc ≤ b.arrived.length →
       exec (.barrierCountLowered vd gang sc inst id) s = .next (u.completeBarrier (barKey sc inst id))) ∧
     (sc = .pod →
       let home := s.barrierHome (s.moduleOf (b.dies.headD 0)) vd gang id
       let u := s.gangRecords (vdKey (s.moduleOf home) vd) home gang
       s.gangAway (vdKey (s.moduleOf home) vd) home gang = false → u.podCount home vd gang ≤ b.arrived.length →
       exec (.barrierCountLowered vd gang sc inst id) s = .next (u.completePod (barKey sc inst id) home id))) ∧
   (∀ (s : State) key, NMap.find? (s.completeBarrier key).barriers key = none))

/-! ### Traps -/

/-- Taking a trap with a handler and none under way (12 R265, R267): the code, the resumption point, the value and the line come
from are saved, the streams running are noted and held, and CTL runs at the vector at level S. -/
def Obligations.TrapEntrySaves : Prop :=
  ∀ (s : State) uid en code val epc src, (s.task uid).trBusy = false → pointerOk (s.task uid).trVec = true →
    let t := (s.takeTrap uid en code val epc src).task uid
    t.trBusy = true ∧ t.trCode = BitVec.ofNat 9 code ∧ t.trEpc = epc ∧ t.trVal = val ∧ t.trFrom = src ∧
    t.trEng = BitVec.ofNat 2 en.code ∧ t.trRun = BitVec.ofNat 4 (s.task uid).runBits ∧ t.exeOwn = false ∧
    t.priv = .s ∧ t.ctl.pc = (s.task uid).trVec ∧ t.ctl.run = .running ∧ t.lda.run = .idle ∧ t.exe.run = .idle ∧
    t.sta.run = .idle ∧ t.frame = (s.task uid).frame ∧ t.queues = (s.task uid).queues ∧ t.arFlags = (s.task uid).arFlags ∧
    (s.takeTrap uid en code val epc src).mem = s.mem

/-- A trap that is taken and returned from leaves the registers, pending results and guards of every stream as they were, and the frame, the
planes, the weight buffer, the queues, tokens, tiles, counters, channels and flags of the task, with the raising sequencer at the resumption
point, where its line is read again and where one that was joining goes on with its RDV, if that is the point, or else runs (12 R265,
R271, 17 R390). -/
def Obligations.TrapReturnRestores : Prop :=
  ∀ (s : State) uid en code val epc src e, (s.task uid).trBusy = false → pointerOk (s.task uid).trVec = true →
    (∀ d, ((s.task uid).eng d).stop = .none) →
    let t := ((s.takeTrap uid en code val epc src).task uid).trapReturn
    t.trBusy = false ∧ t.held = none ∧ (t.eng e).regs = ((s.task uid).eng e).regs ∧
    (t.eng e).run = (if e = en ∧ ((s.task uid).eng e).run = .joining ∧ epc ≠ ((s.task uid).eng e).pc then .running
      else ((s.task uid).eng e).run) ∧
    (t.eng e).pend = ((s.task uid).eng e).pend ∧ (t.eng e).async = ((s.task uid).eng e).async ∧
    (t.eng e).guardLeft = ((s.task uid).eng e).guardLeft ∧ (t.eng e).guardVal = ((s.task uid).eng e).guardVal ∧
    KeepsStorage (s.task uid) t ∧ KeepsFlags (s.task uid) t ∧
    (t.eng e).pc = (if e = en then epc else ((s.task uid).eng e).pc) ∧ (e = en → (t.eng e).line = none)

/-- TRAP n takes the software trap n with its payload once its slot has ended (12 R270). TRET needs level S and a trap under way,
and returns when the other streams are idle; a handler that does not own EXE has nothing to reload (12 R271). -/
def Obligations.TrapInstructions : Prop :=
  (∀ n p, Issues (.trap n p) none (fun _ => True) fun s =>
    (s.endIssue.takeTrap s.endIssue.cur.uid s.endIssue.cur.eng (Cause.software + n.toNat) (p.setWidth 64) s.endIssue.eng.pc
      0#64).setStatus .gone) ∧
  Issues .tret none (fun s => s.me.trBusy = true ∧ s.me.exeOwn = false ∧ s.me.joined = true)
    (fun s => (s.modMe Task.trapReturn).setStatus .gone) ∧
  Traps .tret none (fun s => s.me.priv = .t) (fun _ => Cause.priv) (fun _ => 0#64) ∧
  Traps .tret none (fun s => s.me.priv = .s ∧ s.me.trBusy = false) (fun _ => Cause.priv) (fun _ => 3#64)

/-! ### Control registers, TLBI, random numbers -/

/-- A control register read and exchanged at a level that allows it; rd is asynchronous, and takes the old value (04 R93, 16
R361). RNGADV adds its 128-bit operand to the counter of the random stream (17 R392). A control register that a task's level
may not read traps, in a read or an exchange, and so does an exchange of one that no level may write, with the reason in tr.val (16 R361).
Where the manual leaves a choice, the model's is in log 38. -/
def Obligations.ControlRegisters : Prop :=
  (let may (c : Csr) (s : State) : Prop := csrCheck c true s = .ok
   ∀ d a c, Issues (.csrr d c) none (fun s => csrCheck c false s = .ok) (fun s => s.asyncResult d (s.csr c)) ∧
     Issues (.csrw d a c) none (may c) (fun s => (s.setCsr c (s.reg a)).asyncResult d (s.csr c)) ∧
     Issues (.csrs d a c) none (may c) (fun s => (s.setCsr c (s.csr c ||| s.reg a)).asyncResult d (s.csr c)) ∧
     Issues (.csrc d a c) none (may c) (fun s => (s.setCsr c (s.csr c &&& ~~~(s.reg a))).asyncResult d (s.csr c)) ∧
     Issues (.rngadv d a) none (fun _ => True) (fun s => s.modMe fun t =>
       { t with rngCtr := t.rngCtr + ((s.reg a).setWidth 128 <<< 64 ||| (s.reg d).setWidth 128) })) ∧
  (let denied (c : Csr) (cond : State → Prop) (why : W64) : Prop := ∀ d a,
     Traps (.csrw d a c) none cond (fun _ => Cause.priv) (fun _ => why) ∧
     Traps (.csrs d a c) none cond (fun _ => Cause.priv) (fun _ => why) ∧
     Traps (.csrc d a c) none cond (fun _ => Cause.priv) (fun _ => why)
   let unread (c : Csr) (cond : State → Prop) : Prop :=
     (∀ d, Traps (.csrr d c) none cond (fun _ => Cause.priv) (fun _ => 1#64)) ∧ denied c cond 1#64
   (∀ c, c ∈ [Csr.trCause, .trEpc, .trVal, .trFrom, .trVec, .trEng, .exeOwn, .vmS1root, .vmAsid] → unread c fun s => s.me.priv = .t) ∧
   (∀ c, c ∈ [Csr.vmS2root, .vmVd] → unread c fun s => s.me.priv ≠ .f) ∧
   (∀ c, c ∈ [Csr.cfgPlace, .cfgTask, .cfgVd, .clkRef] → denied c (fun _ => True) 2#64))

/-- What control registers hold after a write, and what a write leaves (16 R361, 05 R113, R119, 12 R267, 08 R186): the
writable registers read as written in their fields, beside the bits of tr.cause, ar.trap and exe.own that no write changes; writing
rng.key loads both converters; a write of one changes the value of no other. -/
def Obligations.ControlRegisterValues : Prop :=
  ∀ (s : State) (v : W64),
    (s.setCsr .trEpc v).csr .trEpc = v ∧ (s.setCsr .trVal v).csr .trVal = v ∧ (s.setCsr .trFrom v).csr .trFrom = v ∧
    (s.setCsr .trVec v).csr .trVec = v ∧ (s.setCsr .rngKey v).csr .rngKey = v ∧ (s.setCsr .rngCtrLo v).csr .rngCtrLo = v ∧
    (s.setCsr .rngCtrHi v).csr .rngCtrHi = v ∧
    (s.setCsr .trCause v).csr .trCause = (v &&& 0x1FF) ||| (if s.me.trBusy then 0x8000000000000000 else 0) ∧
    (s.setCsr .arTrap v).csr .arTrap = (v &&& 0x1FF) ||| (if s.me.arPend then 0x10000 else 0) ∧
    (s.setCsr .exeOwn v).csr .exeOwn = (v &&& 0xFFFFFFFFFF0000) ||| (if s.me.exeOwn then 0x8000000000000000 else 0) ∧
    (s.setCsr .vmS2root v).csr .vmS2root = v &&& 0xFFFFFFFFFE000 ∧ s.setCsr .vmVd v = s ∧ s.setCsr .trEng v = s ∧
    (s.setCsr .arFlags v).csr .arFlags = v &&& 0x1FF ∧ (s.setCsr .vmS1root v).csr .vmS1root = v &&& 0xFFFFFFFFFFFC0 ∧
    (s.setCsr .vmAsid v).csr .vmAsid = v &&& 0xFFFF ∧ (s.setCsr .cfgTask v) = s ∧ (s.setCsr .clkRef v) = s ∧
    (s.setCsr .rngKey v).me.conv0 = convLoad (bits v 31 0) ∧ (s.setCsr .rngKey v).me.conv1 = convLoad (bits v 63 32) ∧
    ∀ c d, d ≠ c → (s.setCsr c v).csr d = s.csr d

/-- TLBI (08 R195, 17 R405): at level S, and kinds 3 and 4 at level F, where no store of the task is outstanding and no walk is
under way in its scope, the shoot-down is logged and what it matches is dropped, and what had failed is tried again; at a lower
level it traps.
Where the manual leaves a choice, the model's is in log 52. -/
def Obligations.Tlbis : Prop :=
  let quietS (sc : Scope) (s : State) : Prop := s.myTlbi = none ∧
    (s.accesses.any fun a => a.2.uid = s.cur.uid && a.2.drain == some 1) = false ∧
    ∀ w, w ∈ s.walks → (s.diesOf s.me.die sc).contains w.2.die = true → w.2.underWay = false
  let done (s : State) (sc : Scope) (h : Shoot) : State := (s.shoot sc h).tlbiDone sc h
  (∀ sc a b, Issues (.tlbiVa sc a b) none (fun s => quietS sc s ∧ s.me.priv.isS = true) fun s => done s sc
    { kind := 0, vd := s.me.vdKey, asid := bits (s.reg b) 15 0, addr := bits (s.reg a) 55 16 * 65536 }) ∧
  (∀ sc b, Issues (.tlbiAsid sc b) none (fun s => quietS sc s ∧ s.me.priv.isS = true) fun s => done s sc
    { kind := 1, vd := s.me.vdKey, asid := bits (s.reg b) 15 0 }) ∧
  (∀ sc, Issues (.tlbiVd sc) none (fun s => quietS sc s ∧ s.me.priv.isS = true) fun s => done s sc { kind := 2, vd := s.me.vdKey }) ∧
  (∀ sc a b, Issues (.tlbiIpa sc a b) none (fun s => quietS sc s ∧ s.me.priv.isF = true) fun s => done s sc
    { kind := 3, vd := vdKey s.me.module (bits (s.reg b) 7 0), addr := bits (s.reg a) 51 16 * 65536 }) ∧
  (∀ sc b, Issues (.tlbiS2Vd sc b) none (fun s => quietS sc s ∧ s.me.priv.isF = true) fun s => done s sc
    { kind := 4, vd := vdKey s.me.module (bits (s.reg b) 7 0) }) ∧
  (∀ sc a b, let low (i : Instr) : Prop := Traps i none (fun s => s.me.priv.isS = false) (fun _ => Cause.priv) (fun _ => 0#64)
    let below (i : Instr) : Prop := Traps i none (fun s => s.me.priv.isF = false) (fun _ => Cause.priv) (fun _ => 0#64)
    low (.tlbiVa sc a b) ∧ low (.tlbiAsid sc b) ∧ low (.tlbiVd sc) ∧ below (.tlbiIpa sc a b) ∧ below (.tlbiS2Vd sc b))

/-! ### Fences and windows -/

/-- Fences (09 R214, R215, R222): FENCE issues when no access of its task that counts is outstanding, FENCE.acq when no load is;
FENCE.rel makes later stores wait for what is outstanding, FENCEX one class for another. WACQ and WREL issue when nothing that
touches the window is outstanding; they fence where the task's VD holds the window, and order nothing where it does not (14 R317). What
a task's stores to the window have replaced is released by its WREL to the tasks that its scope covers, and none that has been released
is seen by a task after its own WACQ (09 R222).
Where the manual leaves a choice, the model's is in logs 7, 40 and 65. -/
def Obligations.Fences : Prop :=
  let after (s : State) : State := s.modEng fun e => { e with ord := e.ord.fenceAll }
  (∀ sc, Issues (.fence sc) none (fun s => s.pendingIds s.cur.uid Access.fences = []) fun s => (after s).acquireNow) ∧
  (∀ sc, Issues (.fenceAcq sc) none (fun s => s.pendingIds s.cur.uid Access.isLoad = []) fun s => (after s).acquireNow) ∧
  (∀ sc, Issues (.fenceRel sc) none (fun _ => True) fun s => s.modEng fun e =>
    { e with ord := { e.ord.fenceAll with rels := (e.ord.rels ++ s.pendingIds s.cur.uid Access.fences).dedup } }) ∧
  (∀ sc p q, Issues (.fencex sc p q) none (fun _ => True) fun s => s.modEng fun e =>
    { e with ord := { e.ord with holds := e.ord.holds ++ [(q, s.classIds s.cur.uid p)] } }) ∧
  (∀ a sc, Issues (.wacq a sc) none (fun s => windowCheck a s = .ok) (fun s => match s.myWindow a with
      | none => s
      | some w => (after s).acquireWindow w s.me) ∧
    Issues (.wrel a sc) none (fun s => windowCheck a s = .ok) fun s => match s.myWindow a with
      | none => s
      | some w => (after s).releaseViews w s.me (s.scopeCovers s.me sc)) ∧
  (∀ (s : State) w (t : Task) sc v o, v ∈ (s.releaseViews w t (s.scopeCovers t sc)).views → w.covers v.dw = true →
    s.scopeCovers t sc v = true → o ∈ v.olds → o.vdk = t.vdKey → o.die = t.die → o.tid = t.tid.toNat → o.released = true) ∧
  (∀ (s : State) w (t : Task) v o, v ∈ (s.acquireWindow w t).views → v.of t.vdKey t.die t.tid.toNat = true →
    w.covers v.dw = true → o ∈ v.olds → o.released = false) ∧
  (∀ (s : State) w (t : Task) c, KeepsMemory s (s.releaseViews w t c) ∧ KeepsMemory s (s.acquireWindow w t))

/-! ### Memory -/

/-- LD and ST in both forms (16 R370, R371, 17 R398, 09 R210, R213): an access of the bytes at a signed offset from a base, scaled
in the short form. A load makes its register wait; a store writes the low bytes of its register when its parts are performed
at their home, and not before. PREF of an address that is cached is one more use of its translation, which both TLBs then hold, and
nothing where that refuses the read or its line is poisoned; PREF of any other address below 2^56 begins a walk that nothing waits for
(17 R389). PREF.tree here has the effect of PREF and no other: that its home also loads the path of counters into its node cache is left
out, which is the model's choice (DESIGN CHOICE, log 5). WAITV whose poll is due reads its word (12 R259, 18 R437): if the condition
holds, it leaves with the word, available one slot later, and its count of polls at 0; if not, the poll is counted and WAITV stalls on.
Where the manual leaves a choice, the model's is in logs 5 and 12. -/
def Obligations.LoadsAndStores : Prop :=
  (let load (rt : GReg) (w : Width) (_ : State) (ps : List Piece) (u : State) : State :=
     (u.addAccess { cls := some .ld, drain := some 0, purpose := .load rt w, parts := u.readParts u.me.die ps }).awaitReg rt
   let store (rt : GReg) (w : Width) (s : State) (ps : List Piece) (u : State) : State :=
     u.addAccess { cls := some .st, drain := some 1, purpose := .store,
                   parts := u.writeParts u.me.die ps (toBytes (widthBytes w) (s.reg rt)) }
   let all (_ : State) : Prop := True
   (∀ rt a w off, Accesses (.ld rt a w off) .ld all (fun s => s.address a (off.toInt * (widthBytes w : Int))) (widthBytes w) .read
     {} soLoad (load rt w)) ∧
   (∀ rt a w o off, Accesses (.ldLong rt a w o off) .ld all (fun s => s.address a off.toInt) (widthBytes w) .read (ldOrdering o)
     soLoad (load rt w)) ∧
   (∀ rt a w off, Accesses (.st rt a w off) .st all (fun s => s.address a (off.toInt * (widthBytes w : Int))) (widthBytes w) .write
     {} soStore (store rt w)) ∧
   (∀ rt a w o off, Accesses (.stLong rt a w o off) .st all (fun s => s.address a off.toInt) (widthBytes w) .write (stOrdering o)
     soStore (store rt w)) ∧
   (∀ a off, let ea (s : State) : Nat := s.address a (off.toInt * 64) / 64 * 64
     let look (s : State) : Option TlbEntry × State := s.lookup s.me.die (s.me.core.getD 0) s.me.vdKey s.me.asid.toNat (ea s)
     let cached (s : State) : Prop := ea s < 2 ^ 56 ∧ (look s).1.isSome = true
     let used (s : State) : State := match (look s).1 with
       | none => s
       | some e => if (e.refuses s.me.priv.isS .read).isSome || s.poisoned (e.phys (ea s)) then s
         else (look s).2.fillTlb s.me.die (some (s.me.core.getD 0)) e
     let walked (tree : Bool) (s : State) : State :=
       (s.addAccess { cls := some .ld, drain := some 0, purpose := .pref tree }).addWalk (.pref s.nextId) s.cur.uid (ea s) .read
     let fresh (s : State) : Prop := ea s < 2 ^ 56 ∧ (look s).1 = none
     Issues (.pref a off) (some .ld) cached used ∧ Issues (.prefTree a off) (some .ld) cached used ∧
     Issues (.pref a off) (some .ld) fresh (walked false) ∧ Issues (.prefTree a off) (some .ld) fresh (walked true))) ∧
  (∀ rd a b c wide s ps u, s.admits (.waitv rd a b c wide) (some .ld) = true → s.landed.pollDue s.landed.me = true →
     s.landed.reaches (s.landed.address a 0 / atomBytes wide * atomBytes wide) (atomBytes wide) .read ps u →
     u.pollBlocked u.me ps = false →
     let r := u.poll u.cur.uid ps
     (waitvHolds c wide r.1 (r.2.reg b) = true → exec (.waitv rd a b c wide) s = .next
       (((r.2.modMe fun t => { t with polls := 0, lastPoll := none }).result 1 rd r.1).issued)) ∧
     (waitvHolds c wide r.1 (r.2.reg b) = false → exec (.waitv rd a b c wide) s = .next (((r.2.modMe fun t =>
       { t with polls := t.polls + 1, lastPoll := some ((r.2.die t.die).clk.toNat) }).stallNow false).issued)))

/-- LDQ, LDR, STQ and STR (16 R373 to R375, 17 R400 to R402): a load of entries reserves a place of the queue for each, and a
store takes them from the queue, where there are room and entries; an address loses its low six bits. -/
def Obligations.QueueMoves : Prop :=
  let put (cls : PathClass) (ps : List Piece) (bs : List Byte) (u : State) : State :=
    u.addAccess { cls := some cls, drain := some 1, purpose := .store, parts := u.writeParts u.me.die ps bs }
  (∀ q a off, Accesses (.ldq q a off) .ld (fun s => (s.me.queue q.queue).length < 16)
    (fun s => s.address a (off.toInt * 512) / 64 * 64) 512 .read {} soLoad fun _ ps u => u.readEntry q .ld ps) ∧
  (∀ q a (n : BitVec 4), Accesses (.ldr q a n) .fb (fun s => (s.me.queue q.queue).length + (n.toNat + 1) ≤ 16)
    (fun s => s.address a 0 / 64 * 64) (512 * (n.toNat + 1)) .read {} soLoad fun _ ps u =>
      (List.range (n.toNat + 1)).foldl (fun s i => s.readEntry q .fb (entryPieces ps i)) u) ∧
  (∀ (q : BitVec 2) a off, Accesses (.stq q a off) .st (fun s => 1 ≤ arrived (s.me.queue (.qs q)))
    (fun s => s.address a (off.toInt * 512) / 64 * 64) 512 .write {} soStore fun s ps u =>
      (put .st ps (toBytes 512 ((s.entries q 1).headD 0#4096)) u).popN q 1) ∧
  (∀ (q : BitVec 2) a (n : BitVec 4), Accesses (.str q a n) .fb (fun s => n.toNat + 1 ≤ arrived (s.me.queue (.qs q)))
    (fun s => s.address a 0 / 64 * 64) (512 * (n.toNat + 1)) .write {} soStore fun s ps u =>
      (put .fb ps ((s.entries q (n.toNat + 1)).flatMap (toBytes 512)) u).popN q (n.toNat + 1))

/-- ATOM (16 R348 to R350, 09 R208, R213): an atomic at an aligned address is one access that its register waits for, in the order its
form asks for; a misaligned one traps with the address. What it stores over an old value of n bytes: the sum wraps, minima and
maxima go by sign or without, and a compare-and-swap that finds another value than c stores nothing. -/
def Obligations.Atomics : Prop :=
  (let go (i : Instr) (d a : GReg) (op : AtomOp) (n : Nat) (o : AtomOrd) (b c : State → W64) : Prop :=
    Accesses i .st (fun s => (s.reg a).toNat % n = 0) (fun s => s.address a 0) n .atomic (atomOrdering o) soStore (fun s ps u =>
      (u.addAccess { cls := some .st, drain := some 1, purpose := .atom d op n (b s) (c s),
                     parts := ps.map fun p => p.part true [] }).awaitReg d) ∧
    Traps i (some .st) (fun s => (s.reg a).toNat % n ≠ 0) (fun _ => Cause.atomAlign) (fun s => s.reg a)
  ∀ (d a b c : GReg) sc wide o, let n := if wide then 8 else 4
    go (.atomSwap d a b sc wide o) d a .swap n o (·.reg b) (·.reg 0#5) ∧
    go (.atomCas d a b c sc wide o) d a .cas n o (·.reg b) (·.reg c) ∧
    go (.atomAdd d a b sc wide o) d a .add n o (·.reg b) (·.reg 0#5) ∧
    go (.atomAnd d a b sc wide o) d a .and n o (·.reg b) (·.reg 0#5) ∧
    go (.atomOr d a b sc wide o) d a .or n o (·.reg b) (·.reg 0#5) ∧
    go (.atomXor d a b sc wide o) d a .xor n o (·.reg b) (·.reg 0#5) ∧
    go (.atomMin d a b sc wide o) d a .min n o (·.reg b) (·.reg 0#5) ∧
    go (.atomMax d a b sc wide o) d a .max n o (·.reg b) (·.reg 0#5) ∧
    go (.atomMinn d a b sc wide o) d a .minn n o (·.reg b) (·.reg 0#5) ∧
    go (.atomMaxn d a b sc wide o) d a .maxn n o (·.reg b) (·.reg 0#5) ∧
    go (.atomFadd d a b sc o) d a .fadd 4 o (·.reg b) (·.reg 0#5)) ∧
  (∀ n old b c : Nat, n = 4 ∨ n = 8 → old < 2 ^ (8 * n) →
    let v := b % 2 ^ (8 * n)
    atomNew .swap n old b c = some v ∧ atomNew .add n old b c = some ((old + b) % 2 ^ (8 * n)) ∧
    atomNew .cas n old b c = (if old = c % 2 ^ (8 * n) then some v else none) ∧
    atomNew .and n old b c = some (old &&& v) ∧ atomNew .or n old b c = some (old ||| v) ∧
    atomNew .xor n old b c = some (old ^^^ v) ∧ atomNew .minn n old b c = some (min old v) ∧
    atomNew .maxn n old b c = some (max old v) ∧
    (∃ x, atomNew .min n old b c = some x ∧ (x = old ∨ x = v) ∧ sextNat x (8 * n) ≤ sextNat old (8 * n) ∧
      sextNat x (8 * n) ≤ sextNat v (8 * n)) ∧
    (∃ x, atomNew .max n old b c = some x ∧ (x = old ∨ x = v) ∧ sextNat old (8 * n) ≤ sextNat x (8 * n) ∧
      sextNat v (8 * n) ≤ sextNat x (8 * n)) ∧
    atomNew .fadd 4 old b c = some (fadd32 (BitVec.ofNat 32 old) (BitVec.ofNat 32 (b % 2 ^ 32))).1.toNat)

/-- The frame of the accesses: one that issues changes no byte of memory at its slot (its stores are performed at their homes,
HomeWriteFrame), no register, flag, tile, row of the frame or special register, no bell, VD or window, of a die only its last-level
TLB, and no other task; of the queues only that of its form (16 R371, R373 to R375, 17 R398, R400 to R402). -/
def Obligations.AccessFrame : Prop :=
  ∀ i s t, isAccess i = true → exec i s = .next t → t.cur.status = .issued → s.cur.status = .start → s.cur.commit = false →
    KeepsMemory s t ∧ KeepsOthers s t ∧ t.bells = s.bells ∧ t.vds = s.vds ∧ t.windows = s.windows ∧
      (∀ d, t.die d = { s.die d with llt := (t.die d).llt }) ∧
      t.copies = s.copies ∧ t.barriers = s.barriers ∧ KeepsRegisters s.landed.me t.me ∧ KeepsFlags s.landed.me t.me ∧
      KeepsSpecial s.landed.me t.me ∧ t.me.frame = s.landed.me.frame ∧ t.me.tiles = s.landed.me.tiles ∧
      t.me.wbuf = s.landed.me.wbuf ∧ t.me.tokens = s.landed.me.tokens ∧ t.me.counters = s.landed.me.counters ∧
      (∀ q, (∀ iq a off, i = .ldq iq a off → q ≠ iq.queue) → (∀ iq a n, i = .ldr iq a n → q ≠ iq.queue) →
        (∀ k a off, i = .stq k a off → q ≠ .qs k) → (∀ k a n, i = .str k a n → q ≠ .qs k) →
        t.me.queue q = s.landed.me.queue q)

/-! ### Bells and tiles -/

/-- BELLSET, BELLCLR and BELLQRY (07 R158 to R160, 15 R330): a BELLSET at level S makes its register wait for its arming point, at
which an entry is armed and its index, or why there is none, is on its way to the register; clearing frees an entry of the VD, a
query reads the state word of an own entry and 0 of any other; an index above 4095, and one to be cleared that is free or
another VD's, traps. -/
def Obligations.Bells : Prop :=
  let at' (s : State) (v : W64) : Nat := s.me.die * 4096 + v.toNat
  (∀ d a b c, Issues (.bellset d a b c) (some .bl) (fun s => s.me.priv.isS = true) fun s =>
    (s.addAccess { cls := some .bl, purpose := .arm d (s.reg a) (s.reg b) (s.reg c) s.me.s1root s.me.asid s.me.trVec }).awaitReg d) ∧
  (∀ (s : State) id x d (a b c root : W64) asid vec, NMap.find? s.accesses id = some x → x.purpose = .arm d a b c root asid vec →
    s.armAway x a b c root asid = false →
    let r := s.bellset x a b c root asid vec
    exec (.asyncResultLanding id) s = .next { r.2 with accesses := r.2.accesses.set id { x with purpose := .result d r.1 } } ∧
    (r.1.toNat < 2 ^ 63 → r.1.toNat < 4096 ∧ let y := r.2.bell (x.die * 4096 + r.1.toNat)
      y.state = .armed ∧ y.vd = x.vdk ∧ y.base = a ∧ y.len = b.toNat ∧ y.s1root = root ∧ y.asid = asid ∧ y.trVec = vec)) ∧
  (∀ a, Issues (.bellclr a) (some .bl) (fun s => s.me.priv.isS = true ∧ (s.reg a).toNat < 4096 ∧
      (s.bell (at' s (s.reg a))).state ≠ .free ∧ (s.bell (at' s (s.reg a))).vd = s.me.vdKey)
    fun s => s.modBell (at' s (s.reg a)) fun _ => {}) ∧
  (∀ a, Traps (.bellclr a) (some .bl) (fun s => s.me.priv.isS = true ∧ (4096 ≤ (s.reg a).toNat ∨
      (s.bell (at' s (s.reg a))).state = .free ∨ (s.bell (at' s (s.reg a))).vd ≠ s.me.vdKey))
    (fun _ => Cause.bellIndex) (fun s => s.reg a)) ∧
  (∀ d a, Issues (.bellqry d a) (some .bl) (fun s => (s.reg a).toNat < 4096) fun s => s.asyncResult d
    (if (s.bell (at' s (s.reg a))).state ≠ .free ∧ (s.bell (at' s (s.reg a))).vd = s.me.vdKey then
      (s.bell (at' s (s.reg a))).word else 0#64)) ∧
  (∀ d a, Traps (.bellqry d a) (some .bl) (fun s => 4096 ≤ (s.reg a).toNat) (fun _ => Cause.bellIndex) (fun s => s.reg a))

/-- TALLOC, TFREE, TDRAFT and TCOMMIT (08 R177, R178, R180, R181), with the traps of a draft already open or of a step above 65535, and of
a commit without a draft or of more rows than were drafted. TRD, TWR and TZERO (17 R408, R410, R411): an access that waits at the port
of the tile store, with a place reserved for what it reads and the entry taken that it writes; a row beyond the tile traps (08 R176). Every
one of them but TALLOC traps at a free handle. -/
def Obligations.Tiles : Prop :=
  ((∀ h d a len lvl, Issues (.talloc h d a len lvl) none (fun _ => True) fun s =>
     (s.talloc h (s.reg a).toNat len lvl).2.asyncResult d (s.talloc h (s.reg a).toNat len lvl).1) ∧
   (∀ h, Issues (.tfree h) none (fun s => (s.me.tile? h).isSome = true ∧ s.tileBusy h true = false) fun s =>
     s.modMe fun t => { t with tiles := NMap.erase t.tiles h.toNat }) ∧
   (let free (i : Instr) (h : BitVec 8) : Prop :=
      Traps i none (fun s => s.me.tile? h = none) (fun _ => Cause.tileHandle) fun _ => h.setWidth 64
    ∀ h d a off iq (q : BitVec 2) n, free (.tfree h) h ∧ free (.tdraft h d a) h ∧ free (.tcommit h d a) h ∧ free (.trd h a off iq) h ∧
      free (.twr h a off q) h ∧ free (.tzero h a off n) h) ∧
   (∀ h d a, Traps (.tdraft h d a) none (fun s => (s.me.tile? h).any (fun x => !x.dopen) = true ∧ 65535 < (s.reg a).toNat)
     (fun _ => Cause.tileDraft) fun _ => BitVec.ofNat 64 (h.toNat + 512)) ∧
   (∀ h d a, Traps (.tcommit h d a) none (fun s => (s.me.tile? h).any (fun x => !x.dopen) = true ∧ s.tileBusy h false = false)
     (fun _ => Cause.tileDraft) fun _ => BitVec.ofNat 64 (h.toNat + 768)) ∧
   (∀ h d a s x, s.admits (.tdraft h d a) none = true → s.landed.me.tile? h = some x → x.dopen = false →
     (s.landed.reg a).toNat ≤ 65535 → s.landed.tileBusy h false = false →
     let y : Tile := { x with dopen := true, dbase := x.clen, dlen := 0, snap := s.landed.me.rngCtr, dc := (s.landed.reg a).toNat }
     exec (.tdraft h d a) s = .next (((s.landed.modMe fun t => { t with tiles := t.tiles.set h.toNat y }).asyncResult d
       (BitVec.ofNat 64 x.clen)).issued)) ∧
   (∀ h d a s x, s.admits (.tcommit h d a) none = true → s.landed.me.tile? h = some x → s.landed.tileBusy h false = false →
     x.dopen = true → (s.landed.reg a).toNat ≤ x.dlen →
     ∃ y : Tile, y.clen = x.dbase + (s.landed.reg a).toNat ∧ y.dopen = false ∧ y.dlen = 0 ∧ y.rows = x.rows ∧
       (∀ r, y.rowAt r = if x.dbase + (s.landed.reg a).toNat ≤ r ∧ r < x.dbase + x.dlen then 0#4096 else x.rowAt r) ∧
       exec (.tcommit h d a) s = .next (((s.landed.modMe fun t =>
         { t with tiles := t.tiles.set h.toNat y, rngCtr := x.snap + BitVec.ofNat 128 ((s.landed.reg a).toNat * x.dc) }).asyncResult d
           (BitVec.ofNat 64 y.clen)).issued)) ∧
   (∀ h d a, Traps (.tdraft h d a) none (fun s => (s.me.tile? h).any (·.dopen) = true) (fun _ => Cause.tileDraft)
     fun _ => BitVec.ofNat 64 (h.toNat + 256)) ∧
   (∀ h d a, Traps (.tcommit h d a) none (fun s => (s.me.tile? h).any (fun x => x.dopen && x.dlen < (s.reg a).toNat) = true ∧
       s.tileBusy h false = false) (fun _ => Cause.tileDraft) fun _ => BitVec.ofNat 64 (h.toNat + 1024))) ∧
  (let within (h : BitVec 8) (n : State → Nat) (s : State) : Prop := (s.me.tile? h).any (fun x => n s < x.rows) = true
   (∀ h a off q, Issues (.trd h a off q) none
     (fun s => within h (fun s => s.rowOf a off) s ∧ (s.me.queue q.queue).length < 16) fun s =>
       (s.addAccess { drain := some 3, purpose := .tileRead h.toNat (s.rowOf a off) q.queue.code s.nextId }).modMe fun t =>
         t.reserve q.queue s.nextId) ∧
   (∀ h a off (q : BitVec 2), Issues (.twr h a off q) none
     (fun s => within h (fun s => s.rowOf a off) s ∧ 1 ≤ arrived (s.me.queue (.qs q))) fun s =>
       (s.addAccess { drain := some 3, purpose := .tileWrite h.toNat (s.rowOf a off) ((s.entries q 1).headD 0#4096) }).popN q 1) ∧
   (∀ h a off (n : BitVec 4), Issues (.tzero h a off n) none (fun s => within h (fun s => s.rowOf a off + n.toNat) s) fun s =>
     s.addAccess { drain := some 3, purpose := .tileZero h.toNat ((List.range (n.toNat + 1)).map (s.rowOf a off + ·)) }) ∧
   (∀ h a off iq, Traps (.trd h a off iq) none (fun s => (s.me.tile? h).any (fun x => x.rows ≤ s.rowOf a off) = true)
     (fun _ => Cause.tileRow) fun s => BitVec.ofNat 64 (h.toNat + s.rowOf a off % 2 ^ 48 * 2 ^ 16)) ∧
   (∀ h a off (q : BitVec 2), Traps (.twr h a off q) none (fun s => (s.me.tile? h).any (fun x => x.rows ≤ s.rowOf a off) = true)
     (fun _ => Cause.tileRow) fun s => BitVec.ofNat 64 (h.toNat + s.rowOf a off % 2 ^ 48 * 2 ^ 16)) ∧
   (∀ h a off n, Traps (.tzero h a off n) none (fun s => (s.me.tile? h).any (fun x => x.rows ≤ s.rowOf a off + n.toNat) = true)
     (fun _ => Cause.tileRow) fun s => BitVec.ofNat 64 (h.toNat + (s.rowOf a off + n.toNat) % 2 ^ 48 * 2 ^ 16)))

/-- Completed writes extend a tile's lengths, with no draft open the committed one, with a draft open the draft's, and not at all
below its base; what a row reads as depends on neither length (08 R179). -/
def Obligations.TileLengths : Prop :=
  ∀ (x : Tile) i e,
    (x.dopen = false → (x.write i e).clen = max x.clen (i + 1) ∧ (x.write i e).dlen = x.dlen) ∧
    (x.dopen = true → x.dbase ≤ i → (x.write i e).dlen = max x.dlen (i - x.dbase + 1) ∧ (x.write i e).clen = x.clen) ∧
    (x.dopen = true → i < x.dbase → (x.write i e).dlen = x.dlen ∧ (x.write i e).clen = x.clen) ∧
    (∀ c d r, ({ x with clen := c, dlen := d } : Tile).rowAt r = x.rowAt r) ∧
    (∀ h last s k, s.me.tile? h = some x → last < x.rows → rowCheck h last s k = k)

/-! ### Copies -/

/-- NEST and the copy family (11 R240 to R247, 16 R360, 17 R387, 18 R439): NEST sets a level or the event of its channel; a copy
whose checks pass is accepted, which raises its counter by one and advances its destination register one slot later; a count
above 65535 and an event address that is not a multiple of 8 trap.
Where the manual leaves a choice, the model's is in log 23. -/
def Obligations.Copies : Prop :=
  let ok (mk : State → Copy) (word : State → W64) (s : State) : Prop := (mk s).check (word s) s = .ok
  let chan (ch : BitVec 2) (f : Chan → Chan) (s : State) : State :=
    s.modMe fun t => { t with chans := t.chans.set ch.toNat (f (t.chans.getD ch.toNat {})) }
  let nest (ch : BitVec 2) (ctr : BitVec 4) (kind : CopyKind) (rd ra rb : GReg) (dk sk : EndKind) (s : State) : Copy :=
    s.nestCopy ch ctr kind (endpointOf dk (s.reg rd)) (endpointOf sk (s.reg ra)) rb
  ∀ (ch : BitVec 2) (rd ra rb rc : GReg) (dk sk : EndKind) (ctr : BitVec 4),
    (∀ l : BitVec 3, l.toNat < 6 →
      Issues (.nest ch l ra rb rc) none (fun s => (s.reg ra).toNat ≤ 65535) (fun s =>
        chan ch (fun c => { c with nest := c.nest.set l.toNat ⟨(s.reg ra).toNat, s.reg rb, s.reg rc⟩ }) s) ∧
      Traps (.nest ch l ra rb rc) none (fun s => 65535 < (s.reg ra).toNat) (fun _ => Cause.copyParam) State.wordVal) ∧
    Issues (.nestEvent ch ra rb) none (fun s => (s.reg ra).toNat % 8 = 0) (fun s => chan ch (fun c =>
      { c with event := s.reg ra, status := if (s.reg rb).getLsbD 0 then 0#32 else c.status }) s) ∧
    Traps (.nestEvent ch ra rb) none (fun s => (s.reg ra).toNat % 8 ≠ 0) (fun _ => Cause.copyAlign) State.wordVal ∧
    Issues (.copy ch rd ra rb dk sk ctr) (some .cp) (ok (nest ch ctr .nest rd ra rb dk sk) fun _ => 0) (fun s =>
      s.accept rd (nest ch ctr .nest rd ra rb dk sk s)) ∧
    (∀ rop ty, okCopyr rop ty = true →
      Issues (.copyr ch rd ra rb dk sk rop ty ctr) (some .cp) (ok (nest ch ctr (.reduce rop ty) rd ra rb dk sk) fun _ => 0) (fun s =>
        s.accept rd (nest ch ctr (.reduce rop ty) rd ra rb dk sk s))) ∧
    Issues (.wbf ch rd ra rb sk ctr) (some .cp)
      (ok (fun s => s.nestCopy ch ctr .nest (.wbuf (bits (s.reg rd) 8 0)) (endpointOf sk (s.reg ra)) rb) fun _ => 0) (fun s =>
        s.accept rd (s.nestCopy ch ctr .nest (.wbuf (bits (s.reg rd) 8 0)) (endpointOf sk (s.reg ra)) rb)) ∧
    Issues (.copyw ch rd ra rb rc dk sk ctr) (some .cp) (ok (·.windowCopy ch rd ra rb rc dk sk ctr) (·.reg rc))
      (fun s => s.accept rd (s.windowCopy ch rd ra rb rc dk sk ctr)) ∧
    Issues (.copyg ch rd ra rb rc dk sk ctr) (some .cp) (ok (·.indexCopy ch rd ra rb rc dk sk ctr false) fun _ => 0)
      (fun s => s.accept rd (s.indexCopy ch rd ra rb rc dk sk ctr false)) ∧
    Issues (.copys ch rd ra rb rc dk sk ctr) (some .cp) (ok (·.indexCopy ch rd ra rb rc dk sk ctr true) fun _ => 0)
      (fun s => s.accept rd (s.indexCopy ch rd ra rb rc dk sk ctr true)) ∧
    (∀ (s : State) c, (s.accept rd c).me.counters.getD c.ctr 0 = s.me.counters.getD c.ctr 0 + 1)

/-! ### Musters -/

/-- MJOIN and MCLOSE ask the group's root and wait for its word, or learn at once that a check failed (13 R294, R300, 17 R377);
MCTB and MLDR of a member send a contribution once their reads return (13 R295); MST takes an entry, and its packet goes out with
the offset's low six bits 0, or, with no destination, its ack of no member is stored (13 R289, 17 R384). The entry that a group word is
judged by can be read without a record and lies, like the member's block, where a route leads (13 R278), and no generation of a pending
MLDR on the die has changed. The tag of MJOIN's word is 0 when the check on its own die fails, where the rule's open tag is not known:
that is the model's choice (DESIGN CHOICE, log 68).
Where the manual leaves a choice, the model's is in logs 32 and 68. -/
def Obligations.MusterInstructions : Prop :=
  let same (w : Nat) (s : State) : Prop := s.judging s.me.die s.me.vd w = s ∧ s.groupAway s.me.die s.me.vd (gwId w) = false
  let near (w m : Nat) (s : State) : Prop := s.sourceAway s.me.die s.me.vd w m = false
  let ask (rd : GReg) (w m tag close : Nat) (s : State) (g : Group) : State :=
    ((s.addAccess { purpose := .reply rd }).awaitReg rd).inject
      { kind := 10, vd := s.me.vd, gang := s.me.gang.toNat, src := s.me.die, dst := g.root, at' := s.me.die,
        a := groupField w tag m, b := BitVec.ofNat 64 close, acc := s.nextId }
  let told (i : Instr) (rd : GReg) (w m tag : State → Nat) (close : Nat) : Prop :=
    (∀ s g, s.admits i none = true → same (w s.landed) s.landed →
      s.landed.checkMember s.landed.me.die s.landed.me.vd (w s.landed) (m s.landed) = .ok g →
      exec i s = .next (ask rd (w s.landed) (m s.landed) (tag s.landed) close s.landed g).issued) ∧
    (∀ s c, s.admits i none = true → same (w s.landed) s.landed →
      s.landed.checkMember s.landed.me.die s.landed.me.vd (w s.landed) (m s.landed) = .error c →
      exec i s = .next (s.landed.asyncResult rd (BitVec.ofNat 64 (musterWord (4 + close) c 0 0 0 (tag s.landed)))).issued)
  let give (w m tag : Nat) (bf16 : Bool) (e : Nat) (q : Option (Nat × Nat)) (drain : Option Nat) (die : Nat) (ps : List Piece)
      (u : State) : State :=
    u.addAccess { cls := some .fb, drain, purpose := .contribute w m tag bf16 e q false, parts := u.readParts die ps }
  (∀ rd a b, told (.mjoin rd a b) rd (fun s => (s.reg a).toNat % 2 ^ 16) (fun s => bits (s.reg b) 8 0) (fun _ => 0) 0) ∧
  (∀ rd a b, told (.mclose rd a b) rd (fun s => (s.reg a).toNat % 2 ^ 16) (fun s => bits (s.reg a) 24 16)
    (fun s => bits (s.reg b) 15 0) 1) ∧
  (∀ a b c s g ps u, s.admits (.mctb a b c) (some .fb) = true → same ((s.landed.reg b).toNat % 2 ^ 16) s.landed →
    near ((s.landed.reg b).toNat % 2 ^ 16) (bits (s.landed.reg b) 24 16) s.landed →
    s.landed.checkMember s.landed.me.die s.landed.me.vd ((s.landed.reg b).toNat % 2 ^ 16) (bits (s.landed.reg b) 24 16) = .ok g →
    s.landed.reaches (s.landed.reg a).toNat ((if g.bf16 then 2 else 4) * g.e) .read ps u →
    exec (.mctb a b c) s = .next (give ((s.landed.reg b).toNat % 2 ^ 16) (bits (s.landed.reg b) 24 16) (bits (s.landed.reg c) 15 0)
      g.bf16 g.e none none s.landed.me.die ps u).issued) ∧
  (∀ q a b c bf16 s g ps u, s.admits (.mldr q a b c bf16) (some .fb) = true → (s.landed.me.queue q.queue).length < 16 →
    same ((s.landed.reg b).toNat % 2 ^ 16) s.landed → near ((s.landed.reg b).toNat % 2 ^ 16) (bits (s.landed.reg b) 24 16) s.landed →
    s.landed.checkMember s.landed.me.die s.landed.me.vd ((s.landed.reg b).toNat % 2 ^ 16) (bits (s.landed.reg b) 24 16) = .ok g →
    s.landed.reaches (s.landed.reg a).toNat ((if bf16 then 2 else 4) * g.e) .read ps u →
    exec (.mldr q a b c bf16) s = .next ((give ((s.landed.reg b).toNat % 2 ^ 16) (bits (s.landed.reg b) 24 16)
      (bits (s.landed.reg c) 15 0) bf16 g.e (some (q.queue.code, s.landed.nextId)) (some 0) s.landed.me.die ps u).modMe fun t =>
        t.reserve q.queue s.landed.nextId).issued) ∧
  (∀ (q : BitVec 2) a b h c s x ps u, s.admits (.mst q a b h c) (some .fb) = true → s.landed.me.tile? h = some x →
    s.landed.mstRow c < x.rows → (s.landed.accesses.any fun a => a.2.uid = s.landed.cur.uid && a.2.eng == .sta && a.2.atPort) = false →
    s.landed.translate (.task s.cur.uid s.cur.eng) s.cur.uid
      (dword (toBytes 512 (x.rowAt (s.landed.mstRow c))) 9 / 64 % 2 ^ 50 * 64) 128 .write = .ok ps u →
    1 ≤ arrived (u.me.queue (.qs q)) →
      let sends : Purpose :=
        .mst ((u.reg b).toNat % 2 ^ 16) (dword (toBytes 512 (x.rowAt (s.landed.mstRow c))) 9 / 64 % 2 ^ 50 * 64) [] none
      (leNat ((toBytes 512 (x.rowAt (s.landed.mstRow c))).take 64) = 0 → exec (.mst q a b h c) s = .next
        (((u.addAccess { cls := some .fb, drain := some 1, purpose := sends }).popN q 1).storeAck u.nextId
          (List.replicate 128 0#8)).issued) ∧
      (leNat ((toBytes 512 (x.rowAt (s.landed.mstRow c))).take 64) ≠ 0 → ∃ t, exec (.mst q a b h c) s = .next t ∧
        t.me.queue (.qs q) = (u.me.queue (.qs q)).tail ∧ ∃ p, NMap.find? t.packets (u.nextId + 1) = some p ∧ p.kind = 6 ∧ p.src = u.me.die ∧
          p.str = leNat ((toBytes 512 (x.rowAt (s.landed.mstRow c))).take 64) ∧ p.b = u.reg a &&& ~~~63#64))

/-! ### The matrix engine -/

/-- WLD latches entries of the weight buffer into the idle plane, which becomes the active one when the latching is through;
MMA and MMAT take an activation entry and put a row into the delay line that lands 132 slots later; MZERO clears at its slot
(10 R229, R232 to R235).
Where the manual leaves a choice, the model's is in log 19. -/
def Obligations.MatrixEngine : Prop :=
  let slots (t : Ty) : Nat := (latchEntries t + 1) / 2 + 4
  let entry (s : State) (e i : Nat) : Entry := s.me.wbuf.getD ((e + i) % 512) 0#4096
  let plane (t : Ty) (e : Nat) (s : State) : Plane := { fmt := some t, latch := (List.range (latchEntries t)).map (entry s e), entry := e }
  (∀ t (e : BitVec 9), okPlane t = true → Issues (.wld t e) none (fun s => wldCheck t s = .ok) fun s =>
    (s.modMe fun u => if u.activePlane then { u with plane0 := plane t e.toNat s } else { u with plane1 := plane t e.toNat s }).later
      (slots t) .plane 0#4096 (flagIf (latchBlk t (plane t e.toNat s).latch) flBLK)) ∧
  (∀ z k t q ov, okPlane t = true → Issues (.mma z k t q ov) none (fun s => mmaCheck t q s = .ok) (mmaEffect z k t q ov none)) ∧
  (∀ z k t q ov g off, okPlane t = true → Issues (.mmat z k t q ov g off) none (fun s => mmaCheck t q s = .ok)
    fun s => mmaEffect z k t q ov (some (off, (s.breg g).setWidth 32)) s) ∧
  (∀ z k t q ov m (s : State), ∃ p, (mmaEffect z k t q ov m s).eng.pend.getLast? = some p ∧ p.rem = 132 ∧ p.slot = .m ∧
    p.dest = .vec ⟨z, .h, k⟩) ∧
  (∀ x, Issues (.mzero x) none (fun _ => True) fun s => s.write (match x with | .vec f => .vec f 0#4096 | .whole z => .clear z)) ∧
  (∀ (t : Task) z k, (t.applyWrite (.clear z)).row z k = 0#4096) ∧
  (∀ z k t q ov, okPlane t = true → Traps (.mma z k t q ov) none (fun s => (s.me.plane s.me.activePlane).fmt = none)
    (fun _ => Cause.mmaNoplane) State.wordVal)

/-! ### Vectors -/

/-- The element-wise instructions (18 R418 to R421): each value of the destination comes from the values of the sources in its
place, available 4 slots later, of VMUL 5, of the bitwise ones 2 (18 R416). The functions of V1 and the fused forms (18 R418, R419,
R425, R433): rounded once, available after the slots that 18 R416 lists; VSEL takes each bit from fa where fc has a 1 and from fb
elsewhere.
Where the manual leaves a choice, the model's is in log 10. -/
def Obligations.VectorElements : Prop :=
  (let ready (i : Instr) (s : State) : Prop := s.popsReady i = true
   let two (i : Instr) (n : Nat) (d : VDst) (a b : VSrc) (t : Ty) (r : Rnd) (f : Nat → Nat → Nat → Nat × Flags) : Prop :=
     i.typesOk = true → Issues i none (ready i) fun s =>
       let u := ((s.source (tyWidth t) a).2.source (tyWidth t) b).2
       (u.converter r).2.deliver n d (eachElem (tyWidth t) (4096 / tyWidth t) fun e => f (dither (u.converter r).1 (tyWidth t) e)
         (elemAt (tyWidth t) (s.source (tyWidth t) a).1 e) (elemAt (tyWidth t) ((s.source (tyWidth t) a).2.source (tyWidth t) b).1 e))
   let one (i : Instr) (n : Nat) (d : VDst) (a : VSrc) (t : Ty) (r : Rnd) (f : Nat → Nat → Nat × Flags) : Prop :=
     i.typesOk = true → Issues i none (ready i) fun s =>
       let u := (s.source (tyWidth t) a).2
       (u.converter r).2.deliver n d (eachElem (tyWidth t) (4096 / tyWidth t) fun e => f (dither (u.converter r).1 (tyWidth t) e)
         (elemAt (tyWidth t) (s.source (tyWidth t) a).1 e))
   let bits2 (i : Instr) (d : VDst) (a b : VSrc) (t : Ty) (f : Entry → Entry → Entry) : Prop :=
     Issues i none (ready i) fun s => ((s.source (tyWidth t) a).2.source (tyWidth t) b).2.deliver 2 d
       (f (s.source (tyWidth t) a).1 ((s.source (tyWidth t) a).2.source (tyWidth t) b).1, 0#9)
   ∀ (d : VDst) (a b : VSrc) (t : Ty) (r : Rnd),
     two (.vadd d a b t r) 4 d a b t r (addValue t r) ∧ two (.vsub d a b t r) 4 d a b t r (subValue t r) ∧
     two (.vmul d a b t r) 5 d a b t r (mulValue t r) ∧
     two (.vmin d a b t) 4 d a b t .rne (fun _ x y => (pickValue t false x y, 0#9)) ∧
     two (.vmax d a b t) 4 d a b t .rne (fun _ x y => (pickValue t true x y, 0#9)) ∧
     two (.vshl d a b t) 4 d a b t .rne (fun _ x y => (shiftValue t true x y, 0#9)) ∧
     two (.vshr d a b t) 4 d a b t .rne (fun _ x y => (shiftValue t false x y, 0#9)) ∧
     (∀ c, two (.vcmp c d a b t) 4 d a b t .rne (fun _ x y => (cmpValue t c x y, 0#9))) ∧
     one (.vabs d a t) 4 d a t .rne (fun _ x => absValue t x) ∧ one (.vneg d a t) 4 d a t .rne (fun _ x => negValue t x) ∧
     bits2 (.vand d a b t) d a b t (· &&& ·) ∧ bits2 (.vor d a b t) d a b t (· ||| ·) ∧ bits2 (.vxor d a b t) d a b t (· ^^^ ·) ∧
     Issues (.vnot d a t) none (ready (.vnot d a t))
       (fun s => (s.source (tyWidth t) a).2.deliver 2 d (~~~(s.source (tyWidth t) a).1, 0#9)) ∧
     Issues (.vmov d a t) none (ready (.vmov d a t)) (fun s => (s.source (tyWidth t) a).2.deliver 2 d ((s.source (tyWidth t) a).1, 0#9))) ∧
  (let ready (i : Instr) (s : State) : Prop := s.popsReady i = true
   let fn (i : Instr) (n : Nat) (d : VDst) (a : VSrc) (t : Ty) (r : Rnd) (f : Sys2Proof.Machine.Num → Sys2Proof.Machine.Num × Flags) : Prop :=
     t.isWide = true → Issues i none (ready i) fun s =>
       let u := (s.source (tyWidth t) a).2
       (u.converter r).2.deliver n d (eachElem (tyWidth t) (4096 / tyWidth t) fun e =>
         funValue f t r (dither (u.converter r).1 (tyWidth t) e) (elemAt (tyWidth t) (s.source (tyWidth t) a).1 e))
   let fused (i : Instr) (d : VDst) (a b c : VSrc) (t : Ty) (r : Rnd) (np na : Bool) : Prop :=
     t.isWide = true → Issues i none (ready i) fun s =>
       let x := s.source (tyWidth t) a
       let y := x.2.source (tyWidth t) b
       let z := y.2.source (tyWidth t) c
       (z.2.converter r).2.deliver 6 d (eachElem (tyWidth t) (4096 / tyWidth t) fun e =>
         fusedValue t r (dither (z.2.converter r).1 (tyWidth t) e) np na (elemAt (tyWidth t) x.1 e) (elemAt (tyWidth t) y.1 e)
           (elemAt (tyWidth t) z.1 e))
   ∀ (d : VDst) (a b c : VSrc) (t : Ty) (r : Rnd),
     fn (.vexp d a t r) 16 d a t r funExp ∧ fn (.vlog d a t r) 16 d a t r funLog ∧ fn (.vrcp d a t r) 12 d a t r funRcp ∧
     fn (.vrsq d a t r) 12 d a t r funRsq ∧ fn (.vsqrt d a t r) 14 d a t r funSqrt ∧ fn (.vtanh d a t r) 16 d a t r funTanh ∧
     fused (.vfma d a b c t r) d a b c t r false false ∧ fused (.vfms d a b c t r) d a b c t r false true ∧
     fused (.vfnma d a b c t r) d a b c t r true false ∧
     Issues (.vsel d a b c t) none (ready (.vsel d a b c t)) (fun s =>
       let x := s.source (tyWidth t) a
       let y := x.2.source (tyWidth t) b
       let m := y.2.source (tyWidth t) c
       m.2.deliver 2 d ((x.1 &&& m.1) ||| (y.1 &&& ~~~m.1), 0#9)))

/-- Conversions and reductions (18 R423, R424, R427, R430 to R432): what each leaves, with its flags, and after how many
slots (18 R416). VQNT writes its two vectors and its flags at its own slot. Moves, ranking and random values (05 R119, 10 R236, 17 R395, 18
R417, R426, R428, R429): what each leaves and when. SELK writes its two registers at its own slot; RNGV and SMPL draw one row
of the random stream. What it says of flags
beyond the manual's words is the model's: those of VRED's and VSCAN's additions (DEDUCED, log 51), the value of a negative integer that
VCVT converts to a wider n type (DESIGN CHOICE, log 53), and that VDQ sets no NV for 0 times infinity (DESIGN CHOICE, log 68). -/
def Obligations.VectorConversions : Prop :=
  (let ready (i : Instr) (s : State) : Prop := s.popsReady i = true
   ∀ (d : VDst) (a b : VSrc) (t u : Ty) (r : Rnd) (op : RedOp) (f g h : FVec) (n : BitVec 4),
     Issues (.vcvt d a t u r) none (ready (.vcvt d a t u r)) (fun s =>
       let x := s.source (tyWidth u) a
       (x.2.converter r).2.deliver 6 d (eachElem (tyWidth t) (min (4096 / tyWidth t) (4096 / tyWidth u)) fun e =>
         convert u t r (dither (x.2.converter r).1 (tyWidth t) e) (elemAt (tyWidth u) x.1 e))) ∧
     Issues (.vqnt f g h n t r) none (fun _ => True) (fun s =>
       let block (k : Nat) := quantBlock t ((s.breg n).toNat % 512) r (fun j => ditherU (s.converter r).1 (32 * k + j) 0)
         ((List.range 32).map fun j => f32val (lane (s.me.vec g) (32 * k + j)))
       let join (w : Nat) (v : Nat → Nat) : Entry :=
         BitVec.ofNat 4096 (((List.range 4).map v).foldr (fun q acc => q % 2 ^ w + acc * 2 ^ w) 0)
       (((s.converter r).2.write (.vec f (join (blockElemBits t) fun k => (block k).1))).write
         (.vec h (join 32 fun k => (block k).2.1))).write
           (.flags ((block 0).2.2 ||| (block 1).2.2 ||| (block 2).2.2 ||| (block 3).2.2))) ∧
     Issues (.vdq d a b t r) none (ready (.vdq d a b t r)) (fun s =>
       let x := s.source (tyWidth t) a
       let y := x.2.source 32 b
       let row := blockRow t ((List.range 4).map fun k =>
         blockJoin t (x.1.toNat / 2 ^ (blockElemBits t * k)) (lane y.1 k).toNat)
       let z := eachElem 32 128 fun e => fmtF32.round r (dither (y.2.converter r).1 32 e) (row.1.getD e .nan)
       (y.2.converter r).2.deliver 8 d (z.1, z.2 ||| flagIf row.2 flBLK)) ∧
     Issues (.vred op d a t r) none (ready (.vred op d a t r)) (fun s =>
       let x := s.source (tyWidth t) a
       let y := scan op t r (fun _ => dither (x.2.converter r).1 (tyWidth t) 0)
         ((List.range (4096 / tyWidth t)).map (elemAt (tyWidth t) x.1))
       (x.2.converter r).2.deliver 10 d
         (ofElems (tyWidth t) (4096 / tyWidth t) fun _ => (y.1.getLastD (0, 0#9)).1, (y.1.getLastD (0, 0#9)).2 ||| y.2)) ∧
     Issues (.vscan op d a t r) none (ready (.vscan op d a t r)) (fun s =>
       let x := s.source (tyWidth t) a
       let y := scan op t r (dither (x.2.converter r).1 (tyWidth t)) ((List.range (4096 / tyWidth t)).map (elemAt (tyWidth t) x.1))
       (x.2.converter r).2.deliver 14 d
         (BitVec.ofNat 4096 (y.1.foldr (fun v acc => v.1 % 2 ^ tyWidth t + acc * 2 ^ tyWidth t) 0),
           y.1.foldl (fun g v => g ||| v.2) y.2)) ∧
     Issues (.vmaxi d a t) none (ready (.vmaxi d a t)) (fun s =>
       let x := s.source (tyWidth t) a
       let y := largest t ((List.range (4096 / tyWidth t)).map (elemAt (tyWidth t) x.1))
       x.2.deliver 10 d (BitVec.ofNat 4096 (y.1 + y.2 * 2 ^ 32), 0#9))) ∧
  (let ready (i : Instr) (s : State) : Prop := s.popsReady i = true
   ∀ (d : VDst) (a b : VSrc) (t : Ty) (r : Rnd) (f : FVec) (q : BitVec 2) (g : BitVec 4) (zi zv zs : BitVec 3),
     Issues (.vperm d a b) none (ready (.vperm d a b)) (fun s =>
       let x := s.source 32 a
       let y := x.2.source 32 b
       y.2.deliver 4 d (ofLanes fun i =>
         if (lane y.1 i).getLsbD 31 then 0#32 else lane x.1 ((lane y.1 i).toNat % 128), 0#9)) ∧
     Issues (.vlut d a b t r) none (ready (.vlut d a b t r)) (fun s =>
       let x := s.source 32 a
       let y := x.2.source 32 b
       (y.2.converter r).2.deliver 8 d (eachElem 32 128 fun e =>
         lutValue t r (dither (y.2.converter r).1 32 e) y.1 (elemAt 32 x.1 e))) ∧
     Issues (.selk zi zv zs g t) none (fun _ => True) (fun s =>
       let m := min (s.breg g).toNat 128
       let col (j : Nat) := ranked t ((List.range 128).map fun i => (lane (s.me.row zs i) j).toNat)
       (s.write (.whole zi ((List.range m).map fun k => ofElems 32 128 fun j => ((col j).getD k (0, 0)).1))).write
         (.whole zv ((List.range m).map fun k => ofElems 32 128 fun j => ((col j).getD k (0, 0)).2))) ∧
     Issues (.rngv d t) none (fun _ => True) (fun s =>
       (s.modMe fun u => { u with rngCtr := u.rngCtr + 32#128 }).deliver 20 d (eachElem 32 128 fun j =>
         if t = .n32 then (philoxLane s.me.rngKey s.me.rngCtr j, 0#9)
         else fmtF32.round .rne 0 (.fin false (philoxLane s.me.rngKey s.me.rngCtr j / 2 ^ 8) (2 ^ 24)))) ∧
     Issues (.smpl d a g) none (ready (.smpl d a g)) (fun s =>
       let x := s.source 32 a
       let y := smplIndex x.2.me.rngKey x.2.me.rngCtr x.1 ((x.2.breg g).setWidth 32)
       (x.2.modMe fun u => { u with rngCtr := u.rngCtr + 32#128 }).deliver 28 d (ofLanes fun _ => BitVec.ofNat 32 y.1, y.2)) ∧
     Issues (.vpop f q) none (fun s => 1 ≤ arrived (s.me.queue (.qv q))) (fun s =>
       (s.modMe fun u => u.pop (.qv q)).later 1 (.vec f) ((s.me.front (.qv q)).getD 0#4096)) ∧
     Issues (.vpush q (.vec f)) none (fun _ => True) (fun s => s.later 1 (.qs q) (s.me.vec f)) ∧
     Issues (.vpush q (.bcast g)) none (fun _ => True) (fun s => s.later 1 (.qs q) (broadcast 32 (s.breg g))))

/-- VBCST delivers an entry whose every lane has the 32 bits of the named lane of its source, two slots later and without a flag
(18 R422); when a vector of the frame takes an entry, that vector reads as it in every lane. -/
def Obligations.VbcstLane : Prop :=
  (∀ (d : VDst) (a : VSrc) (l : BitVec 7) s, s.admits (.vbcst d a l) none = true →
    s.landed.popsReady (.vbcst d a l) = true →
    ∃ e : Entry, (∀ i, i < 128 → lane e i = lane (s.landed.source 32 a).1 l.toNat) ∧
      exec (.vbcst d a l) s = .next ((s.landed.source 32 a).2.deliver 2 d (e, 0#9)).issued) ∧
  (∀ (t : Task) (f : FVec) (e : Entry) i, i < 128 → lane ((t.setVec f e).vec f) i = lane e i) ∧
  (∀ (s : State) n f (e : Entry), (s.deliver n (.vec f) (e, 0#9)).cur = s.cur ∧
    ((s.deliver n (.vec f) (e, 0#9)).eng.pend.getLast? = some
      { rem := n, slot := s.cur.slot, dest := .vec f, data := e, flags := 0#9 }))

/-- The frame of the vector instructions that draw nothing: no byte of memory, nothing outside the task, no register, queue,
tile, flag or special register changes at issue, nor does another sequencer; one result is put into the delay line, and it lands
in the vector or queue that fd names (18 R412, R418 to R422, R428). A vector of the frame that is written changes exactly its 128
elements (02 R38): every lane of every row that is not one of them is as it was. -/
def Obligations.VectorFrame : Prop :=
  (∀ i s, isQuietVector i = true → s.admits i none = true → s.cur.eng = .exe →
    ∃ t p, exec i s = .next t ∧ KeepsMemory s t ∧ KeepsMachine s t ∧ KeepsOthers s t ∧ KeepsRegisters s.landed.me t.me ∧
      KeepsStorage s.landed.me t.me ∧ KeepsFlags s.landed.me t.me ∧ KeepsSpecial s.landed.me t.me ∧
      (∀ e, e ≠ .exe → t.me.eng e = s.landed.me.eng e) ∧ t.eng.async = s.landed.eng.async ∧
      t.eng.pend = s.landed.eng.pend ++ [p] ∧ ∃ d, vdst i = some d ∧ p.dest = landing d) ∧
  (∀ (t : Task) (f : FVec) (e : Entry) (z : BitVec 3) k j, k < 128 → j < 128 →
    (∀ i, i < 128 → z = f.reg → vecElem f i ≠ (k, j)) → lane ((t.setVec f e).row z k) j = lane (t.row z k) j)

/-! ### Events of a core -/

/-- Results land (06 R145, R147, 10 R229, R232): a due register result, an accumulator row formed at its read, a due plane switch, and an
asynchronous result whose value has returned. Entries of queues move by themselves (16 R374, 10 R228): an entry whose bytes have returned
enters its place once the earlier ones have theirs, which completes its access but for QW (17 R408), and the oldest entry of QW is written
into the weight buffer at the fill cursor, which moves on, unless a WLD in flight has taken the entry there (10 R229). Nothing of the delay
line and of the fill port moves while the core is frozen (12 R273).
Where the manual leaves a choice, the model's is in log 33. -/
def Obligations.Landings : Prop :=
  ((∀ (s : State) uid e sl r v f, ((s.task uid).eng e).pend = [{ rem := 0, slot := sl, dest := .reg r, data := v, flags := f }] →
     r ≠ 0#5 → s.frozen uid = false →
     ∃ t, exec (.delayLineLanding uid e) s = .next t ∧ KeepsMemory s t ∧ ((t.task uid).eng e).get r = v.setWidth 64 ∧
       ((t.task uid).eng e).pend = [] ∧
       (t.task uid).arFlags = (s.task uid).arFlags ||| ((s.task uid).eng e).flagsDue ||| f ∧
       ∀ q, q ≠ r → ((t.task uid).eng e).get q = ((s.task uid).eng e).get q) ∧
   (∀ (s : State) uid p m f, (s.task uid).exe.pend = [p] → p.rem = 0 → p.mat = some m → p.dest = .vec f → s.frozen uid = false →
     let w := m.result (if m.plane then (s.task uid).plane1 else (s.task uid).plane0) f.idx.toNat ((s.task uid).vec f)
     ∃ t, exec (.mmaAccumulatorRead uid) s = .next t ∧ KeepsMemory s t ∧ (t.task uid).frame = (s.task uid).frame ∧
       (t.task uid).exe.pend = [{ p with data := w.1, flags := p.flags ||| w.2, mat := none }]) ∧
   (∀ (s : State) uid p, List.find? (fun p : Pend => p.rem = 0 ∧ p.dest = .plane) (s.task uid).exe.pend = some p → s.frozen uid = false →
     ∃ t, exec (.wldPlaneSwitch uid) s = .next t ∧ KeepsMemory s t ∧ (t.task uid).activePlane = !(s.task uid).activePlane ∧
       (t.task uid).side = [] ∧ (t.task uid).exe.pend = (s.task uid).exe.pend.erase p ∧
       (t.task uid).arFlags = (s.task uid).arFlags ||| p.flags ∧ (t.task uid).plane0 = (s.task uid).plane0 ∧
       (t.task uid).plane1 = (s.task uid).plane1) ∧
   (∀ (s : State) id a rd v, NMap.find? s.accesses id = some a → (NMap.find? s.tasks a.uid).isSome = true →
     a.handler = (s.task a.uid).trBusy → rd ≠ 0#5 →
     (a.purpose = .result rd v ∨ (a.parts.all (·.stat == .done) = true ∧
       ((∃ w, a.purpose = .load rd w ∧ v = widthValue w (leNat a.data)) ∨
         ∃ op n b c, a.purpose = .atom rd op n b c ∧ v = BitVec.ofNat 64 (leNat a.data)))) →
     ∃ t, exec (.asyncResultLanding id) s = .next t ∧ KeepsMemory s t ∧ ((t.task a.uid).eng a.eng).get rd = v ∧
       ((t.task a.uid).eng a.eng).async = ((s.task a.uid).eng a.eng).async.erase rd ∧ NMap.find? t.accesses id = none)) ∧
  ((∀ (s : State) id a code tag, NMap.find? s.accesses id = some a →
     (a.purpose = .entry code tag ∨ ∃ h row, a.purpose = .tileRead h row code tag) → a.parts ≠ [] → a.parts.all (·.stat == .done) = true →
     (s.task a.uid).place = .active →
     earlierFilled ((s.task a.uid).placesOf code tag) tag = true →
     ∃ t, exec (.queueEntryArrival id) s = .next t ∧ KeepsMemory s t ∧
       (t.task a.uid).queues.getD code [] = fillList ((s.task a.uid).queues.getD code []) tag (ofBytes 4096 a.data) ∧
       (code ≠ Queue.code .qw → NMap.find? t.accesses id = none) ∧
       (code = Queue.code .qw → NMap.find? t.accesses id = some { a with entered := true, parts := [] })) ∧
   (∀ (s : State) uid e, (s.task uid).front .qw = some e → (s.task uid).latches (s.task uid).fillCur = false → s.frozen uid = false →
     ∃ t, exec (.fillPortWrite uid) s = .next t ∧ KeepsMemory s t ∧
       (t.task uid).wbuf.getD (s.task uid).fillCur 0#4096 = e ∧ (t.task uid).fillCur = ((s.task uid).fillCur + 1) % 512 ∧
       (t.task uid).queue .qw = ((s.task uid).queue .qw).tail ∧
       ∀ i, i ≠ (s.task uid).fillCur → (t.task uid).wbuf.getD i 0#4096 = (s.task uid).wbuf.getD i 0#4096) ∧
   (∀ (s : State) uid e, s.frozen uid = true → exec (.delayLineLanding uid e) s = .next s ∧ exec (.mmaAccumulatorRead uid) s = .next s ∧
     exec (.wldPlaneSwitch uid) s = .next s ∧ exec (.fillPortWrite uid) s = .next s))

/-! ### Events at homes -/

/-- Reads and atomics are performed at their homes (14 R310 to R313, 16 R349, R350): what a read of any access brings back is what its home
serves: of one line that its VD can verify the bytes that memory holds, and nothing else changes; of lines that it cannot verify zeros, with
a record; of a VD that the home's module does not serve zeros. An atomic in HBM reads and writes at one instant; one in host memory reads in
one step and writes in a later one, unless another access of the device to the same bytes has come between, before which it writes at once:
only the host's own writes fall between.
Where the manual leaves a choice, the model's is in logs 36, 43 and 65. -/
def Obligations.HomeReads : Prop :=
  (∀ (s : State) id i g a p, NMap.find? s.accesses id = some a → a.parts[i]? = some p →
     (∀ rd op n b c, a.purpose ≠ .atom rd op n b c) → p.write = false → s.isPeer a.die p.pa = false → s.mayPerform a p = true →
     let r := s.homeRead a.who g p.va p.pa p.len
     exec (.homeReadApply id i g) s = .next (r.2.modPart id i fun p => { p with bytes := r.1, stat := .done })) ∧
  (∀ (s : State) (w : Who) k va pa n, w.vd = some k → s.tagOpen w pa = true → s.views = [] → pa % 64 + n ≤ 64 →
     (isHostPa pa = true → w.acc ≠ .atomic) → (∀ x, x / 64 = pa / 64 → s.unreadable (some k) x = false) →
     s.homeRead w .ok va pa n = (s.bytes pa n, s)) ∧
  (∀ (s : State) (w : Who) k va pa n, w.vd = some k → isHostPa pa = false → s.views = [] →
     (∀ x, pa ≤ x → x < pa + n → s.unreadable (some k) x = true) →
     (s.homeRead w .ok va pa n).1 = List.replicate n 0#8 ∧
     (s.tagOpen w pa = true → (s.homeRead w .ok va pa n).2 = s.records (s.readNotes w va pa n))) ∧
  (∀ (s : State) (w : Who) k g va pa n, w.vd = some k → s.vdOpen (s.tagAt k pa) = false → s.homeRead w g va pa n = (List.replicate n 0#8, s)) ∧
  (∀ (s : State) id i g a p rd op n b c, NMap.find? s.accesses id = some a → a.parts[i]? = some p →
     a.purpose = .atom rd op n b c → s.isPeer a.die p.pa = false → s.mayPerform a p = true →
     (isHostPa p.pa = false →
       let r := s.homeAtomic a.who g op n b c p.va p.pa
       exec (.homeWriteApply id i g) s = .next (r.2.modPart id i fun p => { p with bytes := leBytes n r.1, stat := .done })) ∧
     (isHostPa p.pa = true → p.old = none →
       let r := s.homeRead a.who g p.va p.pa n
       let left : List Byte := match atomNew op n (leNat r.1) b.toNat c.toNat with | none => [] | some v => leBytes n v
       exec (.homeWriteApply id i g) s = .next (r.2.modPart id i fun p => { p with old := some (leNat r.1, left) })) ∧
     (∀ old left, isHostPa p.pa = true → p.old = some (old, left) →
       let u := if left = [] then s else s.homeWrite a.who .ok p.va p.pa left
       exec (.homeWriteApply id i g) s = .next (u.modPart id i fun p => { p with bytes := leBytes n old, stat := .done }))) ∧
  (∀ (s : State) id a p old left x, s.accesses = [(id, a)] → a.parts = [p] → p.old = some (old, left) → left.length = p.len →
     left ≠ [] → s.Inv → p.pa ≤ x → x < p.pa + p.len →
     (s.finishAtomics p.pa p.len).byte x = left.getD (x - p.pa) 0#8 ∧
     ∃ b q, (s.finishAtomics p.pa p.len).accesses = [(id, b)] ∧ b.parts = [q] ∧ q.old = some (old, []))

/-- A runaway window of an entry that watches ends and a new count begins, of windows that follow each other from the arming point
(07 R167). A poisoned subtree is rebuilt: its lines are zeroed under fresh counters, every line that a VD's frames cover under that
VD's keys, and each VD that owns lines below it gets one record (14 R308, R312).
Where the manual leaves a choice, the model's is in logs 17 and 36. -/
def Obligations.WindowsAndRebuilds : Prop :=
  (∀ (s : State) k, (s.bell k).watching = true → (s.bell k).winStart + 1000 ≤ (s.die (k / 4096)).clk.toNat →
     ∃ t, exec (.runawayWindowEnd k) s = .next t ∧ KeepsMemory s t ∧ (t.bell k).winCount = 0 ∧
       (t.bell k).winStart ≤ (s.die (k / 4096)).clk.toNat ∧ (s.die (k / 4096)).clk.toNat < (t.bell k).winStart + 1000 ∧
       ((t.bell k).winStart - (s.bell k).winStart) % 1000 = 0 ∧ (t.bell k).state = (s.bell k).state ∧
       (t.bell k).count = (s.bell k).count ∧ ∀ j, j ≠ k → t.bell j = s.bell j) ∧
  (∀ (s : State) die first lines, s.poison.contains (first, lines) = true →
     let z := ({ s with poison := s.poison.filter fun p => p ≠ (first, lines) } : State).zeroBytes none (first * 64) (lines * 64)
     let l := z.ownersOf (first * 64) (lines * 64)
     exec (.subtreeRebuild die first lines) s = .next
       ((l.foldl (fun s o => o.2.foldl (fun s r => s.sealRange (some o.1) r.1 r.2) s) z).records
         (l.map fun o => (o.1, { die, cause := Cause.intTree })))) ∧
  (∀ (s : State) vd pa n a, s.Inv →
     (s.zeroBytes vd pa n).byte a = if pa ≤ a ∧ a < pa + n ∧ s.poisoned a = false then 0#8 else s.byte a) ∧
  (∀ (s : State) vd pa n, KeepsMemory s (s.sealRange vd pa n)) ∧
  (∀ (s : State) pa n k, k ∈ (s.ownersOf pa n).map (·.1) ↔
     s.sharesOf k pa n ≠ [] ∧ ∃ v, (k, v) ∈ s.vds ∧ v.keys.isSome = true)

/-! ### Events of copies and translation -/

/-- The transfer of copies (11 R244 to R246, R250, 09 R208, R218): a doubleword that is not done reads the index it needs, then its
source, and is then written with the others of its line, row or entry; one from a row of a tile takes the bytes of that row, and
one that is alone in its entry of the weight buffer changes its bytes of the entry. A copy whose doublewords are all done
completes: the sequence number of its channel rises, its event doubleword is stored, its counter falls.
Where the manual leaves a choice, the model's is in log 23. -/
def Obligations.CopyEvents : Prop :=
  let open' (s : State) (k u : Nat) (c : Copy) : Prop := NMap.find? s.copies k = some c ∧ u < c.units ∧ c.done.contains u = false ∧
    (s.die (s.task c.uid).die).inService = true
  let known (c : Copy) (u : Nat) : Prop := c.needs u = none ∨ ∃ j x, c.needs u = some j ∧ NMap.find? c.index j = some x
  let bump (s : State) (c : Copy) : State :=
    s.modTask c.uid fun t => { t with chans := t.chans.set c.ch { t.chans.getD c.ch {} with seq := (t.chans.getD c.ch {}).seq + 1#32 } }
  (∀ s k u g c j, open' s k u c → c.needs u = some j → NMap.find? c.index j = none →
    exec (.copyLineTransfer k u g) s = .next (s.readIndex k j c g)) ∧
  (∀ s k u g c, open' s k u c → known c u → NMap.find? c.staged u = none →
    exec (.copyLineTransfer k u g) s = .next (s.readUnit k u c g)) ∧
  (∀ s k u g c, open' s k u c → known c u → (NMap.find? c.staged u).isSome = true →
    exec (.copyLineTransfer k u g) s = .next (s.writeLine k u c g)) ∧
  (∀ s k u c h row off d, open' s k u c → known c u → NMap.find? c.staged u = none → s.frozen c.uid = false →
    c.move (s.task c.uid) u = { src := some (.tile h row off), dst := some d } →
    ∃ t x, exec (.copyLineTransfer k u .ok) s = .next t ∧ KeepsMemory s t ∧ t.tasks = s.tasks ∧ NMap.find? t.copies k = some x ∧
      x.done = c.done ∧ NMap.find? x.staged u = some (entryBytes (((s.task c.uid).tiles.getD h {}).rowAt row) off 8)) ∧
  (∀ s k u c src e o bs, open' s k u c → c.lineReady (s.task c.uid) [u] = true → c.kind = .nest → NMap.find? c.staged u = some bs →
    s.frozen c.uid = false →
    (s.task c.uid).latches e = false → c.move (s.task c.uid) u = { src, dst := some (.wbuf e o) } →
    c.lineUnits (s.task c.uid) (.wbuf e 0) = [u] →
    ∃ t x, exec (.copyLineTransfer k u .ok) s = .next t ∧ KeepsMemory s t ∧ NMap.find? t.copies k = some x ∧ x.done = u :: c.done ∧
      (t.task c.uid).wbuf.getD e 0#4096 = entryPatch ((s.task c.uid).wbuf.getD e 0#4096) o bs) ∧
  (∀ s k c, NMap.find? s.copies k = some c → c.units ≤ c.done.length →
    (c.event = 0 → exec (.copyCompletion k) s = .next ((bump s c).endCopy k c)) ∧
    (∀ q u, c.event ≠ 0 → c.stopped eventLine = false → s.copyTranslate k eventLine c c.event .write = .ok [q] u →
      u.routed (u.task c.uid).die q.pa = true → u.copyFollows c true q.pa 8 q.ord = false →
      let z := bump (u.crossTo (u.task c.uid).die q.pa) c
      exec (.copyCompletion k) s = .next (((z.homeWrite (z.copyWho c .write) .ok c.event q.pa
        (leBytes 8 ((z.task c.uid).chans.getD c.ch {}).eventWord)).copyTag c q.pa).endCopy k c))) ∧
  (∀ (s : State) k c, NMap.find? (s.endCopy k c).copies k = none ∧
    ((s.endCopy k c).task c.uid).counters.getD c.ctr 0 = (s.task c.uid).counters.getD c.ctr 0 - 1)

/-- Walks and mappings (07 R168, 08 R188 to R191, R193, R196, R197, R200, 13 R278): a walk reads the record of its space and the tables of
stage 1, and at a later step those of stage 2, where routes lead to them; what it finds is cached if no shoot-down that matches has come
since it began, else it starts again; one that has started four times in vain waits until its die has no TLBI in progress. The unit takes a
frame from the ring of a space that has one, where routes lead to it; firmware that changes a stage-2 mapping writes the descriptor, disarms
the bells on the old frame and shoots the old translation down.
Where the manual leaves a choice, the model's is in logs 12 and 22. -/
def Obligations.TranslationEvents : Prop :=
  let runs (s : State) (id : Nat) (w : Walk) : Prop := NMap.find? s.walks id = some w ∧ w.failed = false ∧ w.waiting = false
  (∀ s id w, runs s id w → w.result = none → exec (.tlbWalk id) s = .next (s.readStage1 id w)) ∧
  (∀ s id w sp l, runs s id w → w.result = none → w.va < 2 ^ 56 → (s.spaceFor w).1.out = .ok sp →
    ((s.spaceFor w).2.walkStage1 w.vdk w.va w.access sp).out = .ok (.leaf l) →
    (s.spaceFor w).2.away w ((s.spaceFor w).1.reads ++ ((s.spaceFor w).2.walkStage1 w.vdk w.va w.access sp).reads) = false →
    ∃ t, exec (.tlbWalk id) s = .next t ∧ NMap.find? t.walks id = some { w with result := some (.stage1 l) }) ∧
  (∀ s id w l e, runs s id w → w.result = some (.stage1 l) → (s.walkStage2 w.vdk w.asid w.va w.access l).out = .ok e →
    s.away w (s.walkStage2 w.vdk w.asid w.va w.access l).reads = false →
    ∃ t, exec (.tlbWalk id) s = .next t ∧ NMap.find? t.walks id = some { w with result := some (.filled e) }) ∧
  (∀ s id w e uid en, runs s id w → w.result = some (.filled e) → w.by' = .task uid en →
    ((s.die w.die).discards w.num (·.matches e) = false → exec (.tlbWalk id) s =
      .next (({ s with walks := NMap.erase s.walks id } : State).fillTlb w.die (some w.core) e)) ∧
    ((s.die w.die).discards w.num (·.matches e) = true → exec (.tlbWalk id) s = .next (s.restartWalk id w (w.tries + 1)))) ∧
  (∀ (s : State) id w, NMap.find? s.walks id = some w → w.failed = false → w.waiting = true →
    (s.tlbiOn w.die = true → exec (.tlbWalk id) s = .next s) ∧
    (s.tlbiOn w.die = false →
      exec (.tlbWalk id) s = .next (s.readStage1 id { w with waiting := false, num := (s.die w.die).shootNum }))) ∧
  (∀ (s : State) die core e, ((s.fillTlb die core e).die die).llt.contains e = true) ∧
  (∀ (s : State) die vd uid t, ((s.die die).frames.getD (vdKey (s.moduleOf die) vd) []).length < 8 →
    List.find? (fun t : Nat × Task => t.2.die = die && t.2.vdKey = vdKey (s.moduleOf die) vd &&
      s.ringReady (vdKey (s.moduleOf die) vd) t.2.s1root.toNat) s.tasks = some (uid, t) →
    s.ringFar die (vdKey (s.moduleOf die) vd) t.s1root.toNat = false →
    exec (.firstTouchPoolRefill die vd) s = .next (s.takeFrame die (vdKey (s.moduleOf die) vd) t.s1root.toNat)) ∧
  (∀ (s : State) m vd ipa desc pa l, ipa < 2 ^ 52 → s.slot2 m ipa 3 (root2 (s.vd (vdKey m vd)).s2root) = (pa, some l) →
    let u := (s.homeWrite { die := s.dieOf m 0, acc := .write } .ok 0 pa (leBytes 8 desc.toNat)).unmapBells (vdKey m vd) l.addr
      (2 ^ l.shift)
    exec (.stage2MappingChange m vd ipa desc) s =
      .next (u.firmwareTlbi (u.podOf m) { kind := 3, vd := vdKey m vd, addr := ipa }))

/-! ### Scheduling -/

/-- The effective priority of a task is sat(prio + boost(gang) − decay, 0, 63): base priority, the boost its gang holds on its die,
always 0 for gang 0, and the task's spin decay (12 R257). -/
def Obligations.EffectivePriority : Prop :=
  ∀ (s : State) (t : Task), (s.eff t : Int) = max 0 (min 63 ((t.prio.toNat : Int) +
    (if t.gang = 0#16 then 0 else (((s.die t.die).gang t.vd t.gang.toNat).boost : Int)) - (s.decay t : Int)))

/-- The order of candidates is a strict order (12 R260): no task ranks before itself, ranking before is transitive, and of two
tasks with different numbers one ranks before the other. -/
def Obligations.RankingIsAnOrder : Prop :=
  ∀ (s : State) (a b c : Task), s.before a a = false ∧
    (s.before a b = true → s.before b c = true → s.before a c = true) ∧
    (a.tid ≠ b.tid → s.before a b = true ∨ s.before b a = true)

/-- Boost and graze (12 R258): an arrival adds 4 up to 16 unless the gang is grazed; a step adds the boost to the graze and takes 1
from the boost, or grazes the gang out at 2000; the end of a window clears the graze and the mark of the grazed, and keeps the boost.
The step of a microsecond is stated whole for a die without tasks while no access is outstanding; there every quad comes to owe a
decision. -/
def Obligations.GangRules : Prop :=
  (∀ g : Gang, g.grazed = false → g.arrive = { g with boost := min (g.boost + 4) 16 }) ∧
  (∀ g : Gang, g.grazed = true → g.arrive = g) ∧
  (∀ g : Gang, g.graze + g.boost < 2000 → g.step = { g with graze := g.graze + g.boost, boost := g.boost - 1 }) ∧
  (∀ g : Gang, 2000 ≤ g.graze + g.boost → g.step = { boost := 0, graze := g.graze + g.boost, grazed := true }) ∧
  (∀ (s : State) die, (s.die die).windowDue = true → ∃ t, exec (.grazeWindowEnd die) s = .next t ∧ KeepsMemory s t ∧
    (t.die die).windowDue = false ∧
    ∀ vd g, ((t.die die).gang vd g).graze = 0 ∧ ((t.die die).gang vd g).grazed = false ∧
      ((t.die die).gang vd g).boost = ((s.die die).gang vd g).boost) ∧
  (∀ (s : State) die, (s.die die).usDue = true → (s.die die).windowDue = false → s.accesses = [] →
    (∀ p, p ∈ s.tasks → p.2.die ≠ die) → exec (.microsecondStep die) s = .next (s.modDie die fun d =>
      { d with usDue := false, usStep := d.usStep + 1, windowDue := decide (d.usStep % 1000 = 999),
               gangs := d.gangs.map fun g => (g.1, g.2.step), decide := List.range 36 }))

/-- Decisions, stops and switches (12 R260, R263): a quad that owes a decision makes it, births first, then replacements, then standby
slots, once routes lead to the gang entries that it reads (13 R278); a sequencer asked to stop, which an idle or a stalled one does at once,
and one that still stalls at its next attempt, halts at a stop point that it meets under its mask, or whole after 4096 slots, at a stall or
before a unit that works; a switch puts a standby task into the active slot, and the one that left it into standby.
Where the manual leaves a choice, the model's is in log 26. -/
def Obligations.Switching : Prop :=
  (∀ (s : State) die quad, quad ∈ (s.die die).decide → (s.die die).inService = true →
    (∀ g, g ∈ s.gangsOf die quad → s.gangAway g.1 die g.2 = false) →
    let o := s.modDie die fun d => { d with decide := d.decide.filter fun q => q ≠ quad }
    let a := (o.bearAll die).gangsRead die (o.gangsOf die quad)
    let b := a.rounds' die quad true (a.candidates die quad)
    let c : State := { b with tasks := b.tasks.map fun (t : Nat × Task) =>
      (t.1, if t.2.die = die ∧ t.2.quad = quad then t.2.afterYield else t.2) }
    exec (.droverDecision die quad) s = .next ((c.byActive die quad).foldl (fun r k => r.1.fillSlot r.2 k)
      (c, (c.candidates die quad).filter fun k => (c.task k).place == .parked)).1) ∧
  (∀ (s : State) uid en n m u, ((s.task uid).eng en).stop = .asked n → (s.task uid).trBusy = false →
    s.listed uid en = (.found m, u) → (s.meetStop uid en).1 = true ∧ (((s.meetStop uid en).2.task uid).eng en).stop = .point m) ∧
  (∀ (s : State) uid en m, (s.task uid).place = .active → ((s.task uid).eng en).stop = .point m →
    (en = .exe → s.arithDue uid = false) → exec (.stopPointReached uid en) s = .next (s.halt uid en (some m))) ∧
  (∀ (s : State) uid en n, (s.task uid).place = .active → ((s.task uid).eng en).stop = .asked n →
    (4096 ≤ n ∨ ((s.task uid).eng en).stall.isSome = true ∨ (s.task uid).trBusy = true) →
    ∃ t, exec (.forcedStop uid en) s = .next t ∧ KeepsMemory s t ∧ ((t.task uid).eng en).stop = .stopped ∧
      ((t.task uid).eng en).regs = ((s.task uid).eng en).regs ∧ ((t.task uid).eng en).pc = ((s.task uid).eng en).pc ∧
      (t.task uid).frame = (s.task uid).frame) ∧
  (∀ (s : State) uid n u, (s.task uid).place = .active → (s.task uid).exe.stop = .asked n → n < 4096 →
    (s.task uid).exe.stall = none → (s.task uid).trBusy = false → s.unitStop uid = some u →
    (n = 0 → exec (.forcedStop uid .exe) s = .next (u.halt uid .exe none)) ∧
    (n ≠ 0 → exec (.forcedStop uid .exe) s =
      .next (if (u.meetStop uid .exe).1 then (u.meetStop uid .exe).2 else (u.meetStop uid .exe).2.halt uid .exe none))) ∧
  (∀ (s : State) uid en l u e, ((s.task uid).eng en).stop = .asked 0 → ((s.task uid).eng en).waits = true →
    (s.task uid).trBusy = false → s.proceed en l = .next u → u.cur.status = .stalled e →
    s.stopsWaiting uid en l = some (u.halt uid en none)) ∧
  (∀ (s : State) uid en, ((s.task uid).eng en).stop = .none → (((s.requestStop uid).task uid).eng en).stop =
    if ((s.task uid).eng en).run = .idle ∨ ((s.task uid).eng en).stall.isSome = true then .stopped else .asked 0) ∧
  (∀ (s : State) core c out d, (s.core core).plan = some ⟨out, some c, d⟩ → (s.core core).freeze = false →
    (s.task c).place = .standby → (s.task c).core = some core → (s.task c).dest ≠ some core → (s.task c).parkAfter = false →
    (s.activeOf core = none → ∃ t, exec (.slotSwitch core) s = .next t ∧ KeepsMemory s t ∧ (t.core core).plan = none ∧
      (t.task c).place = .active ∧ (t.task c).activeSince = s.now (core / 144)) ∧
    (∀ u, s.activeOf core = some u → out = some u → u ≠ c → (s.task u).place = .active → (s.task u).allStopped = true →
      (s.task u).dying = false → ∃ t, exec (.slotSwitch core) s = .next t ∧ KeepsMemory s t ∧ (t.core core).plan = none ∧
      (t.task c).place = .active ∧ (t.task c).activeSince = s.now (core / 144) ∧ (t.task u).place = .standby ∧
      (t.task u).core = (s.task u).core ∧ (t.task u).readySince = s.now (core / 144)))

/-- Parking, restoring and starving (12 R255, R261, R262, R264, R273): a context goes to a park frame, unless its core is frozen, and comes
back into a standby slot; a held task stays held; a parked task that a fault ends is retired when nothing of it is outstanding; a task ready
for 64 quanta starves, where its VD runs; a change of partition replaces the mask of quads and no quota.
Where the manual leaves a choice, the model's is in log 26. -/
def Obligations.Parking : Prop :=
  (∀ (s : State) uid, (s.task uid).parkAfter = true → (s.task uid).place = .standby → s.frozen uid = false → s.tileCopies uid = false →
    s.frameFree (s.task uid) = true → (s.task uid).rehome = false →
    ∃ t, exec (.taskPark uid) s = .next t ∧ KeepsMemory s t ∧ (t.task uid).place = .parked ∧ (t.task uid).inFrame = true ∧
      (t.task uid).core = none ∧ (t.task uid).readySince = (s.task uid).readySince ∧
      (t.task uid).frameAt = ((s.die (s.task uid).die).freeFrames (s.task uid).vdKey).headD 0 ∧
      (t.die (s.task uid).die).freeFrames (s.task uid).vdKey =
        ((s.die (s.task uid).die).freeFrames (s.task uid).vdKey).tail) ∧
  (∀ (s : State) uid, (s.task uid).place = .held → (s.task uid).inFrame = false → s.frozen uid = false → s.tileCopies uid = false →
    s.frameFree (s.task uid) = true → (s.task uid).rehome = false →
    ∃ t, exec (.heldTaskPark uid) s = .next t ∧ KeepsMemory s t ∧ (t.task uid).place = .held ∧ (t.task uid).inFrame = true ∧
      (t.task uid).core = none) ∧
  (∀ (s : State) uid core, (s.task uid).place = .parked → (s.task uid).dest = some core → (s.core core).plan = none →
    (s.core core).freeze = false → s.standbyOf core = none → s.fits (s.task uid) core = true → (s.task uid).landing = [] →
    (s.task uid).dying = false →
    ∃ t, exec (.taskRestore uid .ok) s = .next t ∧ KeepsMemory s t ∧ (t.task uid).place = .standby ∧
      (t.task uid).core = some core ∧ (t.task uid).inFrame = false ∧ (t.task uid).dest = none ∧
      (t.die (s.task uid).die).freeFrames (s.task uid).vdKey =
        (s.die (s.task uid).die).freeFrames (s.task uid).vdKey ++ [(s.task uid).frameAt] ∧
      KeepsRegisters (s.task uid) (t.task uid) ∧ (t.task uid).frame = (s.task uid).frame ∧
      (t.task uid).queues = (s.task uid).queues) ∧
  (∀ (s : State) uid, (s.task uid).ready = true → s.vdRuns (s.task uid).vdKey = true → (s.task uid).dying = false →
    (s.task uid).readySince + 64 * s.quantum (s.task uid).vdKey ≤ s.now (s.task uid).die →
    ∃ t, exec (.taskStarving uid) s = .next t ∧ KeepsMemory s t ∧ (t.task uid).starving = true) ∧
  (∀ (s : State) uid, (s.task uid).ready = true → s.vdRuns (s.task uid).vdKey = false → exec (.taskStarving uid) s = .next s) ∧
  (∀ (s : State) uid g, (s.task uid).place = .parked → (s.task uid).dying = true →
    exec (.taskRestore uid g) s = .next (if s.quiet uid then s.retire uid else s)) ∧
  (∀ (s : State) m vd die (mask : BitVec 36), s.moduleOf die = m →
    (∀ p, p ∈ s.tasks → p.2.die = die → p.2.vdKey = vdKey m vd → mask.getLsbD p.2.quad = true ∧ p.2.rehome = false) →
    ∃ t, exec (.partitionChange m vd die mask) s = .next t ∧ KeepsMemory s t ∧
      (∀ q, q ∈ t.partition (vdKey m vd) die ↔ q < 36 ∧ mask.getLsbD q = true) ∧
      t.bellQuota (vdKey m vd) die = s.bellQuota (vdKey m vd) die ∧ t.taskQuota (vdKey m vd) die = s.taskQuota (vdKey m vd) die)

/-- A task that nothing can release traps in CTL, with the streams that stall as its value (06 R152), and a WAITV that is due
polls: a poll that fails is counted, and its tick is kept (12 R259). Traps that come from outside an instruction (12 R265,
R272), and freezes (12 R273): the lowest raised trap, and the pending arithmetic trap with its flags, save what they say and
go to the vector; a freeze stops a core and is counted, and its end lets it run.
Where the manual leaves a choice, the model's is in log 45. -/
def Obligations.TrapEvents : Prop :=
  ((∀ (s : State) uid, s.deadlocked uid = true → (s.task uid).trBusy = false → pointerOk (s.task uid).trVec = true →
     ∃ t, exec (.streamDeadlock uid) s = .next t ∧ KeepsMemory s t ∧ (t.task uid).trBusy = true ∧
       (t.task uid).trCode = BitVec.ofNat 9 Cause.streamDeadlock ∧ (t.task uid).ctl.pc = (s.task uid).trVec ∧
       ∀ e : Engine, (t.task uid).trVal.getLsbD e.code =
         (((s.task uid).eng e).run != .idle && ((s.task uid).eng e).stall == some true)) ∧
   (∀ (s : State) uid ra rb c wide e, s.waitingAt uid = some (ra, rb, c, wide) → s.pollDue (s.task uid) = true →
     let t := s.task uid
     let va := (t.lda.get ra).toNat / atomBytes wide * atomBytes wide
     let z := (s.lookup t.die (t.core.getD 0) t.vdKey t.asid.toNat va).2
     let r := z.poll uid [{ e.piece va with len := atomBytes wide }]
     s.ldaPolls uid = true → (s.lookup t.die (t.core.getD 0) t.vdKey t.asid.toNat va).1 = some e →
     e.refuses t.priv.isS .read = none → z.routed t.die (e.phys va) = true → waitvHolds c wide r.1 (t.lda.get rb) = false →
     exec (.waitvPoll uid) s = .next (r.2.modTask uid fun t =>
       { t with polls := t.polls + 1, lastPoll := some ((r.2.die t.die).clk.toNat) }))) ∧
  ((∀ (s : State) uid r, (s.task uid).firstRaised = some r → s.mayTrap uid = true → (s.task uid).trBusy = false →
     pointerOk (s.task uid).trVec = true → ∃ t, exec (.trapEntry uid) s = .next t ∧ KeepsMemory s t ∧ (t.task uid).trBusy = true ∧
       (t.task uid).trCode = BitVec.ofNat 9 r.code ∧ (t.task uid).trVal = r.val ∧
       (t.task uid).trEpc = ((s.task uid).eng r.eng).pc ∧ (t.task uid).ctl.pc = (s.task uid).trVec ∧
       ∀ x, x ∈ (t.task uid).raised → x.later = true) ∧
   (∀ (s : State) uid, s.mayTrap uid = true → (s.task uid).traps = false → s.arithDue uid = true →
     (s.task uid).exe.run ≠ .idle → (s.task uid).trBusy = false → pointerOk (s.task uid).trVec = true →
     ∃ t, exec (.arith uid) s = .next t ∧ KeepsMemory s t ∧ (t.task uid).trBusy = true ∧
       (t.task uid).trCode = BitVec.ofNat 9 Cause.arith ∧ (t.task uid).trVal = (s.task uid).arSet.setWidth 64 ∧
       (t.task uid).trEpc = (s.task uid).exe.pc ∧ (t.task uid).arPend = false) ∧
   (∀ (s : State) core, (s.core core).freeze = false → (s.die (core / 144)).inService = true →
     ∃ t, exec (.correctedErrorFreeze core) s = .next t ∧ KeepsMemory s t ∧ (t.core core).freeze = true ∧
       (t.die (core / 144)).frz = (s.die (core / 144)).frz + 1 ∧ t.tasks = s.tasks) ∧
   (∀ (s : State) core, ∃ t, exec (.freezeEnd core) s = .next t ∧ (t.core core).freeze = false ∧ KeepsMemory s t ∧
     t.tasks = s.tasks ∧ (t.core core).tlb = (s.core core).tlb))

/-! ### The fabric -/

/-- Links (13 R277, R278, R280, R281): a failed attempt is counted and takes its port down at the sixteenth in a row, a port comes
up again, and a malformed packet is dropped and counted. Remote accesses (09 R208, 13 R280, R283, R284, 16 R350): a part that lies in
peer memory leaves as a packet, at a time and in an order that no rule gives (log 24); the home
of a part reads it one doubleword at a time in any order, writes it line by line, or performs an atomic, in host memory in two steps, and
then sends its reply, and the reply completes the part with its bytes; a write and an atomic are tagged arrivals at the home.
Where the manual leaves a choice, the model's is in logs 7, 24 and 43. -/
def Obligations.RemoteAccesses : Prop :=
  ((∀ (s : State) d p, (s.die d).portUp p = true → ∃ t, exec (.flitReplay d p) s = .next t ∧ KeepsMemory s t ∧
     t.packets = s.packets ∧ (t.die d).retry.getD p 0 = (s.die d).retry.getD p 0 + 1 ∧
     (∀ q, q ≠ p → (t.die d).portUp q = (s.die d).portUp q) ∧
     ((s.die d).fails.getD p 0 + 1 < 16 → (t.die d).portUp p = true ∧ (t.die d).fails.getD p 0 = (s.die d).fails.getD p 0 + 1) ∧
     (16 ≤ (s.die d).fails.getD p 0 + 1 → (t.die d).portUp p = false ∧ (t.die d).fails.getD p 0 = 0)) ∧
   (∀ (s : State) d p, p < 6 → (s.die d).inService = true → (s.die (s.neighbour d p)).inService = true → s.mayServe d p = true →
     ∃ t, exec (.routeReturn d p) s = .next t ∧ KeepsMemory s t ∧ t.packets = s.packets ∧ (t.die d).portUp p = true ∧
       ∀ q, q ≠ p → (t.die d).portUp q = (s.die d).portUp q) ∧
   (∀ (s : State) k p, NMap.find? s.packets k = some p → p.malformed = true →
     ∃ t, exec (.malformedPacket k) s = .next t ∧ KeepsMemory s t ∧ NMap.find? t.packets k = none ∧
       (t.die p.at').malf = (s.die p.at').malf + 1 ∧ t.accesses = s.accesses)) ∧
  (∀ (s : State) id i a p, NMap.find? s.accesses id = some a → (∀ w v r f, a.purpose ≠ .mst w v r f) → a.parts[i]? = some p →
     s.isPeer a.die p.pa = true → p.stat = .ready → s.onItsWay id i = false →
     s.act (.send id i) = .next (s.inject (s.partPacket id i a p))) ∧
  (let cut (n : Nat) (q : Part) : List Piece := cutPiece n (q.len + 1) { va := q.va, pa := q.pa, len := q.len }
   let rest (p : Packet) (q : Part) : List Nat := (List.range (cut 8 q).length).filter fun i => !p.served.contains i
   (∀ k g a q i, Delivered (.readRequest k g) k 0 (fun p s => s.partOf p = some (a, q) ∧ rest p q = [i]) fun p s =>
     let c := (cut 8 q).getD i {}
     let r := s.homeRead a.who g c.va c.pa c.len
     r.2.performed p { p.reply with b := a.target, body := patch (if p.body.isEmpty then List.replicate q.len 0#8 else p.body) c.off r.1 }) ∧
   (∀ (s : State) k g p l a q, s.packet k 0 = some p → s.route 0 p.at' p.dst = some l → s.behind k p = false →
     s.mayApply p = true → ((s.dropPacket k).crossed l).partOf p = some (a, q) → 2 ≤ (rest p q).length →
     ∃ t i x, exec (.readRequest k g) s = .next t ∧ i ∈ rest p q ∧ NMap.find? t.packets k = some x ∧
       x.served = i :: p.served ∧ x.kind = 0 ∧ x.at' = p.dst) ∧
   (∀ k, Delivered (.readReply k) k 1 (fun _ _ => True) fun p s =>
     s.modPart p.acc p.part fun q => { q with bytes := p.body, stat := .done }) ∧
   (∀ k g a q, Delivered (.remoteWrite k g) k 2 (fun p s => s.partOf p = some (a, q)) fun p s =>
     let c := (cut 64 q).getD p.served.length {}
     let u := s.homeWrite a.who g c.va c.pa ((q.bytes.drop c.off).take c.len)
     if (cut 64 q).length ≤ p.served.length + 1 then (u.tagged p.dst p.src p.vd p.gang).performed p p.reply
     else u.keepPacket k { p with served := p.served.length :: p.served }) ∧
   (∀ k, Delivered (.writeAck k) k 3 (fun _ _ => True) fun p s =>
     (s.modPart p.acc p.part fun q => { q with stat := .done }).settle p.acc) ∧
   (∀ k g a q rd op n b c, Delivered (.atomicRequest k g) k 4
     (fun p s => s.partOf p = some (a, q) ∧ a.purpose = .atom rd op n b c ∧ isHostPa q.pa = false) fun p s =>
       let r := s.homeAtomic a.who g op n b c q.va q.pa
       (r.2.tagged p.dst p.src p.vd p.gang).performed p { p.reply with b := BitVec.ofNat 64 r.1 }) ∧
   (∀ k g a q rd op n b c, Delivered (.atomicRequest k g) k 4
     (fun p s => s.partOf p = some (a, q) ∧ a.purpose = .atom rd op n b c ∧ isHostPa q.pa = true ∧ q.old = none) fun p s =>
       let r := s.homeRead a.who g q.va q.pa n
       let left := match atomNew op n (leNat r.1) b.toNat c.toNat with | none => [] | some v => leBytes n v
       (r.2.modPart p.acc p.part fun x => { x with old := some (leNat r.1, left) }).keepPacket k p) ∧
   (∀ k g a q rd op n b c old left, Delivered (.atomicRequest k g) k 4
     (fun p s => s.partOf p = some (a, q) ∧ a.purpose = .atom rd op n b c ∧ isHostPa q.pa = true ∧ q.old = some (old, left))
     fun p s =>
       let u := if left = [] then s else s.homeWrite a.who .ok q.va q.pa left
       (u.tagged p.dst p.src p.vd p.gang).performed p { p.reply with b := BitVec.ofNat 64 old }) ∧
   (∀ k, Delivered (.atomicReply k) k 5 (fun _ _ => True) fun p s =>
     s.modPart p.acc p.part fun q => { q with bytes := leBytes q.len p.b.toNat, stat := .done }) ∧
   (∀ (s : State) p r, NMap.find? (s.performed p r).packets s.nextId = some r))

/-- Splits and acks (13 R287, R288, R290, R291, R298): a multicast store and what a root sends are split at each router they come
to, or answered there with FB_GROUP when the group is not known; a delivery to a member makes all its checks and writes all its lines
at one instant, or goes to the landing buffer of a context that is away, where both are done at its replay and the reply then follows
(09 R220, 20 R448), and one that was refused is tried again; an ack is merged into its record, and the last one owed completes it.
Contributions on their way (13 R281, R287, R295, R296, R297): one whose reads have returned is sent; a router judges it once, when it
arrives, and forwards it when its port is up, combines it or takes it in as root; a slot whose time is over is sent on with the members
it has; a stale report is counted for the generation whose rounds the root holds, and kept for the next one when it holds none. Routes
lead to the entries, blocks and pages that are needed (13 R278).
Where the manual leaves a choice, the model's is in logs 24, 25 and 32. -/
def Obligations.SplitsAndContributions : Prop :=
  (let at' (s : State) (k kind : Nat) (p : Packet) : Prop :=
     s.packet k kind = some p ∧ s.behind k p = false ∧ s.mayApply p = true ∧ p.malformed = false
   let there (s : State) (k : Nat) (p : Packet) : State := (s.dropPacket k).judging p.at' p.vd p.a.toNat
   let deny (p : Packet) : AckSum := ({} : AckSum).deny p.str Cause.fbGroup
   (∀ (s : State) k p, s.packet k 6 = some p → p.port = 7 → exec (.multicastStore k) s = .next (s.redeliver k p)) ∧
   (∀ (s s' : State) k p bs l,
     let vdk := vdKey (s.moduleOf p.at') p.vd
     let block := p.links.getD 1 0
     s.deviceLoad { vd := some vdk, die := p.at', acc := .read } vdk (block + 24) 16 = .ok (bs, s') →
     (receiveArea bs).2 ≠ 0 → p.b.toNat + p.body.length ≤ (receiveArea bs).2 →
     s.lineSpots vdk p.at' ((receiveArea bs).1 + p.b.toNat) p.body.length = .ok l → s.deliveredBefore k p = false →
     (s.holder p.at' vdk block (p.links.drop 2) = none →
       ∃ author, s.deliverTo k p = (.yes, (s'.writeLines (blockWho vdk p.at' (some author)) l p.body).memberDone p.acc p.str)) ∧
     (∀ t, s.holder p.at' vdk block (p.links.drop 2) = some t →
       ∃ author, let x : Landing := .write block p.b.toNat p.body author { split := p.links.headD 0, member := p.str, acc := p.acc }
       ((s'.intoLanding t x).1 = true → ∃ u, s.deliverTo k p = (.landed, u) ∧ u.mem = (s'.intoLanding t x).2.mem ∧
         u.splits = (s'.intoLanding t x).2.splits ∧ u.tasks = (s'.intoLanding t x).2.tasks) ∧
       ((s'.intoLanding t x).1 = false → s.deliverTo k p = (.wait p, (s.intoLanding t x).2)))) ∧
   (∀ (s s' : State) k p bs,
     let vdk := vdKey (s.moduleOf p.at') p.vd
     s.deviceLoad { vd := some vdk, die := p.at', acc := .read } vdk (p.links.getD 1 0 + 24) 16 = .ok (bs, s') →
     (receiveArea bs).2 = 0 ∨ (receiveArea bs).2 < p.b.toNat + p.body.length →
     s.deliverTo k p = (.no Cause.fbNack, s'.memberDone p.acc p.str)) ∧
   (∀ (s u : State) uid block off bs author owed, let t := s.task uid
     (∀ l, s.memberSpots t.die t.vdKey block off bs.length = (some l, u) → s.replayOne uid (.write block off bs author owed) =
       (u.writeLines (blockWho t.vdKey t.die (some author)) l bs).replyOwed t.die t.vdKey owed true) ∧
     (s.memberSpots t.die t.vdKey block off bs.length = (none, u) → s.replayOne uid (.write block off bs author owed) =
       u.replyOwed t.die t.vdKey owed false)) ∧
   (∀ s k p, at' s k 6 p → p.port ≠ 7 → s.storeWaits p = false →
     ((there s k p).groupNow p.at' p.vd p.a.toNat = none →
       exec (.multicastStore k) s = .next ((there s k p).answer p (deny p))) ∧
     (∀ g, (there s k p).groupNow p.at' p.vd p.a.toNat = some g →
       exec (.multicastStore k) s = .next ((there s k p).split p g fun id m s => s.deliverStore p g id m))) ∧
   (∀ s k p, at' s k 9 p → s.nearAway p.at' p.vd p.a.toNat p.str = false → p.phase = 0 →
     (there s k p).groupNow p.at' p.vd p.a.toNat = none → exec (.result k) s = .next ((there s k p).answer p (deny p))) ∧
   (∀ s k p g, at' s k 9 p → s.nearAway p.at' p.vd p.a.toNat p.str = false →
     (there s k p).groupNow p.at' p.vd p.a.toNat = some g →
     (p.phase = 0 → exec (.result k) s = .next ((there s k p).split p g fun _ m s => s.deliverResult p g m)) ∧
     (p.phase = 1 → exec (.result k) s = .next ((there s k p).split p g fun _ m s => s.deliverNotice p g m)) ∧
     (p.phase = 2 → exec (.result k) s = .next ((there s k p).split p g fun _ m s => s.deliverRefusal p g m))) ∧
   (∀ (s : State) k p, s.packet k 7 = some p → p.port = 7 →
     exec (.multicastAck k) s = .next ((s.dropPacket k).mergeAck (p.links.headD 0) 7 p.sum)) ∧
   (∀ (s : State) k p r, s.packet k 7 = some p → p.port ≠ 7 → s.linkUp p.at' p.port = true → s.behind k p = false →
     let d := s.neighbour p.at' p.port
     s.groupAway d p.vd (gwId p.a.toNat) = false →
     let u := ((s.dropPacket k).crossed [(p.at', p.port)]).judging d p.vd p.a.toNat
     (u.groupNow d p.vd p.a.toNat).isSome = true → NMap.find? u.splits (p.links.headD 0) = some r →
     let owed := r.owed.erase (opposite p.port)
     let sum : AckSum := { pos := r.sum.pos + p.sum.pos, negs := r.sum.negs ++ p.sum.negs }
     (owed = [] → exec (.multicastAck k) s =
       .next (({ u with splits := NMap.erase u.splits (p.links.headD 0) } : State).answer r.pkt sum)) ∧
     (owed ≠ [] → exec (.multicastAck k) s =
       .next { u with splits := u.splits.set (p.links.headD 0) { r with owed, sum } }))) ∧
  ((∀ (s : State) id a w m tag bf16 e mldr, NMap.find? s.accesses id = some a →
     a.purpose = .contribute w m tag bf16 e mldr false → a.parts.all (·.stat == .done) = true →
     s.sourceAway a.die (a.vdk % 256) w m = false →
     let v := s.judging a.die (a.vdk % 256) w
     (∀ x code, NMap.find? v.accesses id = some x → x.purpose = .entry code id → exec (.mctbSend id) s = .next v) ∧
     (∀ x g, NMap.find? v.accesses id = some x → x.purpose = a.purpose → v.checkMember a.die (a.vdk % 256) w m = .ok g →
       let u := v.writeWord a.vdk a.die g m 0 (musterWord 1 0 0 0 0 tag)
       ∃ t, exec (.mctbSend id) s = .next t ∧ NMap.find? t.packets u.nextId = some
         { kind := 8, vd := a.vdk % 256, gang := a.gang, src := a.die, a := groupField w tag m, b := 1#64, hops := g.up,
           str := 2 ^ m, body := contributionPairs bf16 e a.data, at' := a.die, acc := id } ∧
         (mldr = none → NMap.find? t.accesses id = none) ∧
         (∀ q y, mldr = some q → NMap.find? u.accesses id = some y →
           NMap.find? t.accesses id = some { y with purpose := .contribute w m tag bf16 e (some q) true }))) ∧
   (∀ (s : State) k p g, s.packet k 8 = some p → s.behind k p = false → p.malformed = false → p.phase ≠ 1 →
     s.groupAway p.at' p.vd (gwId p.a.toNat) = false →
     let v := s.judging p.at' p.vd p.a.toNat
     let u := v.dropPacket k
     v.groupNow p.at' p.vd p.a.toNat = some g →
     (hopOp p.hop = 0 → v.linkUp p.at' (hopPort p.hop) = true → v.behind k { p with phase := 1 } = false →
       exec (.contribution k) s = .next (u.forward p)) ∧
     (hopOp p.hop = 0 → v.linkUp p.at' (hopPort p.hop) = false →
       exec (.contribution k) s = .next { v with packets := v.packets.set k { p with phase := 1 } }) ∧
     (hopOp p.hop = 1 → exec (.contribution k) s = .next (u.reduce p g)) ∧
     (hopOp p.hop = 2 → exec (.contribution k) s = .next (u.atRoot p g))) ∧
   (∀ (s : State) k p, s.packet k 8 = some p → s.behind k p = false → p.malformed = false → p.phase = 1 →
     exec (.contribution k) s = .next (if s.linkUp p.at' (hopPort p.hop) then (s.dropPacket k).forward p else s)) ∧
   (∀ (s : State) k c, NMap.find? s.combines k = some c → c.opened + 100 ≤ (s.die c.die).clk.toNat →
     ∃ t, exec (.combineSlotTimeout k) s = .next t ∧ KeepsMemory s t ∧ NMap.find? t.combines k = none ∧
       NMap.find? t.packets s.nextId = some { c.pkt with str := c.mask, b := BitVec.ofNat 64 (popcount c.mask), phase := 1 }) ∧
   (let read (p : Packet) (s : State) : State := s.groupRecords p.dst p.vd (gwId p.a.toNat)
    ∀ (s : State) k p l, s.packet k 14 = some p → s.route (vcOf 14) p.at' p.dst = some l → s.behind k p = false →
      s.groupAway p.dst p.vd (gwId p.a.toNat) = false →
      let u := read p ((s.dropPacket k).crossed l)
      (∀ r g, NMap.find? u.rounds (roundKey p.dst p.vd (gwId p.a.toNat)) = some r → u.group p.dst p.vd (gwId p.a.toNat) = some g →
        r.gen = g.gen → r.gen ≠ gwGen p.a.toNat →
        exec (.staleReport k) s = .next (u.setRound { r with stale := min (r.stale + 1) 4095 })) ∧
      (NMap.find? u.rounds (roundKey p.dst p.vd (gwId p.a.toNat)) = none →
        let i := p.vd * 4096 + gwId p.a.toNat
        exec (.staleReport k) s = .next (u.modDie p.dst fun d =>
          { d with staleSoon := d.staleSoon.set i (min (d.staleSoon.getD i 0 + 1) 4095) }))))

/-- Joins and closes at a root (13 R293, R294, R300, 17 R377): the first join of a generation makes its round state and is answered
with tag 0, a later one with the open tag; a close ends the rounds up to its tag, is answered at once for one that is closed, and
with an error where there is no round state or the tag is out of the window. The word lands in the register that waits for it.
Every router on the way judges the packet by the group's entry there (13 R287), to which a route leads: one that does not know the group
drops and counts it.
Where the manual leaves a choice, the model's is in logs 24 and 25. -/
def Obligations.MusterControl : Prop :=
  let near (s : State) (p : Packet) (l : List (Nat × Nat)) : Prop :=
    ((p.dst :: (l.drop 1).map (·.1)).any fun d => s.groupAway d p.vd (gwId p.a.toNat)) = false
  let met (s : State) (k close : Nat) (p : Packet) (g : Group) (u : State) : Prop :=
    s.packet k 10 = some p ∧ p.b.toNat = close ∧ s.behind k p = false ∧
      ∃ l, s.route 2 p.at' p.dst = some l ∧ near s p l ∧ (s.dropPacket k).passes p l = (some g, u)
  (∀ (s : State) p d, (s.judging d p.vd p.a.toNat).groupNow d p.vd p.a.toNat = none →
    s.judge p d = (none, (s.judging d p.vd p.a.toNat).modDie d fun x => { x with stale := x.stale + 1#64 })) ∧
  (∀ (s u : State) k p l, s.packet k 10 = some p → s.behind k p = false → s.route 2 p.at' p.dst = some l → near s p l →
    (s.dropPacket k).passes p l = (none, u) →
    (p.b.toNat = 0 → exec (.musterJoin k) s = .next u) ∧ (p.b.toNat = 1 → exec (.musterClose k) s = .next u)) ∧
  (∀ s k p g u, met s k 0 p g u →
    (∀ r, u.round p.dst p.vd p.a.toNat = some r →
      exec (.musterJoin k) s = .next (u.musterReply p (musterWord 4 0 0 0 0 r.openTag.toNat))) ∧
    (u.round p.dst p.vd p.a.toNat = none →
      let v : State := { u with rounds := NMap.erase u.rounds (roundKey p.dst p.vd (gwId p.a.toNat)) }
      (v.rounds.filter fun r => r.2.die = p.dst).length < 256 → exec (.musterJoin k) s =
        .next (((v.modDie p.dst fun d =>
            { d with staleSoon := NMap.erase d.staleSoon (p.vd * 4096 + gwId p.a.toNat) }).setRound
              { die := p.dst, vd := p.vd, group := gwId p.a.toNat, gen := gwGen p.a.toNat
                stale := (v.die p.dst).staleSoon.getD (p.vd * 4096 + gwId p.a.toNat) 0 }).musterReply p
          (musterWord 4 0 0 0 0 0)))) ∧
  (∀ s k p g u, met s k 1 p g u →
    let t := gwTag p.a.toNat
    (u.round p.dst p.vd p.a.toNat = none →
      exec (.musterClose k) s = .next (u.musterReply p (musterWord 5 Cause.muGroup 0 0 0 t))) ∧
    (∀ r, u.round p.dst p.vd p.a.toNat = some r →
      let d := tagDiff r.openTag.toNat t
      (1 ≤ d ∧ d ≤ 7 → exec (.musterClose k) s = .next (u.musterReply p (musterWord 5 0 0 0 0 t))) ∧
      (-7 ≤ d ∧ d ≤ 0 →
        let x := endRounds g p.gang ((-d).toNat + 1) u r 0
        exec (.musterClose k) s = .next ((closeRounds g p.gang 8 x.1 x.2.1).musterReply p x.2.2)) ∧
      (d < -7 ∨ 7 < d → exec (.musterClose k) s = .next (u.musterReply p (musterWord 5 Cause.muLag 0 0 0 t))))) ∧
  (∀ (s u : State) k p l g a rd, s.packet k 11 = some p → s.route 3 p.at' p.dst = some l → s.behind k p = false → near s p l →
    (s.dropPacket k).passes p l = (some g, u) → NMap.find? u.accesses p.acc = some a → a.purpose = .reply rd →
    exec (.musterReply k) s = .next (u.landResult p.acc a rd p.b))

/-! ### The host and the firmware -/

/-- The host's accesses (14 R305, 15 R326 to R328, 01 R17): memory of a VD that is RUNNING or STOPPED is written and read at its IPA,
once routes lead to it from die 0, and one that a page refuses leaves a record of the failure and reads 0xFF bytes; of any other VD, writes
are discarded and reads give 0xFF bytes. The firmware window takes writes line by line and reads byte by byte. What is too long,
ends beyond its BAR (2^20 bytes of the firmware window, 2^40 of a VD's), or comes for a VD before all is served, is answered with
Unsupported Request.
Where the manual leaves a choice, the model's is in logs 26 and 49. -/
def Obligations.HostAccesses : Prop :=
  let who (s : State) (m k : Nat) (acc : AccKind) : Who := { vd := some k, die := s.dieOf m 0, acc, host := true }
  (∀ (s : State) m n a bs, s.serving m = some true → bs.length ≤ 512 → a + bs.length ≤ 2 ^ 40 →
    let k := vdKey m n.toNat
    ((s.vd k).hostOpen = true → s.hostReaches m k a bs.length true = true →
      (∃ u, exec (.hostMemoryWrite m (.vd n) a bs) s = .next u ∧
        (∀ v, s.deviceStore (who s m k .write) k a bs = .ok v → u = v) ∧
        ∀ f, s.deviceStore (who s m k .write) k a bs = .error f → u = s.deviceFault k (s.dieOf m 0) .write f)) ∧
    ((s.vd k).hostOpen = false ∨ s.hostReaches m k a bs.length true = false →
      exec (.hostMemoryWrite m (.vd n) a bs) s = .next s)) ∧
  (∀ (s : State) m whole a bs, s.serving m = some whole → bs.length ≤ 512 → a + bs.length ≤ 2 ^ 20 →
    exec (.hostMemoryWrite m .fw a bs) s = .next ((pieces (bs.length + 1) a bs).foldl (fun s p => s.windowLine m p.1 p.2) s)) ∧
  (∀ (s : State) m n a len, s.serving m = some true → len ≤ 512 → a + len ≤ 2 ^ 40 →
    let k := vdKey m n.toNat
    ((s.vd k).hostOpen = true → s.hostReaches m k a len false = true →
      (∃ u, exec (.hostMemoryRead m (.vd n) a len) s = .next u ∧
        (∀ bs v, s.deviceLoad (who s m k .read) k a len = .ok (bs, v) → u = v.complete m (.data bs)) ∧
        ∀ f, s.deviceLoad (who s m k .read) k a len = .error f →
          u = (s.deviceFault k (s.dieOf m 0) .read f).complete m (.data (List.replicate len 0xFF#8)))) ∧
    ((s.vd k).hostOpen = false →
      exec (.hostMemoryRead m (.vd n) a len) s = .next (s.complete m (.data (List.replicate len 0xFF#8)))) ∧
    ((s.vd k).hostOpen = true → s.hostReaches m k a len false = false → exec (.hostMemoryRead m (.vd n) a len) s = .next s)) ∧
  (∀ (s : State) m whole a len, s.serving m = some whole → len ≤ 512 → a + len ≤ 2 ^ 20 →
    exec (.hostMemoryRead m .fw a len) s =
      .next (s.complete m (.data ((List.range len).map fun i => s.windowByte m whole (a + i))))) ∧
  (∀ (s : State) m whole w a bs len, s.serving m = some whole →
    let beyond (n : Nat) : Prop := 512 < n ∨ (w = .fw ∧ 2 ^ 20 < a + n) ∨ (w ≠ .fw ∧ (whole = false ∨ 2 ^ 40 < a + n))
    (beyond bs.length → exec (.hostMemoryWrite m w a bs) s = .next (s.unsupported m)) ∧
    (beyond len → exec (.hostMemoryRead m w a len) s = .next (s.unsupported m))) ∧
  (∀ v : Vd, v.hostOpen = true ↔ v.releaseWanted = false ∧ (v.state = .running ∨ v.state = .stopped))

/-- Requests that the device does not serve are answered with Unsupported Request and change nothing else (15 R326); a configuration
request is answered with what the PCIe specification says, which the manual does not repeat: the model's answer is a free value
(log 15), and no more than the counter of free values moves on beside it. -/
def Obligations.UnservedRequests : Prop :=
  (∀ (s : State) m, exec (.unsupportedRequest m) s =
    .next (s.modModule m fun x => { x with answers := x.answers ++ [.unsupported] })) ∧
  (∀ (s : State) m fn, exec (.configurationRequest m fn) s = .next (({ s with fresh := s.fresh + 1 } : State).modModule m fun x =>
    { x with answers := x.answers ++ [.config (Config.configAnswer fn s.fresh)] })) ∧
  (∀ (s : State) m f, ((s.modModule m f).module m) = f (s.module m) ∧ ∀ n, n ≠ m → (s.modModule m f).module n = s.module n)

/-- The life of a VD by commands (14 R304 to R306, 15 R329): CONFIGURE copies the block of a FREE VD, START of a CONFIGURED one with
a sound block starts it and of a STOPPED one lets its tasks be ready, STOP of a RUNNING one orders its stop, which is reached when
its copies have completed, RELEASE of a CONFIGURED, STOPPED or LOST one frees it, once no access is under way in a window that it gives
up (R317); in any other state each is refused with status 3.
Where the manual leaves a choice, the model's is in log 30. -/
def Obligations.VdCommands : Prop :=
  let is (st : VdState) (k : Nat) (_ : List Byte) (s : State) : Prop := (s.vd k).state = st
  let ok (_ : Nat) (_ : List Byte) (_ : State) : Nat := 0
  let in' (l : List VdState) (k : Nat) (_ : List Byte) (s : State) : Prop := (s.vd k).state ∉ l
  ∀ m, Commanded (.configure m) m 1 (is .free) (fun k _ s =>
      s.modVd k fun v => { state := .configured, cfg := s.hostBlock k, migr := v.migr }) ok ∧
    Refused (.configure m) m 1 3 (in' [.free]) ∧
    Commanded (.start m) m 2
      (fun k c s => (s.vd k).state = .configured ∧ (s.startConfigured k (commandArg c 0)).1 = 0)
      (fun k c s => (s.startConfigured k (commandArg c 0)).2) ok ∧
    Commanded (.start m) m 2 (fun k _ s => (s.vd k).state = .stopped ∧ s.namesOut k = false) (fun k _ s => s.restartVd k) ok ∧
    Refused (.start m) m 2 3 (in' [.configured, .stopped]) ∧
    Commanded (.stop m) m 3 (is .running) (fun k _ s => s.stopVd k) ok ∧ Refused (.stop m) m 3 3 (in' [.running]) ∧
    Commanded (.release m) m 4 (fun k _ s => s.leaveWaits k = false ∧
        ((s.vd k).state = .configured ∨ (s.vd k).state = .stopped ∨ (s.vd k).state = .lost))
      (fun k _ s => s.releaseVd k) ok ∧
    Refused (.release m) m 4 3 (in' [.configured, .stopped, .lost]) ∧
    (∀ n, Becomes (.vdStopped m n) (fun s => (s.vd (vdKey m n)).state = .running ∧ (s.vd (vdKey m n)).stopping = true ∧
      (s.vd (vdKey m n)).releaseWanted = false ∧ ∀ c, c ∈ s.copies → c.2.vdk ≠ vdKey m n) fun s =>
        s.modVd (vdKey m n) fun v => { v with state := .stopped, stopping := false }) ∧
    (∀ (s : State) k, ((s.stopVd k).vd k).stopping = true ∧ (s.releaseVd k).vd k = {})

/-- The commands for the module (14 R319, R321, 15 R329, R339, R340): a report, an image that is checked and then committed, the
power limit, the calendar, and the dump cleared. Service requests of a VD (14 R315 to R317): a measurement under the nonce of
the request, and windows opened, granted and closed with the status of each, a close once the accesses under way there have completed;
lines that verify under the keys they had are given those they have after it, and their plaintext stays.
Where the manual leaves a choice, the model's is in logs 28 and 31. -/
def Obligations.FirmwareServices : Prop :=
  (let ok (_ : Nat) (_ : List Byte) (_ : State) : Nat := 0
   let all (_ : Nat) (_ : List Byte) (_ : State) : Prop := True
   ∀ m,
     (∀ s c, s.commanded m 10 c → exec (.measure m) s =
       .next ((s.popCommand m).commandAnswer m 10 0 0 (some (s.report (vdKey m (commandVd c)) (field c 24 32))))) ∧
     (∀ s c bs, s.commanded m 11 c → (s.module m).staged = none → s.hostBytes (commandArg c 0) (commandArg c 1) = some bs →
       bs.length ≤ 2 ^ 22 → imageOk (s.module m).floor bs = true → ∃ t, exec (.activate m true) s = .next t ∧ KeepsMemory s t ∧
         (t.module m).staged = some ((Config.imageHeader bs).1.toNat, sha512 bs, (Config.imageHeader bs).2) ∧
         (t.module m).inactive = bs ∧ (t.module m).active = (s.module m).active ∧ (t.module m).running = (s.module m).running) ∧
     (∀ version hash raise, Commanded (.activate m true) m 11 (fun _ _ s => (s.module m).staged = some (version, hash, raise))
       (fun _ _ s => s.modModule m fun x =>
         { x with activeB := !x.activeB, floor := if raise then version else x.floor, running := some (version, hash)
                  staged := none }) ok) ∧
     Commanded (.power m) m 12 (fun _ c _ => 1500 ≤ commandArg c 0 ∧ commandArg c 0 ≤ 4400)
       (fun _ c s => s.modModule m fun x => { x with limit := commandArg c 0 }) ok ∧
     Refused (.power m) m 12 1 (fun _ c _ => commandArg c 0 < 1500 ∨ 4400 < commandArg c 0) ∧
     Commanded (.time m) m 13 all (fun _ c s => s.modModule m fun x =>
       { x with calendar := some (BitVec.ofNat 64 (commandArg c 0), (s.die (s.dieOf m 0)).clk.toNat) }) ok ∧
     Commanded (.dumpclr m) m 14 all (fun _ _ s => s.modModule m fun x => { x with dump := none, dumpMore := 0 }) ok) ∧
  (∀ m vd,
     Served (.measureRequest m vd) m vd 1 (fun k r s => s.serviceReply k 1 0 0 (s.report k (field r 16 32))) ∧
     Served (.wopen m vd) m vd 2 (fun k r s =>
       (s.wopen k (dword r 2) (dword r 3)).2.2.serviceReply k 2 (s.wopen k (dword r 2) (dword r 3)).1
         (s.wopen k (dword r 2) (dword r 3)).2.1 []) ∧
     Served (.wgrant m vd) m vd 3 (fun k r s =>
       (s.wgrant k (dword r 2) (dword r 3) (dword r 4) (dword r 5)).2.serviceReply k 3
         (s.wgrant k (dword r 2) (dword r 3) (dword r 4) (dword r 5)).1 (dword r 2) []) ∧
     (∀ s r, (s.vd (vdKey m vd)).requests.head? = some r → s.serving m = some true → requestKind r = 4 →
       (s.module m).staged = none →
       let x := (s.popRequest (vdKey m vd)).wclose (vdKey m vd) (dword r 2)
       (s.closeHeld (vdKey m vd) = true → exec (.wclose m vd) s = .next s) ∧
       (s.closeHeld (vdKey m vd) = false → exec (.wclose m vd) s = .next (x.2.serviceReply (vdKey m vd) 4 x.1 (dword r 2) []))) ∧
     (∀ (s t : State) k pas line, let u := s.rekey t k pas
       u.mem = t.mem ∧
       (∀ x y, NMap.find? t.sealed line = some x → (∃ q ∈ pas, q.1 ≤ line * 64 ∧ line * 64 < q.1 + q.2.1) →
         s.slotKeys (some k) (line * 64) = some x → t.slotKeys (some k) (line * 64) = some y → NMap.find? u.sealed line = some y) ∧
       ((∀ q ∈ pas, line * 64 < q.1 ∨ q.1 + q.2.1 ≤ line * 64) → NMap.find? u.sealed line = NMap.find? t.sealed line)) ∧
     (∀ (s : State) k base len, (s.wopen k base len).1 = 0 → len ≤ 2 ^ 30 ∧ 2 ^ 21 ≤ len ∧ base % 2 ^ 21 = 0 ∧ len % 2 ^ 21 = 0 ∧
       (s.wopen k base len).2.1 < 256 ∧
       ((s.wopen k base len).2.2.window (windowKey (k / 256) (s.wopen k base len).2.1)).owner = k % 256))

/-- Migration by commands (14 R317, R322, 15 R329): IMPORT of a FREE VD, EXPORT of a STOPPED one that uses no window, ABORT of one
that is EXPORTING or IMPORTING, and messages in and out of the staging area. The messages and the waits of a migration (14
R322 to R325): a sound blob is unsealed and any other discarded and counted; a confirm releases the source, which answers a
second one alike; the ack makes the destination STOPPED, a LOST reply loses it; and ten seconds without an answer lose a
SEALED or COMMITTING VD and give up an import, which a second manifest does not prolong.
Where the manual leaves a choice, the model's is in log 29. -/
def Obligations.Migration : Prop :=
  (let ok (_ : Nat) (_ : List Byte) (_ : State) : Nat := 0
   let in' (l : List VdState) (k : Nat) (_ : List Byte) (s : State) : Prop := (s.vd k).state ∉ l
   ∀ m, Commanded (.importVd m) m 5 (fun k _ s => (s.vd k).state = .free) (fun k _ s =>
       let u := s.draw.2.draw.2.modVd k fun _ => { state := .importing, cfg := s.hostBlock k, migr :=
         { nd := Config.random s.fresh, secret := Config.random (s.fresh + 1) } }
       u.putWindow m 0x34000 (u.report k (bytes256 (Config.random s.fresh)))) ok ∧
     Refused (.importVd m) m 5 3 (in' [.free]) ∧
     Commanded (.exportVd m) m 6 (fun k _ s => (s.vd k).state = .stopped ∧ s.usesWindow k = false ∧
         ∀ a, a ∈ s.accesses → a.2.vdk = k → a.2.landsSoon = true → a.2.parts = []) (fun k _ s =>
       let l := (s.exportList k).zipIdx.map fun x => cryptBlock ((s.vd k).keys.getD (0, 0)).1 x.2 x.1
       s.modVd k fun v => { v with state := .exporting, migr :=
         { manifest := some (sha512 (manifestOf l)), outbox := l ++ [.manifest (manifestOf l)] } }) ok ∧
     Refused (.exportVd m) m 6 3 (fun k _ s => (s.vd k).state ≠ .stopped ∨ s.usesWindow k = true) ∧
     Commanded (.abort m) m 7 (fun k _ s => (s.vd k).state = .exporting) (fun k _ s =>
       s.modVd k fun v => { v with state := .stopped, migr := {} }) ok ∧
     Commanded (.abort m) m 7 (fun k _ s => (s.vd k).state = .importing) (fun k _ s => { s with vds := NMap.erase s.vds k }) ok ∧
     Refused (.abort m) m 7 3 (in' [.exporting, .importing]) ∧
     (∀ x, Commanded (.migIn m) m 8 (fun k c s => commandArg c 0 ≤ 0xC000 ∧
         Config.readMessage (s.windowBytes m 0x34000 (commandArg c 0)) = some x ∧ (s.receive k x).1 = 0)
       (fun k _ s => (s.receive k x).2) ok) ∧
     Commanded (.migOut m) m 9 (fun k _ s => (s.vd k).migr.outbox = [] ∧ ¬ ((s.vd k).state = .sealed ∧ s.waitedOut k = true))
       (fun _ _ s => s) ok ∧
     Commanded (.migOut m) m 9 (fun k _ s => (s.vd k).state = .sealed ∧ s.waitedOut k = true ∧
       ((s.loseVd k).vd k).migr.outbox = []) (fun k _ s => s.loseVd k) ok ∧
     (∀ (s : State) k x, s.importOver k = true → s.receive k x = (3, s.abortVd k)) ∧
     (∀ (s : State) k bs, (s.vd k).state = .importing → s.importOver k = false →
       (s.receive k (.manifest bs)).1 = 0 ∧ ((s.receive k (.manifest bs)).2.vd k).migr.manifest = some (sha512 bs) ∧
       ((s.receive k (.manifest bs)).2.vd k).migr.since =
         if (s.vd k).migr.manifest.isSome = true then (s.vd k).migr.since else s.moduleNow (k / 256)) ∧
     (∀ x rest, Commanded (.migOut m) m 9 (fun k _ s => (s.vd k).migr.outbox = x :: rest ∧
         ¬ ((s.vd k).state = .sealed ∧ s.waitedOut k = true))
       (fun k _ s => (s.modMig k fun g => { g with outbox := rest }).putWindow m 0x34000 ((Config.writeMessage x).take 0xC000))
       fun _ _ _ => ((Config.writeMessage x).take 0xC000).length)) ∧
  (let waited (k : Nat) (s : State) : Prop := (s.vd k).migr.since + 10 ^ 9 ≤ (s.die (s.dieOf (k / 256) 0)).clk.toNat
   ∀ m vd,
     (∀ blob key, let secret (k : Nat) (s : State) : List Byte := aesCtr (blobKey (xShared (s.vd k).migr.secret
         (word256 (field blob 72 32))) (s.vd k).migr.nd (word256 (field blob 40 32))) 0#128 (field blob 104 128)
       Received (.sealedBlob m vd) m vd (fun k x s => x = .blob blob key ∧ (s.vd k).state = .importing ∧ ¬ waited k s ∧
           s.blobOk k blob key (secret k s) = true)
         (fun k _ s => s.unseal k (word256 (field blob 40 32)) key (secret k s)) ∧
       Received (.sealedBlob m vd) m vd (fun k x s => x = .blob blob key ∧ ((s.vd k).state ≠ .importing ∨
           (¬ waited k s ∧ s.blobOk k blob key (secret k s) = false)))
         (fun k _ s => s.modMig k fun g => { g with discarded := g.discarded + 1 }) ∧
       Received (.sealedBlob m vd) m vd (fun k x s => x = .blob blob key ∧ (s.vd k).state = .importing ∧ waited k s ∧
           (s.vd k).migr.manifest.isSome = true) (fun k _ s => { s with vds := NMap.erase s.vds k })) ∧
     (∀ nd ns sig,
       Received (.confirm m vd) m vd (fun k x s => x = .confirm nd ns sig ∧ (s.vd k).migr.signed 0 nd ns sig = true ∧
           (s.vd k).state = .sealed ∧ ¬ waited k s) (fun k _ s => (s.letGo k).send k (s.release' k nd ns)) ∧
       Received (.confirm m vd) m vd (fun k x s => x = .confirm nd ns sig ∧ (s.vd k).migr.signed 0 nd ns sig = true ∧
           (s.vd k).state = .sealed ∧ waited k s ∧ (s.vd k).releaseWanted = false)
         (fun k _ s => (s.loseVd k).send k ((s.loseVd k).lost' k nd ns)) ∧
       Received (.confirm m vd) m vd (fun k x s => x = .confirm nd ns sig ∧ (s.vd k).migr.signed 0 nd ns sig = true ∧
           (s.vd k).state = .free ∧ (s.vd k).migr.moved = true) (fun k _ s => s.send k (s.release' k nd ns)) ∧
       Received (.confirm m vd) m vd (fun k x s => x = .confirm nd ns sig ∧ (s.vd k).migr.signed 0 nd ns sig = true ∧
           (s.vd k).state = .lost) (fun k _ s => s.send k (s.lost' k nd ns)) ∧
       Received (.releaseAck m vd) m vd (fun k x s => x = .ack nd ns sig ∧ (s.vd k).state = .committing ∧
           (s.vd k).migr.signed 1 nd ns sig = true ∧ (s.vd k).releaseWanted = false ∧ ¬ waited k s)
         (fun k _ s => (s.modVd k fun v => { v with state := .stopped, mig := true }).watchRing k) ∧
       Received (.releaseAck m vd) m vd (fun k x s => x = .ack nd ns sig ∧ (s.vd k).state = .committing ∧ waited k s)
         (fun k _ s => s.loseVd k) ∧
       Received (.lostReply m vd) m vd (fun k x s => x = .lost nd ns sig ∧ (s.vd k).state = .committing ∧
           (s.vd k).migr.signed 2 nd ns sig = true) (fun k _ s => s.loseVd k)) ∧
     Becomes (.sealTimeout m vd) (fun s => (s.vd (vdKey m vd)).state = .sealed ∧ waited (vdKey m vd) s) (·.loseVd (vdKey m vd)) ∧
     Becomes (.commitTimeout m vd) (fun s => (s.vd (vdKey m vd)).state = .committing ∧ waited (vdKey m vd) s)
       (·.loseVd (vdKey m vd)) ∧
     Becomes (.importTimeout m vd) (fun s => (s.vd (vdKey m vd)).state = .importing ∧
         (s.vd (vdKey m vd)).migr.manifest.isSome = true ∧ waited (vdKey m vd) s)
       (fun s => { s with vds := NMap.erase s.vds (vdKey m vd) }) ∧
     (∀ (s : State) k, (s.vd k).releaseWanted = false → ((s.loseVd k).vd k).state = .lost ∧ ((s.loseVd k).vd k).keys = none))

/-! ### Resets, service, fatal errors, health -/

/-- A cold or a warm reset (15 R334) puts every die of the module into RESET and every VD of it to FREE without keys, ends its tasks
and disarms its bells, and keeps its flash (both images and which is active, the factory and placement records, the floor, the daily
means of the margins) and its dump; other modules' VDs and dies are as they were. A function-level reset releases VDs at once, one
that is EXPORTING or IMPORTING after its migration has been given up, or as soon as their state allows. A die comes up (14 R318,
R320, 15 R331, R333): from RESET to TEST if the factory record, its key and an image pass and to OUT otherwise, where its ports are
down; from TEST to EARLY with the links that came up, may serve (R342) and do not lead to a die in OUT, or to OUT; from EARLY to
FULL or to OUT.
Where the manual leaves a choice, the model's is in log 31. -/
def Obligations.ResetsAndBringUp : Prop :=
  ((∀ i m, i = .coldReset m ∨ i = .warmReset m → ∀ s : State, ∃ t, exec i s = .next t ∧
     (∀ d, s.moduleOf d = m → (t.die d).service = .reset ∧ (t.die d).ports = 0#6 ∧ (t.die d).clk = 0#64) ∧
     (∀ d, s.moduleOf d ≠ m → t.die d = s.die d) ∧ (∀ k, k / 256 = m → t.vd k = {}) ∧ (∀ k, k / 256 ≠ m → t.vd k = s.vd k) ∧
     (∀ p, p ∈ t.tasks → p.2.module ≠ m) ∧ (∀ k, s.moduleOf (k / 4096) = m → t.bell k = {}) ∧
     (t.module m).imageA = (s.module m).imageA ∧ (t.module m).imageB = (s.module m).imageB ∧
     (t.module m).factory = (s.module m).factory ∧ (t.module m).floor = (s.module m).floor ∧
     (t.module m).activeB = (s.module m).activeB ∧ (t.module m).placement = (s.module m).placement ∧
     (∀ d, s.moduleOf d = m → (t.die d).means = (s.die d).means) ∧
     (t.module m).dump = (s.module m).dump ∧ (t.module m).fwKeys = none ∧ (t.module m).running = none) ∧
   (∀ m n, 1 ≤ n → n ≤ 255 →
     Becomes (.vfFlr m n) (fun s => (s.vd (vdKey m n)).state = .free) (fun s => s) ∧
     Becomes (.vfFlr m n) (fun s => (s.vd (vdKey m n)).state = .configured ∨ (s.vd (vdKey m n)).state = .stopped ∨
       (s.vd (vdKey m n)).state = .lost) (fun s => s.releaseVd (vdKey m n)) ∧
     Becomes (.vfFlr m n) (fun s => (s.vd (vdKey m n)).state = .running) (fun s =>
       (s.modVd (vdKey m n) fun v => { v with releaseWanted := true }).stopVd (vdKey m n)) ∧
     Becomes (.vfFlr m n) (fun s => (s.vd (vdKey m n)).state = .sealed ∨ (s.vd (vdKey m n)).state = .committing)
       (fun s => s.modVd (vdKey m n) fun v => { v with releaseWanted := true }) ∧
     Becomes (.vfFlr m n) (fun s => (s.vd (vdKey m n)).state = .exporting)
       (fun s => (s.modVd (vdKey m n) fun v => { v with state := .stopped, migr := {} }).releaseVd (vdKey m n)) ∧
     Becomes (.vfFlr m n) (fun s => (s.vd (vdKey m n)).state = .importing)
       (fun s => { s with vds := NMap.erase s.vds (vdKey m n) })) ∧
   (∀ m, Becomes (.pfFlr m) (fun _ => True) fun s =>
     ((s.vds.filter fun v => v.1 / 256 = m).map (·.1)).foldl State.flrVd s)) ∧
  ((∀ (s : State) d image, (s.die d).service = .reset → (s.module (s.moduleOf d)).bootImage = some image →
     (s.module (s.moduleOf d)).factoryOk = true → s.pufOk d = true → s.dieInModule d = 0 →
     ∃ t, exec (.resetRelease d) s = .next t ∧ KeepsMemory s t ∧ (t.die d).service = .test ∧ (t.die d).clk = (s.die d).clk ∧
       (t.module (s.moduleOf d)).running = some (imageId image) ∧ (t.module (s.moduleOf d)).fwKeys.isSome = true) ∧
   (∀ (s : State) d, (s.die d).service = .reset → (s.module (s.moduleOf d)).bootImage = none →
     ∃ t, exec (.resetRelease d) s = .next t ∧ KeepsMemory s t ∧ (t.die d).service = .out ∧ (t.die d).ports = 0#6) ∧
   (∀ (s : State) d up, (s.die d).service = .test →
     (∃ t, exec (.testComplete d true up) s = .next t ∧ KeepsMemory s t ∧ (t.die d).service = .early ∧ (t.die d).ports = s.usable d up) ∧
     (∃ t, exec (.testComplete d false up) s = .next t ∧ KeepsMemory s t ∧ (t.die d).service = .out ∧ (t.die d).ports = 0#6)) ∧
   (∀ (s : State) d (up : BitVec 6) p, p < 6 → (s.usable d up).getLsbD p =
     (up.getLsbD p && s.mayServe d p && (s.die (s.neighbour d p)).service != .out)) ∧
   (∀ (s : State) d, (s.die d).service = .early →
     (∃ t, exec (.arraySelfTestDone d true) s = .next t ∧ KeepsMemory s t ∧ (t.die d).service = .full ∧
       (t.die d).ports = (s.die d).ports ∧ t.tasks = s.tasks) ∧
     (∃ t, exec (.arraySelfTestDone d false) s = .next t ∧ KeepsMemory s t ∧ (t.die d).service = .out ∧ (t.die d).ports = 0#6)))

/-- A fatal error of a die that is out of RESET (15 R337 to R339): the dies of its module are FATAL, the keys of its VDs, windows
and firmware are gone, and a dump is made unless one is held, which then counts it. Power, heat and health of a die that is out of
RESET (15 R335, R336, R340): idle cycles are inserted for heat from 100 °C until below 98 °C and for power while the mean is above
the die's share of the module's limit, in proportion to the dies' demands; a health record has a higher stamp and the maxima just
measured; margins are kept, and 24 of them make a daily mean, of which 90 are kept.
Where the manual leaves a choice, the model's is in log 31. -/
def Obligations.FatalErrorsAndHealth : Prop :=
  (∀ i d, i = .dmcWatchdogExpiry d ∨ i = .firmwareStateError d ∨ i = .thermalTrip d ∨ i = .powerRailFault d →
     ∀ s : State, (s.die d).service ≠ .reset → ∃ t, exec i s = .next t ∧ KeepsMemory s t ∧
       (∀ x, x ∈ s.diesOfModule (s.moduleOf d) → (t.die x).service = .fatal) ∧
       (∀ k, k / 256 = s.moduleOf d → (t.vd k).keys = none) ∧ (t.module (s.moduleOf d)).fwKeys = none ∧
       (∀ w, w ∈ t.windows → w.1 / 256 = s.moduleOf d → w.2.keys = (0#256, 0#256)) ∧
       ((s.module (s.moduleOf d)).dump = none → (t.module (s.moduleOf d)).dump.isSome = true ∧
         (t.module (s.moduleOf d)).dumpMore = 0) ∧
       ((s.module (s.moduleOf d)).dump.isSome = true → (t.module (s.moduleOf d)).dump = (s.module (s.moduleOf d)).dump ∧
         (t.module (s.moduleOf d)).dumpMore = min ((s.module (s.moduleOf d)).dumpMore + 1) 0xFFFFFFFF)) ∧
  (∀ (s : State) d, (s.die d).service ≠ .reset →
     (∃ t, exec (.thermalLimit d) s = .next t ∧ KeepsMemory s t ∧ (t.die d).idleHeat = true) ∧
     (∃ t, exec (.thermalRecovery d) s = .next t ∧ KeepsMemory s t ∧ (t.die d).idleHeat = false) ∧
     (∀ mean demand, ∃ t, exec (.powerShareCheck d mean demand) s = .next t ∧ KeepsMemory s t ∧ (t.die d).demand = demand ∧
       ((t.die d).idlePower = true ↔ (s.modDie d fun x => { x with demand }).powerShare d < mean)) ∧
       (s.powerShare d = (s.module (s.moduleOf d)).limit * (s.die d).demand /
         ((s.diesOfModule (s.moduleOf d)).map fun x => (s.die x).demand).sum) ∧
     (∀ tmax pw, (s.die d).lastRecord + 10 ^ 7 ≤ (s.die d).clk.toNat → ∃ t, exec (.healthRecordUpdate d tmax pw) s = .next t ∧
       KeepsMemory s t ∧ (t.die d).stamp = (s.die d).stamp + 1 ∧ (t.die d).tmax = BitVec.ofNat 16 tmax ∧
       (t.die d).pw = BitVec.ofNat 32 pw ∧ (t.die d).lastRecord = (s.die d).clk.toNat) ∧
     (∀ slack, (s.die d).service = .full → (s.die d).lastMargin + 3600 * 10 ^ 8 ≤ (s.die d).clk.toNat →
       ∃ t, exec (.marginMeasurement d slack) s = .next t ∧ KeepsMemory s t ∧ (t.die d).marg = BitVec.ofNat 32 slack ∧
         (t.die d).margins = (s.die d).margins ++ [slack] ∧ (t.die d).lastMargin = (s.die d).clk.toNat) ∧
     (24 ≤ (s.die d).margins.length → ∃ t, exec (.dailyMarginMean d) s = .next t ∧ KeepsMemory s t ∧
       (t.die d).margins = (s.die d).margins.drop 24 ∧
       (t.die d).means.getLast? = some (((s.die d).margins.take 24).sum / 24) ∧
       ((s.die d).means.length ≤ 90 → (t.die d).means.length ≤ 90)))
end

