-- ==== Sys2Proof/Laws/Crypto.lean ====
section
/-!
SUPPORT. Powers in the field of Ed25519, and a key under which one signature holds for every message: the neutral element, which
witnesses take for the key of a peer whose messages are not known.
-/

namespace Sys2Proof.Laws

open Sys2Proof.Machine

/-! ### Powers -/

/-- The two halves of a power after n bits of the exponent. -/
theorem fpow_bits (a e n : Nat) :
    (List.range n).foldl (fun (r : Nat × Nat) i =>
      (if e.testBit i then r.1 * r.2 % fieldP else r.1, r.2 * r.2 % fieldP)) (1, a % fieldP) =
    (a ^ (e % 2 ^ n) % fieldP, a ^ 2 ^ n % fieldP) := by
  induction n with
  | zero => simp [Nat.mod_one, show 1 % fieldP = 1 from rfl]
  | succ n ih =>
    rw [List.range_succ, List.foldl_append, ih, List.foldl_cons, List.foldl_nil, Prod.mk.injEq]
    constructor
    · rw [Nat.mod_pow_succ, Nat.testBit_eq_decide_div_mod_eq]
      rcases Nat.mod_two_eq_zero_or_one (e / 2 ^ n) with h | h <;> simp [h, pow_add, Nat.mul_mod]
    · rw [← Nat.mul_mod, ← pow_add, pow_succ, mul_two]

theorem fpow_eq (a e : Nat) (h : e < 2 ^ 256) : fpow a e = a ^ e % fieldP := by
  rw [fpow, fpow_bits, Nat.mod_eq_of_lt h]

/-- The numbers whose inverse is found by Fermat's theorem. -/
def FieldUnit (z : Nat) : Prop := z ^ (fieldP - 1) ≡ 1 [MOD fieldP]

theorem unit_two : FieldUnit 2 := by
  have h : fpow 2 (fieldP - 1) = 1 := by decide +kernel
  rwa [fpow_eq _ _ (by decide +kernel)] at h

theorem FieldUnit.mul {a b : Nat} (h : FieldUnit a) (g : FieldUnit b) : FieldUnit (a * b) := by
  simpa [FieldUnit, mul_pow] using Nat.ModEq.mul h g

theorem FieldUnit.mod {a : Nat} (h : FieldUnit a) : FieldUnit (a % fieldP) := ((Nat.mod_modEq a fieldP).pow _).trans h

theorem mul_finv {z : Nat} (h : FieldUnit z) : z * finv z % fieldP = 1 := by
  have e : fieldP - 1 = (fieldP - 2) + 1 := by decide +kernel
  rw [finv, fpow_eq _ _ (by decide +kernel), Nat.mul_mod, Nat.mod_mod, ← Nat.mul_mod, mul_comm, ← pow_succ, ← e]
  exact h

/-! ### The neutral element -/

/-- The coordinates of the neutral element, up to scale. -/
def Neutral (p : EdPoint) : Prop := p.x = 0 ∧ p.t = 0 ∧ p.y = p.z ∧ FieldUnit p.z

theorem fsub_zero (a : Nat) : fsub a 0 = a % fieldP := by simp [fsub]

theorem fsub_self (a : Nat) : fsub (a % fieldP) (a % fieldP) = 0 := by simp [fsub]

theorem Neutral.add {p q : EdPoint} (h : Neutral p) (g : Neutral q) : Neutral (p.add q) := by
  obtain ⟨hx, ht, hy, hz⟩ := h
  obtain ⟨gx, gt, gy, gz⟩ := g
  have b : p.z % fieldP * (q.z % fieldP) % fieldP = p.z * q.z % fieldP := (Nat.mul_mod _ _ _).symm
  have s : (p.z * q.z % fieldP + p.z * q.z % fieldP) % fieldP = 2 * p.z * q.z % fieldP := by
    rw [← Nat.add_mod, mul_assoc, two_mul]
  refine ⟨?_, ?_, ?_, ?_⟩
  · simp [EdPoint.add, hx, gx, hy, gy, ht, fsub_zero, b, fsub_self]
  · simp [EdPoint.add, hx, gx, hy, gy, ht, fsub_zero, b, fsub_self]
  · simp only [EdPoint.add, hx, gx, hy, gy, ht, fsub_zero, b, mul_zero, zero_mul, Nat.zero_mod, add_zero]
    rw [Nat.mul_mod, s, Nat.mod_mod]
  · simp only [EdPoint.add, ht, mul_zero, zero_mul, Nat.zero_mod, add_zero, fsub_zero, Nat.mod_mod]
    have u := ((unit_two.mul hz).mul gz).mod
    exact (u.mul u).mod

theorem Neutral.encode {p : EdPoint} (h : Neutral p) : p.encode = 1 := by
  obtain ⟨hx, _, hy, hz⟩ := h
  simp [EdPoint.encode, hx, hy, mul_finv hz]

theorem Neutral.neg {p : EdPoint} (h : Neutral p) : Neutral p.neg := by
  obtain ⟨hx, ht, hy, hz⟩ := h
  exact ⟨by simp [EdPoint.neg, hx, fsub], by simp [EdPoint.neg, ht, fsub], hy, hz⟩

theorem neutral_one : Neutral ⟨0, 1, 1, 0⟩ := ⟨rfl, rfl, rfl, by simp [FieldUnit]; rfl⟩

/-- A multiple of the neutral element. -/
theorem Neutral.mul {p : EdPoint} (h : Neutral p) (n : Nat) : Neutral (p.mul n) := by
  suffices k : ∀ l : List Nat, ∀ r : EdPoint × EdPoint, Neutral r.1 → Neutral r.2 →
      Neutral (l.foldl (fun (r : EdPoint × EdPoint) i => (if n.testBit i then r.1.add r.2 else r.1, r.2.add r.2)) r).1 from
    k _ _ neutral_one h
  intro l
  induction l with
  | nil => exact fun _ h _ => h
  | cons i l ih =>
    intro r h g
    refine ih _ ?_ (g.add g)
    by_cases c : n.testBit i
    · simpa [c] using h.add g
    · simpa [c] using h

/-- No multiple of a point is the neutral element. -/
theorem mul_none (p : EdPoint) : Neutral (p.mul 0) := by
  suffices k : ∀ l : List Nat, ∀ r : EdPoint × EdPoint,
      (l.foldl (fun (r : EdPoint × EdPoint) i => (if (0 : Nat).testBit i then r.1.add r.2 else r.1, r.2.add r.2)) r).1 = r.1 by
    rw [EdPoint.mul, k]; exact neutral_one
  intro l
  induction l with
  | nil => exact fun _ => rfl
  | cons i l ih => intro r; rw [List.foldl_cons, ih]; simp

theorem decode_one : ∃ a, edDecode 1 = some a ∧ Neutral a := by
  have h : (edDecode 1).map (fun p => (p.x, p.y, p.z, p.t)) = some (0, 1, 1, 0) := by decide +kernel
  obtain ⟨a, ha, e⟩ := Option.map_eq_some_iff.mp h
  obtain ⟨x, y, z, t⟩ := a
  obtain ⟨rfl, rfl, rfl, rfl⟩ : x = 0 ∧ y = 1 ∧ z = 1 ∧ t = 0 := by simpa using e
  exact ⟨_, ha, neutral_one⟩

/-- Under the key that encodes the neutral element, the signature of the neutral element and the scalar 0 holds for every message. -/
theorem edVerify_one (m : List Byte) : edVerify 1#256 m 1#512 = true := by
  obtain ⟨a, ha, na⟩ := decode_one
  have k : (1#256 : BitVec 256).toNat = 1 := rfl
  have r : (1#512 : BitVec 512).toNat % 2 ^ 256 = 1 ∧ (1#512 : BitVec 512).toNat / 2 ^ 256 = 0 := by decide +kernel
  simp only [edVerify, k, r.1, r.2, ha]
  rw [((mul_none edBase).add (na.mul _).neg).encode]
  decide

end Sys2Proof.Laws
end

