-- ==== Sys2Proof/Laws/State.lean ====
section
/-!
SUPPORT. What each basic update of the state leaves as it was, field by field, and what it puts in the field it changes.
-/

namespace Sys2Proof.Laws

open Sys2Proof.Machine

/-! ### `State.setTask` -/

@[simp] theorem setTask_lx (s : State) (u : Nat) (t : Task) : (s.setTask u t).lx = s.lx := rfl
@[simp] theorem setTask_ly (s : State) (u : Nat) (t : Task) : (s.setTask u t).ly = s.ly := rfl
@[simp] theorem setTask_lz (s : State) (u : Nat) (t : Task) : (s.setTask u t).lz = s.lz := rfl
@[simp] theorem setTask_modules (s : State) (u : Nat) (t : Task) : (s.setTask u t).modules = s.modules := rfl
@[simp] theorem setTask_dies (s : State) (u : Nat) (t : Task) : (s.setTask u t).dies = s.dies := rfl
@[simp] theorem setTask_cores (s : State) (u : Nat) (t : Task) : (s.setTask u t).cores = s.cores := rfl
@[simp] theorem setTask_vds (s : State) (u : Nat) (t : Task) : (s.setTask u t).vds = s.vds := rfl
@[simp] theorem setTask_windows (s : State) (u : Nat) (t : Task) : (s.setTask u t).windows = s.windows := rfl
@[simp] theorem setTask_bells (s : State) (u : Nat) (t : Task) : (s.setTask u t).bells = s.bells := rfl
@[simp] theorem setTask_owed (s : State) (u : Nat) (t : Task) : (s.setTask u t).owed = s.owed := rfl
@[simp] theorem setTask_accesses (s : State) (u : Nat) (t : Task) : (s.setTask u t).accesses = s.accesses := rfl
@[simp] theorem setTask_copies (s : State) (u : Nat) (t : Task) : (s.setTask u t).copies = s.copies := rfl
@[simp] theorem setTask_walks (s : State) (u : Nat) (t : Task) : (s.setTask u t).walks = s.walks := rfl
@[simp] theorem setTask_tlbis (s : State) (u : Nat) (t : Task) : (s.setTask u t).tlbis = s.tlbis := rfl
@[simp] theorem setTask_barriers (s : State) (u : Nat) (t : Task) : (s.setTask u t).barriers = s.barriers := rfl
@[simp] theorem setTask_packets (s : State) (u : Nat) (t : Task) : (s.setTask u t).packets = s.packets := rfl
@[simp] theorem setTask_splits (s : State) (u : Nat) (t : Task) : (s.setTask u t).splits = s.splits := rfl
@[simp] theorem setTask_combines (s : State) (u : Nat) (t : Task) : (s.setTask u t).combines = s.combines := rfl
@[simp] theorem setTask_rounds (s : State) (u : Nat) (t : Task) : (s.setTask u t).rounds = s.rounds := rfl
@[simp] theorem setTask_mem (s : State) (u : Nat) (t : Task) : (s.setTask u t).mem = s.mem := rfl
@[simp] theorem setTask_bad (s : State) (u : Nat) (t : Task) : (s.setTask u t).bad = s.bad := rfl
@[simp] theorem setTask_poison (s : State) (u : Nat) (t : Task) : (s.setTask u t).poison = s.poison := rfl
@[simp] theorem setTask_minors (s : State) (u : Nat) (t : Task) : (s.setTask u t).minors = s.minors := rfl
@[simp] theorem setTask_hwids (s : State) (u : Nat) (t : Task) : (s.setTask u t).hwids = s.hwids := rfl
@[simp] theorem setTask_sealed (s : State) (u : Nat) (t : Task) : (s.setTask u t).sealed = s.sealed := rfl
@[simp] theorem setTask_views (s : State) (u : Nat) (t : Task) : (s.setTask u t).views = s.views := rfl
@[simp] theorem setTask_nodes (s : State) (u : Nat) (t : Task) : (s.setTask u t).nodes = s.nodes := rfl
@[simp] theorem setTask_majors (s : State) (u : Nat) (t : Task) : (s.setTask u t).majors = s.majors := rfl
@[simp] theorem setTask_cur (s : State) (u : Nat) (t : Task) : (s.setTask u t).cur = s.cur := rfl
@[simp] theorem setTask_agenda (s : State) (u : Nat) (t : Task) : (s.setTask u t).agenda = s.agenda := rfl
@[simp] theorem setTask_choice (s : State) (u : Nat) (t : Task) : (s.setTask u t).choice = s.choice := rfl
@[simp] theorem setTask_fresh (s : State) (u : Nat) (t : Task) : (s.setTask u t).fresh = s.fresh := rfl
@[simp] theorem setTask_nextUid (s : State) (u : Nat) (t : Task) : (s.setTask u t).nextUid = s.nextUid := rfl
@[simp] theorem setTask_nextId (s : State) (u : Nat) (t : Task) : (s.setTask u t).nextId = s.nextId := rfl

/-! ### `State.modTask` -/

@[simp] theorem modTask_lx (s : State) (u : Nat) (f : Task → Task) : (s.modTask u f).lx = s.lx := rfl
@[simp] theorem modTask_ly (s : State) (u : Nat) (f : Task → Task) : (s.modTask u f).ly = s.ly := rfl
@[simp] theorem modTask_lz (s : State) (u : Nat) (f : Task → Task) : (s.modTask u f).lz = s.lz := rfl
@[simp] theorem modTask_modules (s : State) (u : Nat) (f : Task → Task) : (s.modTask u f).modules = s.modules := rfl
@[simp] theorem modTask_dies (s : State) (u : Nat) (f : Task → Task) : (s.modTask u f).dies = s.dies := rfl
@[simp] theorem modTask_cores (s : State) (u : Nat) (f : Task → Task) : (s.modTask u f).cores = s.cores := rfl
@[simp] theorem modTask_vds (s : State) (u : Nat) (f : Task → Task) : (s.modTask u f).vds = s.vds := rfl
@[simp] theorem modTask_windows (s : State) (u : Nat) (f : Task → Task) : (s.modTask u f).windows = s.windows := rfl
@[simp] theorem modTask_bells (s : State) (u : Nat) (f : Task → Task) : (s.modTask u f).bells = s.bells := rfl
@[simp] theorem modTask_owed (s : State) (u : Nat) (f : Task → Task) : (s.modTask u f).owed = s.owed := rfl
@[simp] theorem modTask_accesses (s : State) (u : Nat) (f : Task → Task) : (s.modTask u f).accesses = s.accesses := rfl
@[simp] theorem modTask_copies (s : State) (u : Nat) (f : Task → Task) : (s.modTask u f).copies = s.copies := rfl
@[simp] theorem modTask_walks (s : State) (u : Nat) (f : Task → Task) : (s.modTask u f).walks = s.walks := rfl
@[simp] theorem modTask_tlbis (s : State) (u : Nat) (f : Task → Task) : (s.modTask u f).tlbis = s.tlbis := rfl
@[simp] theorem modTask_barriers (s : State) (u : Nat) (f : Task → Task) : (s.modTask u f).barriers = s.barriers := rfl
@[simp] theorem modTask_packets (s : State) (u : Nat) (f : Task → Task) : (s.modTask u f).packets = s.packets := rfl
@[simp] theorem modTask_splits (s : State) (u : Nat) (f : Task → Task) : (s.modTask u f).splits = s.splits := rfl
@[simp] theorem modTask_combines (s : State) (u : Nat) (f : Task → Task) : (s.modTask u f).combines = s.combines := rfl
@[simp] theorem modTask_rounds (s : State) (u : Nat) (f : Task → Task) : (s.modTask u f).rounds = s.rounds := rfl
@[simp] theorem modTask_mem (s : State) (u : Nat) (f : Task → Task) : (s.modTask u f).mem = s.mem := rfl
@[simp] theorem modTask_bad (s : State) (u : Nat) (f : Task → Task) : (s.modTask u f).bad = s.bad := rfl
@[simp] theorem modTask_poison (s : State) (u : Nat) (f : Task → Task) : (s.modTask u f).poison = s.poison := rfl
@[simp] theorem modTask_minors (s : State) (u : Nat) (f : Task → Task) : (s.modTask u f).minors = s.minors := rfl
@[simp] theorem modTask_hwids (s : State) (u : Nat) (f : Task → Task) : (s.modTask u f).hwids = s.hwids := rfl
@[simp] theorem modTask_sealed (s : State) (u : Nat) (f : Task → Task) : (s.modTask u f).sealed = s.sealed := rfl
@[simp] theorem modTask_views (s : State) (u : Nat) (f : Task → Task) : (s.modTask u f).views = s.views := rfl
@[simp] theorem modTask_nodes (s : State) (u : Nat) (f : Task → Task) : (s.modTask u f).nodes = s.nodes := rfl
@[simp] theorem modTask_majors (s : State) (u : Nat) (f : Task → Task) : (s.modTask u f).majors = s.majors := rfl
@[simp] theorem modTask_cur (s : State) (u : Nat) (f : Task → Task) : (s.modTask u f).cur = s.cur := rfl
@[simp] theorem modTask_agenda (s : State) (u : Nat) (f : Task → Task) : (s.modTask u f).agenda = s.agenda := rfl
@[simp] theorem modTask_choice (s : State) (u : Nat) (f : Task → Task) : (s.modTask u f).choice = s.choice := rfl
@[simp] theorem modTask_fresh (s : State) (u : Nat) (f : Task → Task) : (s.modTask u f).fresh = s.fresh := rfl
@[simp] theorem modTask_nextUid (s : State) (u : Nat) (f : Task → Task) : (s.modTask u f).nextUid = s.nextUid := rfl
@[simp] theorem modTask_nextId (s : State) (u : Nat) (f : Task → Task) : (s.modTask u f).nextId = s.nextId := rfl

/-! ### `State.modMe` -/

@[simp] theorem modMe_lx (s : State) (f : Task → Task) : (s.modMe f).lx = s.lx := rfl
@[simp] theorem modMe_ly (s : State) (f : Task → Task) : (s.modMe f).ly = s.ly := rfl
@[simp] theorem modMe_lz (s : State) (f : Task → Task) : (s.modMe f).lz = s.lz := rfl
@[simp] theorem modMe_modules (s : State) (f : Task → Task) : (s.modMe f).modules = s.modules := rfl
@[simp] theorem modMe_dies (s : State) (f : Task → Task) : (s.modMe f).dies = s.dies := rfl
@[simp] theorem modMe_cores (s : State) (f : Task → Task) : (s.modMe f).cores = s.cores := rfl
@[simp] theorem modMe_vds (s : State) (f : Task → Task) : (s.modMe f).vds = s.vds := rfl
@[simp] theorem modMe_windows (s : State) (f : Task → Task) : (s.modMe f).windows = s.windows := rfl
@[simp] theorem modMe_bells (s : State) (f : Task → Task) : (s.modMe f).bells = s.bells := rfl
@[simp] theorem modMe_owed (s : State) (f : Task → Task) : (s.modMe f).owed = s.owed := rfl
@[simp] theorem modMe_accesses (s : State) (f : Task → Task) : (s.modMe f).accesses = s.accesses := rfl
@[simp] theorem modMe_copies (s : State) (f : Task → Task) : (s.modMe f).copies = s.copies := rfl
@[simp] theorem modMe_walks (s : State) (f : Task → Task) : (s.modMe f).walks = s.walks := rfl
@[simp] theorem modMe_tlbis (s : State) (f : Task → Task) : (s.modMe f).tlbis = s.tlbis := rfl
@[simp] theorem modMe_barriers (s : State) (f : Task → Task) : (s.modMe f).barriers = s.barriers := rfl
@[simp] theorem modMe_packets (s : State) (f : Task → Task) : (s.modMe f).packets = s.packets := rfl
@[simp] theorem modMe_splits (s : State) (f : Task → Task) : (s.modMe f).splits = s.splits := rfl
@[simp] theorem modMe_combines (s : State) (f : Task → Task) : (s.modMe f).combines = s.combines := rfl
@[simp] theorem modMe_rounds (s : State) (f : Task → Task) : (s.modMe f).rounds = s.rounds := rfl
@[simp] theorem modMe_mem (s : State) (f : Task → Task) : (s.modMe f).mem = s.mem := rfl
@[simp] theorem modMe_bad (s : State) (f : Task → Task) : (s.modMe f).bad = s.bad := rfl
@[simp] theorem modMe_poison (s : State) (f : Task → Task) : (s.modMe f).poison = s.poison := rfl
@[simp] theorem modMe_minors (s : State) (f : Task → Task) : (s.modMe f).minors = s.minors := rfl
@[simp] theorem modMe_hwids (s : State) (f : Task → Task) : (s.modMe f).hwids = s.hwids := rfl
@[simp] theorem modMe_sealed (s : State) (f : Task → Task) : (s.modMe f).sealed = s.sealed := rfl
@[simp] theorem modMe_views (s : State) (f : Task → Task) : (s.modMe f).views = s.views := rfl
@[simp] theorem modMe_nodes (s : State) (f : Task → Task) : (s.modMe f).nodes = s.nodes := rfl
@[simp] theorem modMe_majors (s : State) (f : Task → Task) : (s.modMe f).majors = s.majors := rfl
@[simp] theorem modMe_cur (s : State) (f : Task → Task) : (s.modMe f).cur = s.cur := rfl
@[simp] theorem modMe_agenda (s : State) (f : Task → Task) : (s.modMe f).agenda = s.agenda := rfl
@[simp] theorem modMe_choice (s : State) (f : Task → Task) : (s.modMe f).choice = s.choice := rfl
@[simp] theorem modMe_fresh (s : State) (f : Task → Task) : (s.modMe f).fresh = s.fresh := rfl
@[simp] theorem modMe_nextUid (s : State) (f : Task → Task) : (s.modMe f).nextUid = s.nextUid := rfl
@[simp] theorem modMe_nextId (s : State) (f : Task → Task) : (s.modMe f).nextId = s.nextId := rfl

/-! ### `State.modEng` -/

@[simp] theorem modEng_lx (s : State) (f : Eng → Eng) : (s.modEng f).lx = s.lx := rfl
@[simp] theorem modEng_ly (s : State) (f : Eng → Eng) : (s.modEng f).ly = s.ly := rfl
@[simp] theorem modEng_lz (s : State) (f : Eng → Eng) : (s.modEng f).lz = s.lz := rfl
@[simp] theorem modEng_modules (s : State) (f : Eng → Eng) : (s.modEng f).modules = s.modules := rfl
@[simp] theorem modEng_dies (s : State) (f : Eng → Eng) : (s.modEng f).dies = s.dies := rfl
@[simp] theorem modEng_cores (s : State) (f : Eng → Eng) : (s.modEng f).cores = s.cores := rfl
@[simp] theorem modEng_vds (s : State) (f : Eng → Eng) : (s.modEng f).vds = s.vds := rfl
@[simp] theorem modEng_windows (s : State) (f : Eng → Eng) : (s.modEng f).windows = s.windows := rfl
@[simp] theorem modEng_bells (s : State) (f : Eng → Eng) : (s.modEng f).bells = s.bells := rfl
@[simp] theorem modEng_owed (s : State) (f : Eng → Eng) : (s.modEng f).owed = s.owed := rfl
@[simp] theorem modEng_accesses (s : State) (f : Eng → Eng) : (s.modEng f).accesses = s.accesses := rfl
@[simp] theorem modEng_copies (s : State) (f : Eng → Eng) : (s.modEng f).copies = s.copies := rfl
@[simp] theorem modEng_walks (s : State) (f : Eng → Eng) : (s.modEng f).walks = s.walks := rfl
@[simp] theorem modEng_tlbis (s : State) (f : Eng → Eng) : (s.modEng f).tlbis = s.tlbis := rfl
@[simp] theorem modEng_barriers (s : State) (f : Eng → Eng) : (s.modEng f).barriers = s.barriers := rfl
@[simp] theorem modEng_packets (s : State) (f : Eng → Eng) : (s.modEng f).packets = s.packets := rfl
@[simp] theorem modEng_splits (s : State) (f : Eng → Eng) : (s.modEng f).splits = s.splits := rfl
@[simp] theorem modEng_combines (s : State) (f : Eng → Eng) : (s.modEng f).combines = s.combines := rfl
@[simp] theorem modEng_rounds (s : State) (f : Eng → Eng) : (s.modEng f).rounds = s.rounds := rfl
@[simp] theorem modEng_mem (s : State) (f : Eng → Eng) : (s.modEng f).mem = s.mem := rfl
@[simp] theorem modEng_bad (s : State) (f : Eng → Eng) : (s.modEng f).bad = s.bad := rfl
@[simp] theorem modEng_poison (s : State) (f : Eng → Eng) : (s.modEng f).poison = s.poison := rfl
@[simp] theorem modEng_minors (s : State) (f : Eng → Eng) : (s.modEng f).minors = s.minors := rfl
@[simp] theorem modEng_hwids (s : State) (f : Eng → Eng) : (s.modEng f).hwids = s.hwids := rfl
@[simp] theorem modEng_sealed (s : State) (f : Eng → Eng) : (s.modEng f).sealed = s.sealed := rfl
@[simp] theorem modEng_views (s : State) (f : Eng → Eng) : (s.modEng f).views = s.views := rfl
@[simp] theorem modEng_nodes (s : State) (f : Eng → Eng) : (s.modEng f).nodes = s.nodes := rfl
@[simp] theorem modEng_majors (s : State) (f : Eng → Eng) : (s.modEng f).majors = s.majors := rfl
@[simp] theorem modEng_cur (s : State) (f : Eng → Eng) : (s.modEng f).cur = s.cur := rfl
@[simp] theorem modEng_agenda (s : State) (f : Eng → Eng) : (s.modEng f).agenda = s.agenda := rfl
@[simp] theorem modEng_choice (s : State) (f : Eng → Eng) : (s.modEng f).choice = s.choice := rfl
@[simp] theorem modEng_fresh (s : State) (f : Eng → Eng) : (s.modEng f).fresh = s.fresh := rfl
@[simp] theorem modEng_nextUid (s : State) (f : Eng → Eng) : (s.modEng f).nextUid = s.nextUid := rfl
@[simp] theorem modEng_nextId (s : State) (f : Eng → Eng) : (s.modEng f).nextId = s.nextId := rfl

/-! ### `State.setDie` -/

@[simp] theorem setDie_lx (s : State) (d : Nat) (x : Die) : (s.setDie d x).lx = s.lx := rfl
@[simp] theorem setDie_ly (s : State) (d : Nat) (x : Die) : (s.setDie d x).ly = s.ly := rfl
@[simp] theorem setDie_lz (s : State) (d : Nat) (x : Die) : (s.setDie d x).lz = s.lz := rfl
@[simp] theorem setDie_modules (s : State) (d : Nat) (x : Die) : (s.setDie d x).modules = s.modules := rfl
@[simp] theorem setDie_cores (s : State) (d : Nat) (x : Die) : (s.setDie d x).cores = s.cores := rfl
@[simp] theorem setDie_vds (s : State) (d : Nat) (x : Die) : (s.setDie d x).vds = s.vds := rfl
@[simp] theorem setDie_windows (s : State) (d : Nat) (x : Die) : (s.setDie d x).windows = s.windows := rfl
@[simp] theorem setDie_bells (s : State) (d : Nat) (x : Die) : (s.setDie d x).bells = s.bells := rfl
@[simp] theorem setDie_owed (s : State) (d : Nat) (x : Die) : (s.setDie d x).owed = s.owed := rfl
@[simp] theorem setDie_tasks (s : State) (d : Nat) (x : Die) : (s.setDie d x).tasks = s.tasks := rfl
@[simp] theorem setDie_accesses (s : State) (d : Nat) (x : Die) : (s.setDie d x).accesses = s.accesses := rfl
@[simp] theorem setDie_copies (s : State) (d : Nat) (x : Die) : (s.setDie d x).copies = s.copies := rfl
@[simp] theorem setDie_walks (s : State) (d : Nat) (x : Die) : (s.setDie d x).walks = s.walks := rfl
@[simp] theorem setDie_tlbis (s : State) (d : Nat) (x : Die) : (s.setDie d x).tlbis = s.tlbis := rfl
@[simp] theorem setDie_barriers (s : State) (d : Nat) (x : Die) : (s.setDie d x).barriers = s.barriers := rfl
@[simp] theorem setDie_packets (s : State) (d : Nat) (x : Die) : (s.setDie d x).packets = s.packets := rfl
@[simp] theorem setDie_splits (s : State) (d : Nat) (x : Die) : (s.setDie d x).splits = s.splits := rfl
@[simp] theorem setDie_combines (s : State) (d : Nat) (x : Die) : (s.setDie d x).combines = s.combines := rfl
@[simp] theorem setDie_rounds (s : State) (d : Nat) (x : Die) : (s.setDie d x).rounds = s.rounds := rfl
@[simp] theorem setDie_mem (s : State) (d : Nat) (x : Die) : (s.setDie d x).mem = s.mem := rfl
@[simp] theorem setDie_bad (s : State) (d : Nat) (x : Die) : (s.setDie d x).bad = s.bad := rfl
@[simp] theorem setDie_poison (s : State) (d : Nat) (x : Die) : (s.setDie d x).poison = s.poison := rfl
@[simp] theorem setDie_minors (s : State) (d : Nat) (x : Die) : (s.setDie d x).minors = s.minors := rfl
@[simp] theorem setDie_hwids (s : State) (d : Nat) (x : Die) : (s.setDie d x).hwids = s.hwids := rfl
@[simp] theorem setDie_sealed (s : State) (d : Nat) (x : Die) : (s.setDie d x).sealed = s.sealed := rfl
@[simp] theorem setDie_views (s : State) (d : Nat) (x : Die) : (s.setDie d x).views = s.views := rfl
@[simp] theorem setDie_nodes (s : State) (d : Nat) (x : Die) : (s.setDie d x).nodes = s.nodes := rfl
@[simp] theorem setDie_majors (s : State) (d : Nat) (x : Die) : (s.setDie d x).majors = s.majors := rfl
@[simp] theorem setDie_cur (s : State) (d : Nat) (x : Die) : (s.setDie d x).cur = s.cur := rfl
@[simp] theorem setDie_agenda (s : State) (d : Nat) (x : Die) : (s.setDie d x).agenda = s.agenda := rfl
@[simp] theorem setDie_choice (s : State) (d : Nat) (x : Die) : (s.setDie d x).choice = s.choice := rfl
@[simp] theorem setDie_fresh (s : State) (d : Nat) (x : Die) : (s.setDie d x).fresh = s.fresh := rfl
@[simp] theorem setDie_nextUid (s : State) (d : Nat) (x : Die) : (s.setDie d x).nextUid = s.nextUid := rfl
@[simp] theorem setDie_nextId (s : State) (d : Nat) (x : Die) : (s.setDie d x).nextId = s.nextId := rfl

/-! ### `State.modDie` -/

@[simp] theorem modDie_lx (s : State) (d : Nat) (f : Die → Die) : (s.modDie d f).lx = s.lx := rfl
@[simp] theorem modDie_ly (s : State) (d : Nat) (f : Die → Die) : (s.modDie d f).ly = s.ly := rfl
@[simp] theorem modDie_lz (s : State) (d : Nat) (f : Die → Die) : (s.modDie d f).lz = s.lz := rfl
@[simp] theorem modDie_modules (s : State) (d : Nat) (f : Die → Die) : (s.modDie d f).modules = s.modules := rfl
@[simp] theorem modDie_cores (s : State) (d : Nat) (f : Die → Die) : (s.modDie d f).cores = s.cores := rfl
@[simp] theorem modDie_vds (s : State) (d : Nat) (f : Die → Die) : (s.modDie d f).vds = s.vds := rfl
@[simp] theorem modDie_windows (s : State) (d : Nat) (f : Die → Die) : (s.modDie d f).windows = s.windows := rfl
@[simp] theorem modDie_bells (s : State) (d : Nat) (f : Die → Die) : (s.modDie d f).bells = s.bells := rfl
@[simp] theorem modDie_owed (s : State) (d : Nat) (f : Die → Die) : (s.modDie d f).owed = s.owed := rfl
@[simp] theorem modDie_tasks (s : State) (d : Nat) (f : Die → Die) : (s.modDie d f).tasks = s.tasks := rfl
@[simp] theorem modDie_accesses (s : State) (d : Nat) (f : Die → Die) : (s.modDie d f).accesses = s.accesses := rfl
@[simp] theorem modDie_copies (s : State) (d : Nat) (f : Die → Die) : (s.modDie d f).copies = s.copies := rfl
@[simp] theorem modDie_walks (s : State) (d : Nat) (f : Die → Die) : (s.modDie d f).walks = s.walks := rfl
@[simp] theorem modDie_tlbis (s : State) (d : Nat) (f : Die → Die) : (s.modDie d f).tlbis = s.tlbis := rfl
@[simp] theorem modDie_barriers (s : State) (d : Nat) (f : Die → Die) : (s.modDie d f).barriers = s.barriers := rfl
@[simp] theorem modDie_packets (s : State) (d : Nat) (f : Die → Die) : (s.modDie d f).packets = s.packets := rfl
@[simp] theorem modDie_splits (s : State) (d : Nat) (f : Die → Die) : (s.modDie d f).splits = s.splits := rfl
@[simp] theorem modDie_combines (s : State) (d : Nat) (f : Die → Die) : (s.modDie d f).combines = s.combines := rfl
@[simp] theorem modDie_rounds (s : State) (d : Nat) (f : Die → Die) : (s.modDie d f).rounds = s.rounds := rfl
@[simp] theorem modDie_mem (s : State) (d : Nat) (f : Die → Die) : (s.modDie d f).mem = s.mem := rfl
@[simp] theorem modDie_bad (s : State) (d : Nat) (f : Die → Die) : (s.modDie d f).bad = s.bad := rfl
@[simp] theorem modDie_poison (s : State) (d : Nat) (f : Die → Die) : (s.modDie d f).poison = s.poison := rfl
@[simp] theorem modDie_minors (s : State) (d : Nat) (f : Die → Die) : (s.modDie d f).minors = s.minors := rfl
@[simp] theorem modDie_hwids (s : State) (d : Nat) (f : Die → Die) : (s.modDie d f).hwids = s.hwids := rfl
@[simp] theorem modDie_sealed (s : State) (d : Nat) (f : Die → Die) : (s.modDie d f).sealed = s.sealed := rfl
@[simp] theorem modDie_views (s : State) (d : Nat) (f : Die → Die) : (s.modDie d f).views = s.views := rfl
@[simp] theorem modDie_nodes (s : State) (d : Nat) (f : Die → Die) : (s.modDie d f).nodes = s.nodes := rfl
@[simp] theorem modDie_majors (s : State) (d : Nat) (f : Die → Die) : (s.modDie d f).majors = s.majors := rfl
@[simp] theorem modDie_cur (s : State) (d : Nat) (f : Die → Die) : (s.modDie d f).cur = s.cur := rfl
@[simp] theorem modDie_agenda (s : State) (d : Nat) (f : Die → Die) : (s.modDie d f).agenda = s.agenda := rfl
@[simp] theorem modDie_choice (s : State) (d : Nat) (f : Die → Die) : (s.modDie d f).choice = s.choice := rfl
@[simp] theorem modDie_fresh (s : State) (d : Nat) (f : Die → Die) : (s.modDie d f).fresh = s.fresh := rfl
@[simp] theorem modDie_nextUid (s : State) (d : Nat) (f : Die → Die) : (s.modDie d f).nextUid = s.nextUid := rfl
@[simp] theorem modDie_nextId (s : State) (d : Nat) (f : Die → Die) : (s.modDie d f).nextId = s.nextId := rfl

/-! ### `State.modCore` -/

@[simp] theorem modCore_lx (s : State) (k : Nat) (f : Core → Core) : (s.modCore k f).lx = s.lx := rfl
@[simp] theorem modCore_ly (s : State) (k : Nat) (f : Core → Core) : (s.modCore k f).ly = s.ly := rfl
@[simp] theorem modCore_lz (s : State) (k : Nat) (f : Core → Core) : (s.modCore k f).lz = s.lz := rfl
@[simp] theorem modCore_modules (s : State) (k : Nat) (f : Core → Core) : (s.modCore k f).modules = s.modules := rfl
@[simp] theorem modCore_dies (s : State) (k : Nat) (f : Core → Core) : (s.modCore k f).dies = s.dies := rfl
@[simp] theorem modCore_vds (s : State) (k : Nat) (f : Core → Core) : (s.modCore k f).vds = s.vds := rfl
@[simp] theorem modCore_windows (s : State) (k : Nat) (f : Core → Core) : (s.modCore k f).windows = s.windows := rfl
@[simp] theorem modCore_bells (s : State) (k : Nat) (f : Core → Core) : (s.modCore k f).bells = s.bells := rfl
@[simp] theorem modCore_owed (s : State) (k : Nat) (f : Core → Core) : (s.modCore k f).owed = s.owed := rfl
@[simp] theorem modCore_tasks (s : State) (k : Nat) (f : Core → Core) : (s.modCore k f).tasks = s.tasks := rfl
@[simp] theorem modCore_accesses (s : State) (k : Nat) (f : Core → Core) : (s.modCore k f).accesses = s.accesses := rfl
@[simp] theorem modCore_copies (s : State) (k : Nat) (f : Core → Core) : (s.modCore k f).copies = s.copies := rfl
@[simp] theorem modCore_walks (s : State) (k : Nat) (f : Core → Core) : (s.modCore k f).walks = s.walks := rfl
@[simp] theorem modCore_tlbis (s : State) (k : Nat) (f : Core → Core) : (s.modCore k f).tlbis = s.tlbis := rfl
@[simp] theorem modCore_barriers (s : State) (k : Nat) (f : Core → Core) : (s.modCore k f).barriers = s.barriers := rfl
@[simp] theorem modCore_packets (s : State) (k : Nat) (f : Core → Core) : (s.modCore k f).packets = s.packets := rfl
@[simp] theorem modCore_splits (s : State) (k : Nat) (f : Core → Core) : (s.modCore k f).splits = s.splits := rfl
@[simp] theorem modCore_combines (s : State) (k : Nat) (f : Core → Core) : (s.modCore k f).combines = s.combines := rfl
@[simp] theorem modCore_rounds (s : State) (k : Nat) (f : Core → Core) : (s.modCore k f).rounds = s.rounds := rfl
@[simp] theorem modCore_mem (s : State) (k : Nat) (f : Core → Core) : (s.modCore k f).mem = s.mem := rfl
@[simp] theorem modCore_bad (s : State) (k : Nat) (f : Core → Core) : (s.modCore k f).bad = s.bad := rfl
@[simp] theorem modCore_poison (s : State) (k : Nat) (f : Core → Core) : (s.modCore k f).poison = s.poison := rfl
@[simp] theorem modCore_minors (s : State) (k : Nat) (f : Core → Core) : (s.modCore k f).minors = s.minors := rfl
@[simp] theorem modCore_hwids (s : State) (k : Nat) (f : Core → Core) : (s.modCore k f).hwids = s.hwids := rfl
@[simp] theorem modCore_sealed (s : State) (k : Nat) (f : Core → Core) : (s.modCore k f).sealed = s.sealed := rfl
@[simp] theorem modCore_views (s : State) (k : Nat) (f : Core → Core) : (s.modCore k f).views = s.views := rfl
@[simp] theorem modCore_nodes (s : State) (k : Nat) (f : Core → Core) : (s.modCore k f).nodes = s.nodes := rfl
@[simp] theorem modCore_majors (s : State) (k : Nat) (f : Core → Core) : (s.modCore k f).majors = s.majors := rfl
@[simp] theorem modCore_cur (s : State) (k : Nat) (f : Core → Core) : (s.modCore k f).cur = s.cur := rfl
@[simp] theorem modCore_agenda (s : State) (k : Nat) (f : Core → Core) : (s.modCore k f).agenda = s.agenda := rfl
@[simp] theorem modCore_choice (s : State) (k : Nat) (f : Core → Core) : (s.modCore k f).choice = s.choice := rfl
@[simp] theorem modCore_fresh (s : State) (k : Nat) (f : Core → Core) : (s.modCore k f).fresh = s.fresh := rfl
@[simp] theorem modCore_nextUid (s : State) (k : Nat) (f : Core → Core) : (s.modCore k f).nextUid = s.nextUid := rfl
@[simp] theorem modCore_nextId (s : State) (k : Nat) (f : Core → Core) : (s.modCore k f).nextId = s.nextId := rfl

/-! ### `State.modModule` -/

@[simp] theorem modModule_lx (s : State) (m : Nat) (f : Module → Module) : (s.modModule m f).lx = s.lx := rfl
@[simp] theorem modModule_ly (s : State) (m : Nat) (f : Module → Module) : (s.modModule m f).ly = s.ly := rfl
@[simp] theorem modModule_lz (s : State) (m : Nat) (f : Module → Module) : (s.modModule m f).lz = s.lz := rfl
@[simp] theorem modModule_dies (s : State) (m : Nat) (f : Module → Module) : (s.modModule m f).dies = s.dies := rfl
@[simp] theorem modModule_cores (s : State) (m : Nat) (f : Module → Module) : (s.modModule m f).cores = s.cores := rfl
@[simp] theorem modModule_vds (s : State) (m : Nat) (f : Module → Module) : (s.modModule m f).vds = s.vds := rfl
@[simp] theorem modModule_windows (s : State) (m : Nat) (f : Module → Module) : (s.modModule m f).windows = s.windows := rfl
@[simp] theorem modModule_bells (s : State) (m : Nat) (f : Module → Module) : (s.modModule m f).bells = s.bells := rfl
@[simp] theorem modModule_owed (s : State) (m : Nat) (f : Module → Module) : (s.modModule m f).owed = s.owed := rfl
@[simp] theorem modModule_tasks (s : State) (m : Nat) (f : Module → Module) : (s.modModule m f).tasks = s.tasks := rfl
@[simp] theorem modModule_accesses (s : State) (m : Nat) (f : Module → Module) : (s.modModule m f).accesses = s.accesses := rfl
@[simp] theorem modModule_copies (s : State) (m : Nat) (f : Module → Module) : (s.modModule m f).copies = s.copies := rfl
@[simp] theorem modModule_walks (s : State) (m : Nat) (f : Module → Module) : (s.modModule m f).walks = s.walks := rfl
@[simp] theorem modModule_tlbis (s : State) (m : Nat) (f : Module → Module) : (s.modModule m f).tlbis = s.tlbis := rfl
@[simp] theorem modModule_barriers (s : State) (m : Nat) (f : Module → Module) : (s.modModule m f).barriers = s.barriers := rfl
@[simp] theorem modModule_packets (s : State) (m : Nat) (f : Module → Module) : (s.modModule m f).packets = s.packets := rfl
@[simp] theorem modModule_splits (s : State) (m : Nat) (f : Module → Module) : (s.modModule m f).splits = s.splits := rfl
@[simp] theorem modModule_combines (s : State) (m : Nat) (f : Module → Module) : (s.modModule m f).combines = s.combines := rfl
@[simp] theorem modModule_rounds (s : State) (m : Nat) (f : Module → Module) : (s.modModule m f).rounds = s.rounds := rfl
@[simp] theorem modModule_mem (s : State) (m : Nat) (f : Module → Module) : (s.modModule m f).mem = s.mem := rfl
@[simp] theorem modModule_bad (s : State) (m : Nat) (f : Module → Module) : (s.modModule m f).bad = s.bad := rfl
@[simp] theorem modModule_poison (s : State) (m : Nat) (f : Module → Module) : (s.modModule m f).poison = s.poison := rfl
@[simp] theorem modModule_minors (s : State) (m : Nat) (f : Module → Module) : (s.modModule m f).minors = s.minors := rfl
@[simp] theorem modModule_hwids (s : State) (m : Nat) (f : Module → Module) : (s.modModule m f).hwids = s.hwids := rfl
@[simp] theorem modModule_sealed (s : State) (m : Nat) (f : Module → Module) : (s.modModule m f).sealed = s.sealed := rfl
@[simp] theorem modModule_views (s : State) (m : Nat) (f : Module → Module) : (s.modModule m f).views = s.views := rfl
@[simp] theorem modModule_nodes (s : State) (m : Nat) (f : Module → Module) : (s.modModule m f).nodes = s.nodes := rfl
@[simp] theorem modModule_majors (s : State) (m : Nat) (f : Module → Module) : (s.modModule m f).majors = s.majors := rfl
@[simp] theorem modModule_cur (s : State) (m : Nat) (f : Module → Module) : (s.modModule m f).cur = s.cur := rfl
@[simp] theorem modModule_agenda (s : State) (m : Nat) (f : Module → Module) : (s.modModule m f).agenda = s.agenda := rfl
@[simp] theorem modModule_choice (s : State) (m : Nat) (f : Module → Module) : (s.modModule m f).choice = s.choice := rfl
@[simp] theorem modModule_fresh (s : State) (m : Nat) (f : Module → Module) : (s.modModule m f).fresh = s.fresh := rfl
@[simp] theorem modModule_nextUid (s : State) (m : Nat) (f : Module → Module) : (s.modModule m f).nextUid = s.nextUid := rfl
@[simp] theorem modModule_nextId (s : State) (m : Nat) (f : Module → Module) : (s.modModule m f).nextId = s.nextId := rfl

/-! ### `State.modVd` -/

@[simp] theorem modVd_lx (s : State) (k : Nat) (f : Vd → Vd) : (s.modVd k f).lx = s.lx := rfl
@[simp] theorem modVd_ly (s : State) (k : Nat) (f : Vd → Vd) : (s.modVd k f).ly = s.ly := rfl
@[simp] theorem modVd_lz (s : State) (k : Nat) (f : Vd → Vd) : (s.modVd k f).lz = s.lz := rfl
@[simp] theorem modVd_modules (s : State) (k : Nat) (f : Vd → Vd) : (s.modVd k f).modules = s.modules := rfl
@[simp] theorem modVd_dies (s : State) (k : Nat) (f : Vd → Vd) : (s.modVd k f).dies = s.dies := rfl
@[simp] theorem modVd_cores (s : State) (k : Nat) (f : Vd → Vd) : (s.modVd k f).cores = s.cores := rfl
@[simp] theorem modVd_windows (s : State) (k : Nat) (f : Vd → Vd) : (s.modVd k f).windows = s.windows := rfl
@[simp] theorem modVd_bells (s : State) (k : Nat) (f : Vd → Vd) : (s.modVd k f).bells = s.bells := rfl
@[simp] theorem modVd_owed (s : State) (k : Nat) (f : Vd → Vd) : (s.modVd k f).owed = s.owed := rfl
@[simp] theorem modVd_tasks (s : State) (k : Nat) (f : Vd → Vd) : (s.modVd k f).tasks = s.tasks := rfl
@[simp] theorem modVd_accesses (s : State) (k : Nat) (f : Vd → Vd) : (s.modVd k f).accesses = s.accesses := rfl
@[simp] theorem modVd_copies (s : State) (k : Nat) (f : Vd → Vd) : (s.modVd k f).copies = s.copies := rfl
@[simp] theorem modVd_walks (s : State) (k : Nat) (f : Vd → Vd) : (s.modVd k f).walks = s.walks := rfl
@[simp] theorem modVd_tlbis (s : State) (k : Nat) (f : Vd → Vd) : (s.modVd k f).tlbis = s.tlbis := rfl
@[simp] theorem modVd_barriers (s : State) (k : Nat) (f : Vd → Vd) : (s.modVd k f).barriers = s.barriers := rfl
@[simp] theorem modVd_packets (s : State) (k : Nat) (f : Vd → Vd) : (s.modVd k f).packets = s.packets := rfl
@[simp] theorem modVd_splits (s : State) (k : Nat) (f : Vd → Vd) : (s.modVd k f).splits = s.splits := rfl
@[simp] theorem modVd_combines (s : State) (k : Nat) (f : Vd → Vd) : (s.modVd k f).combines = s.combines := rfl
@[simp] theorem modVd_rounds (s : State) (k : Nat) (f : Vd → Vd) : (s.modVd k f).rounds = s.rounds := rfl
@[simp] theorem modVd_mem (s : State) (k : Nat) (f : Vd → Vd) : (s.modVd k f).mem = s.mem := rfl
@[simp] theorem modVd_bad (s : State) (k : Nat) (f : Vd → Vd) : (s.modVd k f).bad = s.bad := rfl
@[simp] theorem modVd_poison (s : State) (k : Nat) (f : Vd → Vd) : (s.modVd k f).poison = s.poison := rfl
@[simp] theorem modVd_minors (s : State) (k : Nat) (f : Vd → Vd) : (s.modVd k f).minors = s.minors := rfl
@[simp] theorem modVd_hwids (s : State) (k : Nat) (f : Vd → Vd) : (s.modVd k f).hwids = s.hwids := rfl
@[simp] theorem modVd_sealed (s : State) (k : Nat) (f : Vd → Vd) : (s.modVd k f).sealed = s.sealed := rfl
@[simp] theorem modVd_views (s : State) (k : Nat) (f : Vd → Vd) : (s.modVd k f).views = s.views := rfl
@[simp] theorem modVd_nodes (s : State) (k : Nat) (f : Vd → Vd) : (s.modVd k f).nodes = s.nodes := rfl
@[simp] theorem modVd_majors (s : State) (k : Nat) (f : Vd → Vd) : (s.modVd k f).majors = s.majors := rfl
@[simp] theorem modVd_cur (s : State) (k : Nat) (f : Vd → Vd) : (s.modVd k f).cur = s.cur := rfl
@[simp] theorem modVd_agenda (s : State) (k : Nat) (f : Vd → Vd) : (s.modVd k f).agenda = s.agenda := rfl
@[simp] theorem modVd_choice (s : State) (k : Nat) (f : Vd → Vd) : (s.modVd k f).choice = s.choice := rfl
@[simp] theorem modVd_fresh (s : State) (k : Nat) (f : Vd → Vd) : (s.modVd k f).fresh = s.fresh := rfl
@[simp] theorem modVd_nextUid (s : State) (k : Nat) (f : Vd → Vd) : (s.modVd k f).nextUid = s.nextUid := rfl
@[simp] theorem modVd_nextId (s : State) (k : Nat) (f : Vd → Vd) : (s.modVd k f).nextId = s.nextId := rfl

/-! ### `State.modBell` -/

@[simp] theorem modBell_lx (s : State) (k : Nat) (f : Bell → Bell) : (s.modBell k f).lx = s.lx := rfl
@[simp] theorem modBell_ly (s : State) (k : Nat) (f : Bell → Bell) : (s.modBell k f).ly = s.ly := rfl
@[simp] theorem modBell_lz (s : State) (k : Nat) (f : Bell → Bell) : (s.modBell k f).lz = s.lz := rfl
@[simp] theorem modBell_modules (s : State) (k : Nat) (f : Bell → Bell) : (s.modBell k f).modules = s.modules := rfl
@[simp] theorem modBell_dies (s : State) (k : Nat) (f : Bell → Bell) : (s.modBell k f).dies = s.dies := rfl
@[simp] theorem modBell_cores (s : State) (k : Nat) (f : Bell → Bell) : (s.modBell k f).cores = s.cores := rfl
@[simp] theorem modBell_vds (s : State) (k : Nat) (f : Bell → Bell) : (s.modBell k f).vds = s.vds := rfl
@[simp] theorem modBell_windows (s : State) (k : Nat) (f : Bell → Bell) : (s.modBell k f).windows = s.windows := rfl
@[simp] theorem modBell_tasks (s : State) (k : Nat) (f : Bell → Bell) : (s.modBell k f).tasks = s.tasks := rfl
@[simp] theorem modBell_accesses (s : State) (k : Nat) (f : Bell → Bell) : (s.modBell k f).accesses = s.accesses := rfl
@[simp] theorem modBell_copies (s : State) (k : Nat) (f : Bell → Bell) : (s.modBell k f).copies = s.copies := rfl
@[simp] theorem modBell_walks (s : State) (k : Nat) (f : Bell → Bell) : (s.modBell k f).walks = s.walks := rfl
@[simp] theorem modBell_tlbis (s : State) (k : Nat) (f : Bell → Bell) : (s.modBell k f).tlbis = s.tlbis := rfl
@[simp] theorem modBell_barriers (s : State) (k : Nat) (f : Bell → Bell) : (s.modBell k f).barriers = s.barriers := rfl
@[simp] theorem modBell_packets (s : State) (k : Nat) (f : Bell → Bell) : (s.modBell k f).packets = s.packets := rfl
@[simp] theorem modBell_splits (s : State) (k : Nat) (f : Bell → Bell) : (s.modBell k f).splits = s.splits := rfl
@[simp] theorem modBell_combines (s : State) (k : Nat) (f : Bell → Bell) : (s.modBell k f).combines = s.combines := rfl
@[simp] theorem modBell_rounds (s : State) (k : Nat) (f : Bell → Bell) : (s.modBell k f).rounds = s.rounds := rfl
@[simp] theorem modBell_mem (s : State) (k : Nat) (f : Bell → Bell) : (s.modBell k f).mem = s.mem := rfl
@[simp] theorem modBell_bad (s : State) (k : Nat) (f : Bell → Bell) : (s.modBell k f).bad = s.bad := rfl
@[simp] theorem modBell_poison (s : State) (k : Nat) (f : Bell → Bell) : (s.modBell k f).poison = s.poison := rfl
@[simp] theorem modBell_minors (s : State) (k : Nat) (f : Bell → Bell) : (s.modBell k f).minors = s.minors := rfl
@[simp] theorem modBell_hwids (s : State) (k : Nat) (f : Bell → Bell) : (s.modBell k f).hwids = s.hwids := rfl
@[simp] theorem modBell_sealed (s : State) (k : Nat) (f : Bell → Bell) : (s.modBell k f).sealed = s.sealed := rfl
@[simp] theorem modBell_views (s : State) (k : Nat) (f : Bell → Bell) : (s.modBell k f).views = s.views := rfl
@[simp] theorem modBell_nodes (s : State) (k : Nat) (f : Bell → Bell) : (s.modBell k f).nodes = s.nodes := rfl
@[simp] theorem modBell_majors (s : State) (k : Nat) (f : Bell → Bell) : (s.modBell k f).majors = s.majors := rfl
@[simp] theorem modBell_cur (s : State) (k : Nat) (f : Bell → Bell) : (s.modBell k f).cur = s.cur := rfl
@[simp] theorem modBell_agenda (s : State) (k : Nat) (f : Bell → Bell) : (s.modBell k f).agenda = s.agenda := rfl
@[simp] theorem modBell_choice (s : State) (k : Nat) (f : Bell → Bell) : (s.modBell k f).choice = s.choice := rfl
@[simp] theorem modBell_fresh (s : State) (k : Nat) (f : Bell → Bell) : (s.modBell k f).fresh = s.fresh := rfl
@[simp] theorem modBell_nextUid (s : State) (k : Nat) (f : Bell → Bell) : (s.modBell k f).nextUid = s.nextUid := rfl
@[simp] theorem modBell_nextId (s : State) (k : Nat) (f : Bell → Bell) : (s.modBell k f).nextId = s.nextId := rfl

/-! ### `State.setStatus` -/

@[simp] theorem setStatus_lx (s : State) (x : Status) : (s.setStatus x).lx = s.lx := rfl
@[simp] theorem setStatus_ly (s : State) (x : Status) : (s.setStatus x).ly = s.ly := rfl
@[simp] theorem setStatus_lz (s : State) (x : Status) : (s.setStatus x).lz = s.lz := rfl
@[simp] theorem setStatus_modules (s : State) (x : Status) : (s.setStatus x).modules = s.modules := rfl
@[simp] theorem setStatus_dies (s : State) (x : Status) : (s.setStatus x).dies = s.dies := rfl
@[simp] theorem setStatus_cores (s : State) (x : Status) : (s.setStatus x).cores = s.cores := rfl
@[simp] theorem setStatus_vds (s : State) (x : Status) : (s.setStatus x).vds = s.vds := rfl
@[simp] theorem setStatus_windows (s : State) (x : Status) : (s.setStatus x).windows = s.windows := rfl
@[simp] theorem setStatus_bells (s : State) (x : Status) : (s.setStatus x).bells = s.bells := rfl
@[simp] theorem setStatus_owed (s : State) (x : Status) : (s.setStatus x).owed = s.owed := rfl
@[simp] theorem setStatus_tasks (s : State) (x : Status) : (s.setStatus x).tasks = s.tasks := rfl
@[simp] theorem setStatus_accesses (s : State) (x : Status) : (s.setStatus x).accesses = s.accesses := rfl
@[simp] theorem setStatus_copies (s : State) (x : Status) : (s.setStatus x).copies = s.copies := rfl
@[simp] theorem setStatus_walks (s : State) (x : Status) : (s.setStatus x).walks = s.walks := rfl
@[simp] theorem setStatus_tlbis (s : State) (x : Status) : (s.setStatus x).tlbis = s.tlbis := rfl
@[simp] theorem setStatus_barriers (s : State) (x : Status) : (s.setStatus x).barriers = s.barriers := rfl
@[simp] theorem setStatus_packets (s : State) (x : Status) : (s.setStatus x).packets = s.packets := rfl
@[simp] theorem setStatus_splits (s : State) (x : Status) : (s.setStatus x).splits = s.splits := rfl
@[simp] theorem setStatus_combines (s : State) (x : Status) : (s.setStatus x).combines = s.combines := rfl
@[simp] theorem setStatus_rounds (s : State) (x : Status) : (s.setStatus x).rounds = s.rounds := rfl
@[simp] theorem setStatus_mem (s : State) (x : Status) : (s.setStatus x).mem = s.mem := rfl
@[simp] theorem setStatus_bad (s : State) (x : Status) : (s.setStatus x).bad = s.bad := rfl
@[simp] theorem setStatus_poison (s : State) (x : Status) : (s.setStatus x).poison = s.poison := rfl
@[simp] theorem setStatus_minors (s : State) (x : Status) : (s.setStatus x).minors = s.minors := rfl
@[simp] theorem setStatus_hwids (s : State) (x : Status) : (s.setStatus x).hwids = s.hwids := rfl
@[simp] theorem setStatus_sealed (s : State) (x : Status) : (s.setStatus x).sealed = s.sealed := rfl
@[simp] theorem setStatus_views (s : State) (x : Status) : (s.setStatus x).views = s.views := rfl
@[simp] theorem setStatus_nodes (s : State) (x : Status) : (s.setStatus x).nodes = s.nodes := rfl
@[simp] theorem setStatus_majors (s : State) (x : Status) : (s.setStatus x).majors = s.majors := rfl
@[simp] theorem setStatus_agenda (s : State) (x : Status) : (s.setStatus x).agenda = s.agenda := rfl
@[simp] theorem setStatus_choice (s : State) (x : Status) : (s.setStatus x).choice = s.choice := rfl
@[simp] theorem setStatus_fresh (s : State) (x : Status) : (s.setStatus x).fresh = s.fresh := rfl
@[simp] theorem setStatus_nextUid (s : State) (x : Status) : (s.setStatus x).nextUid = s.nextUid := rfl
@[simp] theorem setStatus_nextId (s : State) (x : Status) : (s.setStatus x).nextId = s.nextId := rfl

/-! ### `State.write` -/

@[simp] theorem write_lx (s : State) (x : IssueWrite) : (s.write x).lx = s.lx := rfl
@[simp] theorem write_ly (s : State) (x : IssueWrite) : (s.write x).ly = s.ly := rfl
@[simp] theorem write_lz (s : State) (x : IssueWrite) : (s.write x).lz = s.lz := rfl
@[simp] theorem write_modules (s : State) (x : IssueWrite) : (s.write x).modules = s.modules := rfl
@[simp] theorem write_dies (s : State) (x : IssueWrite) : (s.write x).dies = s.dies := rfl
@[simp] theorem write_cores (s : State) (x : IssueWrite) : (s.write x).cores = s.cores := rfl
@[simp] theorem write_vds (s : State) (x : IssueWrite) : (s.write x).vds = s.vds := rfl
@[simp] theorem write_windows (s : State) (x : IssueWrite) : (s.write x).windows = s.windows := rfl
@[simp] theorem write_bells (s : State) (x : IssueWrite) : (s.write x).bells = s.bells := rfl
@[simp] theorem write_owed (s : State) (x : IssueWrite) : (s.write x).owed = s.owed := rfl
@[simp] theorem write_tasks (s : State) (x : IssueWrite) : (s.write x).tasks = s.tasks := rfl
@[simp] theorem write_accesses (s : State) (x : IssueWrite) : (s.write x).accesses = s.accesses := rfl
@[simp] theorem write_copies (s : State) (x : IssueWrite) : (s.write x).copies = s.copies := rfl
@[simp] theorem write_walks (s : State) (x : IssueWrite) : (s.write x).walks = s.walks := rfl
@[simp] theorem write_tlbis (s : State) (x : IssueWrite) : (s.write x).tlbis = s.tlbis := rfl
@[simp] theorem write_barriers (s : State) (x : IssueWrite) : (s.write x).barriers = s.barriers := rfl
@[simp] theorem write_packets (s : State) (x : IssueWrite) : (s.write x).packets = s.packets := rfl
@[simp] theorem write_splits (s : State) (x : IssueWrite) : (s.write x).splits = s.splits := rfl
@[simp] theorem write_combines (s : State) (x : IssueWrite) : (s.write x).combines = s.combines := rfl
@[simp] theorem write_rounds (s : State) (x : IssueWrite) : (s.write x).rounds = s.rounds := rfl
@[simp] theorem write_mem (s : State) (x : IssueWrite) : (s.write x).mem = s.mem := rfl
@[simp] theorem write_bad (s : State) (x : IssueWrite) : (s.write x).bad = s.bad := rfl
@[simp] theorem write_poison (s : State) (x : IssueWrite) : (s.write x).poison = s.poison := rfl
@[simp] theorem write_minors (s : State) (x : IssueWrite) : (s.write x).minors = s.minors := rfl
@[simp] theorem write_hwids (s : State) (x : IssueWrite) : (s.write x).hwids = s.hwids := rfl
@[simp] theorem write_sealed (s : State) (x : IssueWrite) : (s.write x).sealed = s.sealed := rfl
@[simp] theorem write_views (s : State) (x : IssueWrite) : (s.write x).views = s.views := rfl
@[simp] theorem write_nodes (s : State) (x : IssueWrite) : (s.write x).nodes = s.nodes := rfl
@[simp] theorem write_majors (s : State) (x : IssueWrite) : (s.write x).majors = s.majors := rfl
@[simp] theorem write_agenda (s : State) (x : IssueWrite) : (s.write x).agenda = s.agenda := rfl
@[simp] theorem write_choice (s : State) (x : IssueWrite) : (s.write x).choice = s.choice := rfl
@[simp] theorem write_fresh (s : State) (x : IssueWrite) : (s.write x).fresh = s.fresh := rfl
@[simp] theorem write_nextUid (s : State) (x : IssueWrite) : (s.write x).nextUid = s.nextUid := rfl
@[simp] theorem write_nextId (s : State) (x : IssueWrite) : (s.write x).nextId = s.nextId := rfl

/-! ### `State.poke` -/

@[simp] theorem poke_lx (s : State) (pa : Nat) (bs : List Byte) : (s.poke pa bs).lx = s.lx := rfl
@[simp] theorem poke_ly (s : State) (pa : Nat) (bs : List Byte) : (s.poke pa bs).ly = s.ly := rfl
@[simp] theorem poke_lz (s : State) (pa : Nat) (bs : List Byte) : (s.poke pa bs).lz = s.lz := rfl
@[simp] theorem poke_modules (s : State) (pa : Nat) (bs : List Byte) : (s.poke pa bs).modules = s.modules := rfl
@[simp] theorem poke_dies (s : State) (pa : Nat) (bs : List Byte) : (s.poke pa bs).dies = s.dies := rfl
@[simp] theorem poke_cores (s : State) (pa : Nat) (bs : List Byte) : (s.poke pa bs).cores = s.cores := rfl
@[simp] theorem poke_vds (s : State) (pa : Nat) (bs : List Byte) : (s.poke pa bs).vds = s.vds := rfl
@[simp] theorem poke_windows (s : State) (pa : Nat) (bs : List Byte) : (s.poke pa bs).windows = s.windows := rfl
@[simp] theorem poke_bells (s : State) (pa : Nat) (bs : List Byte) : (s.poke pa bs).bells = s.bells := rfl
@[simp] theorem poke_owed (s : State) (pa : Nat) (bs : List Byte) : (s.poke pa bs).owed = s.owed := rfl
@[simp] theorem poke_tasks (s : State) (pa : Nat) (bs : List Byte) : (s.poke pa bs).tasks = s.tasks := rfl
@[simp] theorem poke_accesses (s : State) (pa : Nat) (bs : List Byte) : (s.poke pa bs).accesses = s.accesses := rfl
@[simp] theorem poke_copies (s : State) (pa : Nat) (bs : List Byte) : (s.poke pa bs).copies = s.copies := rfl
@[simp] theorem poke_walks (s : State) (pa : Nat) (bs : List Byte) : (s.poke pa bs).walks = s.walks := rfl
@[simp] theorem poke_tlbis (s : State) (pa : Nat) (bs : List Byte) : (s.poke pa bs).tlbis = s.tlbis := rfl
@[simp] theorem poke_barriers (s : State) (pa : Nat) (bs : List Byte) : (s.poke pa bs).barriers = s.barriers := rfl
@[simp] theorem poke_packets (s : State) (pa : Nat) (bs : List Byte) : (s.poke pa bs).packets = s.packets := rfl
@[simp] theorem poke_splits (s : State) (pa : Nat) (bs : List Byte) : (s.poke pa bs).splits = s.splits := rfl
@[simp] theorem poke_combines (s : State) (pa : Nat) (bs : List Byte) : (s.poke pa bs).combines = s.combines := rfl
@[simp] theorem poke_rounds (s : State) (pa : Nat) (bs : List Byte) : (s.poke pa bs).rounds = s.rounds := rfl
@[simp] theorem poke_bad (s : State) (pa : Nat) (bs : List Byte) : (s.poke pa bs).bad = s.bad := rfl
@[simp] theorem poke_poison (s : State) (pa : Nat) (bs : List Byte) : (s.poke pa bs).poison = s.poison := rfl
@[simp] theorem poke_minors (s : State) (pa : Nat) (bs : List Byte) : (s.poke pa bs).minors = s.minors := rfl
@[simp] theorem poke_hwids (s : State) (pa : Nat) (bs : List Byte) : (s.poke pa bs).hwids = s.hwids := rfl
@[simp] theorem poke_sealed (s : State) (pa : Nat) (bs : List Byte) : (s.poke pa bs).sealed = s.sealed := rfl
@[simp] theorem poke_views (s : State) (pa : Nat) (bs : List Byte) : (s.poke pa bs).views = s.views := rfl
@[simp] theorem poke_nodes (s : State) (pa : Nat) (bs : List Byte) : (s.poke pa bs).nodes = s.nodes := rfl
@[simp] theorem poke_majors (s : State) (pa : Nat) (bs : List Byte) : (s.poke pa bs).majors = s.majors := rfl
@[simp] theorem poke_cur (s : State) (pa : Nat) (bs : List Byte) : (s.poke pa bs).cur = s.cur := rfl
@[simp] theorem poke_agenda (s : State) (pa : Nat) (bs : List Byte) : (s.poke pa bs).agenda = s.agenda := rfl
@[simp] theorem poke_choice (s : State) (pa : Nat) (bs : List Byte) : (s.poke pa bs).choice = s.choice := rfl
@[simp] theorem poke_fresh (s : State) (pa : Nat) (bs : List Byte) : (s.poke pa bs).fresh = s.fresh := rfl
@[simp] theorem poke_nextUid (s : State) (pa : Nat) (bs : List Byte) : (s.poke pa bs).nextUid = s.nextUid := rfl
@[simp] theorem poke_nextId (s : State) (pa : Nat) (bs : List Byte) : (s.poke pa bs).nextId = s.nextId := rfl

/-! ### What they put -/

@[simp] theorem setTask_tasks (s : State) (u : Nat) (t : Task) : (s.setTask u t).tasks = s.tasks.set u t := rfl
@[simp] theorem setDie_dies (s : State) (d : Nat) (x : Die) : (s.setDie d x).dies = s.dies.set d x := rfl
@[simp] theorem setStatus_status (s : State) (x : Status) : (s.setStatus x).cur.status = x := rfl
@[simp] theorem setStatus_uid (s : State) (x : Status) : (s.setStatus x).cur.uid = s.cur.uid := rfl
@[simp] theorem setStatus_eng (s : State) (x : Status) : (s.setStatus x).cur.eng = s.cur.eng := rfl
@[simp] theorem write_status (s : State) (x : IssueWrite) : (s.write x).cur.status = s.cur.status := rfl
@[simp] theorem write_uid (s : State) (x : IssueWrite) : (s.write x).cur.uid = s.cur.uid := rfl

/-! ### Maps -/

@[simp] theorem find_set_same {α : Type} (m : NMap α) (k : Nat) (v : α) : NMap.find? (m.set k v) k = some v := by
  induction m with
  | nil => simp [NMap.set, NMap.find?]
  | cons c m ih =>
    obtain ⟨a, b⟩ := c
    by_cases h : a = k <;> simp [NMap.set, NMap.find?, h, ih]

theorem find_set_other {α : Type} (m : NMap α) {k j : Nat} (v : α) (h : j ≠ k) :
    NMap.find? (m.set k v) j = NMap.find? m j := by
  induction m with
  | nil => simp [NMap.set, NMap.find?, Ne.symm h]
  | cons c m ih =>
    obtain ⟨a, b⟩ := c
    by_cases h1 : a = k
    · subst h1; simp [NMap.set, NMap.find?, Ne.symm h]
    · by_cases h2 : a = j
      · subst h2; simp [NMap.set, NMap.find?, h]
      · simp [NMap.set, NMap.find?, h1, h2, ih]

/-- The task just put is the task read. -/
@[simp] theorem task_setTask (s : State) (u : Nat) (t : Task) : (s.setTask u t).task u = t := by
  simp [State.task, State.setTask, NMap.getD]

@[simp] theorem task_modTask (s : State) (u : Nat) (f : Task → Task) : (s.modTask u f).task u = f (s.task u) := by
  simp [State.modTask]

/-- Another task stays. -/
theorem task_modTask_other (s : State) {u v : Nat} (f : Task → Task) (h : v ≠ u) : (s.modTask u f).task v = s.task v := by
  simp [State.task, State.modTask, State.setTask, NMap.getD, find_set_other _ _ h]

@[simp] theorem me_modMe (s : State) (f : Task → Task) : (s.modMe f).me = f s.me := by
  simp only [State.me, State.modMe, modTask_cur, task_modTask]

@[simp] theorem eng_setEng (t : Task) (e : Engine) (x : Eng) : (t.setEng e x).eng e = x := by cases e <;> rfl

@[simp] theorem eng_modEng (t : Task) (e : Engine) (f : Eng → Eng) : (t.modEng e f).eng e = f (t.eng e) := by
  simp [Task.modEng]

theorem eng_setEng_other (t : Task) {e d : Engine} (x : Eng) (h : d ≠ e) : (t.setEng e x).eng d = t.eng d := by
  cases e <;> cases d <;> first | rfl | exact absurd rfl h

@[simp] theorem stateEng_modEng (s : State) (f : Eng → Eng) : (s.modEng f).eng = f s.eng := by
  show ((s.modMe _).me).eng _ = _
  rw [me_modMe]; exact eng_modEng ..

/-! ### Registers -/

/-- g0 reads as zero (02 R28). -/
@[simp] theorem get_zero (x : Eng) : x.get 0#5 = 0#64 := rfl

/-- A write to g0 is discarded (02 R28). -/
@[simp] theorem put_zero (x : Eng) (v : W64) : x.put 0#5 v = x := rfl

/-- Any other register reads as written. -/
theorem get_put_same (x : Eng) (r : GReg) (v : W64) (h : r ≠ 0#5) : (x.put r v).get r = v := by
  simp [Eng.put, Eng.get, h, NMap.getD]

theorem get_put_other (x : Eng) {r q : GReg} (v : W64) (h : q ≠ r) : (x.put r v).get q = x.get q := by
  by_cases hr : r = 0#5
  · simp [Eng.put, hr]
  · by_cases hq : q = 0#5
    · simp [hq]
    · have hn : q.toNat ≠ r.toNat := fun e => h (BitVec.eq_of_toNat_eq e)
      simp [Eng.put, Eng.get, hr, hq, NMap.getD, find_set_other _ _ hn]

end Sys2Proof.Laws
end

