-- ==== Sys2Proof/Laws/Issue.lean ====
section
/-!
SUPPORT. The frame of every instruction: everything it can do, and what it does when nothing holds the instruction back.
-/

namespace Sys2Proof.Laws

open Sys2Proof.Machine

/-- What the frame of an instruction can answer: a trap of 04 R101, the effect alone in a bundle that has passed its checks, a wait,
WLD's stall in which the delay line goes on, or what the instruction's own checks decide on the state in which due results have
landed. -/
theorem issueFrame_cases (i : Instr) (cls : Option PathClass) (chk : State → Chk) (eff : State → State) (s : State) :
    (∃ c, i.operandTrap s.cur.eng = some c ∧ issueFrame i cls chk eff s = s.trapNow c (s.operandVal i c)) ∨
    (s.cur.commit = true ∧ issueFrame i cls chk eff s = (eff s).issued) ∨
    (∃ b, issueFrame i cls chk eff s = s.landed.stallNow b) ∨
    issueFrame i cls chk eff s = (s.landed.stallNow false).setStatus .latching ∨
    issueFrame i cls chk eff s = s.landed.setStatus .empty ∨
    (chk s.landed = .ok ∧ issueFrame i cls chk eff s = (eff s.landed).issued) ∨
    (∃ c v, chk s.landed = .trap c v ∧ issueFrame i cls chk eff s = s.landed.trapNow c v) ∨
    (∃ f, chk s.landed = .fault f ∧ issueFrame i cls chk eff s = s.landed.faultNow s.landed.cur.uid s.landed.cur.eng f) := by
  unfold issueFrame
  cases h : i.operandTrap s.cur.eng with
  | some c => exact .inl ⟨c, rfl, rfl⟩
  | none =>
    by_cases hc : s.cur.commit = true
    · exact .inr (.inl ⟨hc, by simp [hc]⟩)
    · refine .inr (.inr ?_)
      simp only [hc]
      change (∃ b, (if s.landed.eng.blocked = true then _ else _) = _) ∨ _
      by_cases h1 : s.landed.eng.blocked = true
      · exact .inl ⟨true, by simp [State.landed] at h1 ⊢; simp [h1]⟩
      · by_cases h2 : (!linkExposed s.cur.line && clashes s.landed.eng i) = true
        · exact .inr (.inr (.inl (by simp only [State.landed] at h1 h2 ⊢; simp_all)))
        · by_cases h3 : (awaits s.landed.eng i || s.landed.heldBack cls) = true
          · exact .inl ⟨false, by simp only [State.landed] at h1 h2 h3 ⊢; simp [h1]; simp_all⟩
          · cases hk : chk s.landed with
            | ok => exact .inr (.inr (.inr (.inl ⟨rfl, by simp only [State.landed] at h1 h2 h3 hk ⊢; simp_all⟩)))
            | latch => exact .inr (.inl (by simp only [State.landed] at h1 h2 h3 hk ⊢; simp_all))
            | stall b => exact .inl ⟨b, by simp only [State.landed] at h1 h2 h3 hk ⊢; simp_all⟩
            | trap c v =>
              exact .inr (.inr (.inr (.inr (.inl ⟨c, v, rfl, by simp only [State.landed] at h1 h2 h3 hk ⊢; simp_all⟩))))
            | fault f =>
              exact .inr (.inr (.inr (.inr (.inr ⟨f, rfl, by simp only [State.landed] at h1 h2 h3 hk ⊢; simp_all⟩))))

/-- Where an instruction is admitted, its own checks decide. -/
theorem issueFrame_admits {i : Instr} {cls : Option PathClass} {s : State} (h : s.admits i cls = true)
    (chk : State → Chk) (eff : State → State) :
    issueFrame i cls chk eff s =
      match chk s.landed with
      | .ok => (eff s.landed).issued
      | .stall b => s.landed.stallNow b
      | .latch => (s.landed.stallNow false).setStatus .latching
      | .trap c v => s.landed.trapNow c v
      | .fault f => s.landed.faultNow s.landed.cur.uid s.landed.cur.eng f := by
  simp only [State.admits, Bool.and_eq_true, Bool.or_eq_true, Bool.not_eq_true', Option.isNone_iff_eq_none] at h
  obtain ⟨⟨⟨⟨⟨⟨_, hc⟩, ht⟩, hb⟩, hx⟩, ha⟩, hh⟩ := h
  unfold issueFrame
  rw [ht]
  simp only [State.landed] at hb hx ha hh ⊢
  have hx' : (!linkExposed s.cur.line && clashes (s.modMe fun t => t.land s.cur.eng).eng i) = false := by
    rcases hx with hx | hx <;> simp [hx]
  simp only [hc, hb, modMe_cur, hx', ha, hh, Bool.or_self]
  rfl

/-- An instruction whose checks pass where it is admitted issues with its effect. -/
theorem issue_admits {i : Instr} {s : State} (h : s.admits i none = true) (chk : State → Chk) (eff : State → State)
    (hk : chk s.landed = .ok) : issue i chk eff s = .next (eff s.landed).issued := by
  simp only [issue, issueFrame_admits h, hk]

theorem issueClass_admits {i : Instr} {cls : PathClass} {s : State} (h : s.admits i (some cls) = true) (chk : State → Chk)
    (eff : State → State) (hk : chk s.landed = .ok) : issueClass i cls chk eff s = .next (eff s.landed).issued := by
  simp only [issueClass, issueFrame_admits h, hk]

/-- An instruction whose check traps where it is admitted. -/
theorem issue_traps {i : Instr} {s : State} (h : s.admits i none = true) (chk : State → Chk) (eff : State → State)
    {c : Nat} {v : W64} (hk : chk s.landed = .trap c v) : issue i chk eff s = .next (s.landed.trapNow c v) := by
  simp only [issue, issueFrame_admits h, hk]

theorem issueClass_traps {i : Instr} {cls : PathClass} {s : State} (h : s.admits i (some cls) = true) (chk : State → Chk)
    (eff : State → State) {c : Nat} {v : W64} (hk : chk s.landed = .trap c v) :
    issueClass i cls chk eff s = .next (s.landed.trapNow c v) := by
  simp only [issueClass, issueFrame_admits h, hk]

/-- Where an access translates at once, what follows is done on its pieces. -/
theorem withPieces_ok {s u : State} {va n : Nat} {acc : AccKind} {ps : List Piece}
    (h : s.translate (.task s.cur.uid s.cur.eng) s.cur.uid va n acc = .ok ps u) (k : List Piece → State → State) :
    s.withPieces va n acc k = k ps u := by
  simp only [State.withPieces, h]

end Sys2Proof.Laws
end

