-- ==== Sys2Proof/Laws/Memory.lean ====
section
/-!
SUPPORT. The laws of memory: a read after a write, and that every operation keeps the canonical form.
-/

namespace Sys2Proof.Laws

open Sys2Proof.Machine

/-- A lower bound of a canonical list may be lowered. -/
theorem wfFrom_mono {lo lo' : Nat} {m : List Host.Cell} (h : lo' ≤ lo) (hw : Memory.wfFrom lo m = true) :
    Memory.wfFrom lo' m = true := by
  cases m with
  | nil => rfl
  | cons c m =>
    obtain ⟨a, b⟩ := c
    simp only [Memory.wfFrom, Bool.and_eq_true, decide_eq_true_eq] at hw ⊢
    exact ⟨⟨by omega, hw.1.2⟩, hw.2⟩

/-- An address below every listed one reads as empty. -/
theorem find_below {lo k : Nat} {m : List Host.Cell} (h : k < lo) (hw : Memory.wfFrom lo m = true) :
    Memory.find m k = emptyByte := by
  cases m with
  | nil => rfl
  | cons c m =>
    obtain ⟨a, b⟩ := c
    simp only [Memory.wfFrom, Bool.and_eq_true, decide_eq_true_eq] at hw
    have h1 : a ≠ k := by omega
    have h2 : k < a := by omega
    simp [Memory.find, h1, h2]

/-- A write into a canonical list reads back. -/
theorem find_put (m : List Host.Cell) (lo k : Nat) (v : Byte) (hw : Memory.wfFrom lo m = true) (a : Nat) :
    Memory.find (Memory.put m k v) a = if a = k then v else Memory.find m a := by
  induction m generalizing lo with
  | nil =>
    simp only [Memory.put]
    by_cases h : a = k
    · subst h; by_cases hv : v = emptyByte <;> simp [Memory.find, hv]
    · have h' : ¬ k = a := fun e => h e.symm
      by_cases hv : v = emptyByte <;> simp [Memory.find, hv, h, h']
  | cons c m ih =>
    obtain ⟨x, b⟩ := c
    have hw' := hw
    simp only [Memory.wfFrom, Bool.and_eq_true, decide_eq_true_eq] at hw'
    have hm : Memory.wfFrom (x + 1) m = true := hw'.2
    by_cases h1 : k < x
    · simp only [Memory.put, h1, if_true]
      by_cases hv : v = emptyByte
      · simp only [hv, if_true]
        by_cases h : a = k
        · subst h
          have h2 : x ≠ a := by omega
          simp [Memory.find, h2, h1]
        · simp [h]
      · simp only [hv, if_false]
        by_cases h : a = k
        · subst h; simp [Memory.find]
        · have h' : ¬ k = a := fun e => h e.symm
          by_cases h3 : a < k
          · have h4 : x ≠ a := by omega
            have h5 : a < x := by omega
            simp [Memory.find, h', h3, h4, h5, h]
          · simp [Memory.find, h', h3, h]
    · by_cases h2 : x = k
      · subst h2
        simp only [Memory.put, Nat.lt_irrefl, if_false, if_true]
        by_cases hv : v = emptyByte
        · simp only [hv, if_true]
          by_cases h : a = x
          · subst h; simp [find_below (Nat.lt_succ_self a) hm]
          · have h' : ¬ x = a := fun e => h e.symm
            simp only [h, if_false, Memory.find, h']
            by_cases h3 : a < x
            · simp [h3, find_below (show a < x + 1 by omega) hm]
            · simp [h3]
        · simp only [hv, if_false]
          by_cases h : a = x
          · subst h; simp [Memory.find]
          · have h' : ¬ x = a := fun e => h e.symm
            simp [Memory.find, h, h']
      · simp only [Memory.put, h1, h2, if_false, Memory.find]
        by_cases h : x = a
        · have h3 : ¬ a = k := by omega
          simp [h, h3]
        · by_cases h4 : a < x
          · have h5 : a ≠ k := by omega
            simp [h, h4, h5]
          · simp [h, h4, ih (x + 1) hm]

/-- A write keeps the canonical form. -/
theorem put_wfFrom (m : List Host.Cell) (lo k : Nat) (v : Byte) (hw : Memory.wfFrom lo m = true) (hk : lo ≤ k) :
    Memory.wfFrom lo (Memory.put m k v) = true := by
  induction m generalizing lo with
  | nil =>
    simp only [Memory.put]
    by_cases hv : v = emptyByte <;> simp [Memory.wfFrom, hv, hk]
  | cons c m ih =>
    obtain ⟨x, b⟩ := c
    have hw' := hw
    simp only [Memory.wfFrom, Bool.and_eq_true, decide_eq_true_eq] at hw'
    by_cases h1 : k < x
    · simp only [Memory.put, h1, if_true]
      by_cases hv : v = emptyByte
      · simp [hv, hw]
      · simp only [hv, if_false, Memory.wfFrom, Bool.and_eq_true, decide_eq_true_eq]
        exact ⟨⟨hk, by simpa using hv⟩, ⟨⟨by omega, hw'.1.2⟩, hw'.2⟩⟩
    · by_cases h2 : x = k
      · subst h2
        simp only [Memory.put, Nat.lt_irrefl, if_false, if_true]
        by_cases hv : v = emptyByte
        · simp only [hv, if_true]; exact wfFrom_mono (by omega) hw'.2
        · simp only [hv, if_false, Memory.wfFrom, Bool.and_eq_true, decide_eq_true_eq]
          exact ⟨⟨hk, by simpa using hv⟩, hw'.2⟩
      · simp only [Memory.put, h1, h2, if_false, Memory.wfFrom, Bool.and_eq_true, decide_eq_true_eq]
        exact ⟨⟨hw'.1.1, hw'.1.2⟩, ih (x + 1) hw'.2 (by omega)⟩

theorem put_wf {m : List Host.Cell} (hw : Memory.wf m = true) (k : Nat) (v : Byte) : Memory.wf (Memory.put m k v) = true :=
  put_wfFrom m 0 k v hw (Nat.zero_le k)

/-- Writing bytes keeps the canonical form. -/
theorem putAll_wf (bs : List Byte) : ∀ (m : List Host.Cell) (k : Nat), Memory.wf m = true →
    Memory.wf (Memory.putAll m k bs) = true := by
  induction bs with
  | nil => intro m k hw; exact hw
  | cons b bs ih => intro m k hw; exact ih _ _ (put_wf hw k b)

/-- Dropping cells keeps the canonical form. -/
theorem filter_wfFrom (p : Host.Cell → Bool) : ∀ (m : List Host.Cell) (lo : Nat), Memory.wfFrom lo m = true →
    Memory.wfFrom lo (m.filter p) = true := by
  intro m
  induction m with
  | nil => intro lo _; rfl
  | cons c m ih =>
    intro lo hw
    obtain ⟨a, b⟩ := c
    simp only [Memory.wfFrom, Bool.and_eq_true, decide_eq_true_eq] at hw
    by_cases hp : p (a, b) = true
    · simp only [List.filter_cons, hp, if_true, Memory.wfFrom, Bool.and_eq_true, decide_eq_true_eq]
      exact ⟨hw.1, ih _ hw.2⟩
    · simp only [List.filter_cons, hp]
      exact wfFrom_mono (by omega) (ih _ hw.2)

theorem filter_wf {m : List Host.Cell} (p : Host.Cell → Bool) (hw : Memory.wf m = true) : Memory.wf (m.filter p) = true :=
  filter_wfFrom p m 0 hw

/-- Bytes written to a canonical memory: inside the run they read as written, elsewhere as before. -/
theorem find_putAll (bs : List Byte) : ∀ (m : List Host.Cell) (k a : Nat), Memory.wf m = true →
    Memory.find (Memory.putAll m k bs) a = if k ≤ a ∧ a < k + bs.length then bs.getD (a - k) 0#8 else Memory.find m a := by
  induction bs with
  | nil =>
    intro m k a _
    have h : ¬ (k ≤ a ∧ a < k + ([] : List Byte).length) := by simp only [List.length_nil]; omega
    simp only [Memory.putAll, h, if_false]
  | cons b bs ih =>
    intro m k a hw
    simp only [Memory.putAll, ih _ _ _ (put_wf hw k b), find_put m 0 k b hw, List.length_cons]
    by_cases h : a = k
    · subst h
      have h1 : ¬ (a + 1 ≤ a ∧ a < a + 1 + bs.length) := by omega
      have h2 : a ≤ a ∧ a < a + (bs.length + 1) := by omega
      rw [if_neg h1, if_pos rfl, if_pos h2, Nat.sub_self]; rfl
    · by_cases h1 : k + 1 ≤ a ∧ a < k + 1 + bs.length
      · have h2 : k ≤ a ∧ a < k + (bs.length + 1) := by omega
        obtain ⟨j, hj⟩ : ∃ j, a - k = j + 1 := ⟨a - k - 1, by omega⟩
        have h3 : a - (k + 1) = j := by omega
        rw [if_pos h1, if_pos h2, hj, h3]; rfl
      · have h2 : ¬ (k ≤ a ∧ a < k + (bs.length + 1)) := by omega
        rw [if_neg h1, if_neg h, if_neg h2]

/-- Poking keeps the canonical form, and changes exactly the bytes poked. -/
theorem poke_wf {s : State} (hw : Memory.wf s.mem = true) (pa : Nat) (bs : List Byte) : Memory.wf (s.poke pa bs).mem = true :=
  putAll_wf bs s.mem pa hw

theorem byte_poke {s : State} (hw : Memory.wf s.mem = true) (pa : Nat) (bs : List Byte) (a : Nat) :
    (s.poke pa bs).byte a = if pa ≤ a ∧ a < pa + bs.length then bs.getD (a - pa) 0#8 else s.byte a :=
  find_putAll bs s.mem pa a hw

end Sys2Proof.Laws
end

