-- ==== Sys2Proof/Laws/PerInstr.lean ====
section
/-!
SUPPORT. What holds of every row of the opcode table as syntax: a row has words exactly if some engine accepts it (04 R99), and
never more than two words (04 R68).
-/

namespace Sys2Proof.Laws.Wellformed

/-- An instruction has words exactly if some engine accepts it, and at most two of them. -/
def Statement (i : Instr) : Prop :=
  ∀ b, (encode b i = [] ↔ i.engines = []) ∧ (encode b i).length ≤ 2

/-- Instructions with words. -/
theorem worded {i : Instr} (h : i.engines.isEmpty = false)
    (k : ∀ b, (Nat.ble 1 (encode b i).length && Nat.ble (encode b i).length 2) = true) :
    Statement i := fun b =>
  have k := Bool.and_eq_true_iff.mp (k b)
  ⟨⟨fun e => absurd (congrArg List.length e) (Nat.ne_of_gt (Nat.le_of_ble_eq_true k.1)), fun e => by simp [e] at h⟩,
    Nat.le_of_ble_eq_true k.2⟩

/-- Events of the machine. -/
theorem event {i : Instr} (h : i.engines = []) (k : ∀ b, encode b i = []) : Statement i := fun b =>
  ⟨⟨fun _ => h, fun _ => k b⟩, by rw [k b]; exact Nat.zero_le 2⟩

theorem nop : Statement .nop := worded rfl fun _ => rfl
theorem grd : ∀ x0 x1 x2 x3, Statement (.grd x0 x1 x2 x3) := fun _ _ _ _ => worded rfl fun _ => rfl
theorem br : ∀ x0 x1, Statement (.br x0 x1) := fun _ _ => worded rfl fun _ => rfl
theorem call : ∀ x0 x1, Statement (.call x0 x1) := fun _ _ => worded rfl fun _ => rfl
theorem jr : ∀ x0, Statement (.jr x0) := fun _ => worded rfl fun _ => rfl
theorem ret : Statement .ret := worded rfl fun _ => rfl
theorem loop : ∀ x0 x1 x2, Statement (.loop x0 x1 x2) := fun _ _ _ => worded rfl fun _ => rfl
theorem add : ∀ x0 x1 x2, Statement (.add x0 x1 x2) := fun _ _ _ => worded rfl fun _ => rfl
theorem sub : ∀ x0 x1 x2, Statement (.sub x0 x1 x2) := fun _ _ _ => worded rfl fun _ => rfl
theorem mul : ∀ x0 x1 x2, Statement (.mul x0 x1 x2) := fun _ _ _ => worded rfl fun _ => rfl
theorem mulh : ∀ x0 x1 x2, Statement (.mulh x0 x1 x2) := fun _ _ _ => worded rfl fun _ => rfl
theorem mulhn : ∀ x0 x1 x2, Statement (.mulhn x0 x1 x2) := fun _ _ _ => worded rfl fun _ => rfl
theorem div : ∀ x0 x1 x2, Statement (.div x0 x1 x2) := fun _ _ _ => worded rfl fun _ => rfl
theorem divn : ∀ x0 x1 x2, Statement (.divn x0 x1 x2) := fun _ _ _ => worded rfl fun _ => rfl
theorem rem : ∀ x0 x1 x2, Statement (.rem x0 x1 x2) := fun _ _ _ => worded rfl fun _ => rfl
theorem remn : ∀ x0 x1 x2, Statement (.remn x0 x1 x2) := fun _ _ _ => worded rfl fun _ => rfl
theorem and : ∀ x0 x1 x2, Statement (.and x0 x1 x2) := fun _ _ _ => worded rfl fun _ => rfl
theorem or : ∀ x0 x1 x2, Statement (.or x0 x1 x2) := fun _ _ _ => worded rfl fun _ => rfl
theorem xor : ∀ x0 x1 x2, Statement (.xor x0 x1 x2) := fun _ _ _ => worded rfl fun _ => rfl
theorem andn : ∀ x0 x1 x2, Statement (.andn x0 x1 x2) := fun _ _ _ => worded rfl fun _ => rfl
theorem shl : ∀ x0 x1 x2, Statement (.shl x0 x1 x2) := fun _ _ _ => worded rfl fun _ => rfl
theorem shr : ∀ x0 x1 x2, Statement (.shr x0 x1 x2) := fun _ _ _ => worded rfl fun _ => rfl
theorem sar : ∀ x0 x1 x2, Statement (.sar x0 x1 x2) := fun _ _ _ => worded rfl fun _ => rfl
theorem rotr : ∀ x0 x1 x2, Statement (.rotr x0 x1 x2) := fun _ _ _ => worded rfl fun _ => rfl
theorem min : ∀ x0 x1 x2, Statement (.min x0 x1 x2) := fun _ _ _ => worded rfl fun _ => rfl
theorem max : ∀ x0 x1 x2, Statement (.max x0 x1 x2) := fun _ _ _ => worded rfl fun _ => rfl
theorem minn : ∀ x0 x1 x2, Statement (.minn x0 x1 x2) := fun _ _ _ => worded rfl fun _ => rfl
theorem maxn : ∀ x0 x1 x2, Statement (.maxn x0 x1 x2) := fun _ _ _ => worded rfl fun _ => rfl
theorem cmp : ∀ x0 x1 x2 x3, Statement (.cmp x0 x1 x2 x3) := fun _ _ _ _ => worded rfl fun _ => rfl
theorem clz : ∀ x0 x1, Statement (.clz x0 x1) := fun _ _ => worded rfl fun _ => rfl
theorem ctz : ∀ x0 x1, Statement (.ctz x0 x1) := fun _ _ => worded rfl fun _ => rfl
theorem popc : ∀ x0 x1, Statement (.popc x0 x1) := fun _ _ => worded rfl fun _ => rfl
theorem mov : ∀ x0 x1, Statement (.mov x0 x1) := fun _ _ => worded rfl fun _ => rfl
theorem addi : ∀ x0 x1 x2, Statement (.addi x0 x1 x2) := fun _ _ _ => worded rfl fun _ => rfl
theorem andi : ∀ x0 x1 x2, Statement (.andi x0 x1 x2) := fun _ _ _ => worded rfl fun _ => rfl
theorem ori : ∀ x0 x1 x2, Statement (.ori x0 x1 x2) := fun _ _ _ => worded rfl fun _ => rfl
theorem xori : ∀ x0 x1 x2, Statement (.xori x0 x1 x2) := fun _ _ _ => worded rfl fun _ => rfl
theorem shli : ∀ x0 x1 x2, Statement (.shli x0 x1 x2) := fun _ _ _ => worded rfl fun _ => rfl
theorem shri : ∀ x0 x1 x2, Statement (.shri x0 x1 x2) := fun _ _ _ => worded rfl fun _ => rfl
theorem sari : ∀ x0 x1 x2, Statement (.sari x0 x1 x2) := fun _ _ _ => worded rfl fun _ => rfl
theorem movi : ∀ x0 x1, Statement (.movi x0 x1) := fun _ _ => worded rfl fun _ => rfl
theorem movhi : ∀ x0 x1 x2, Statement (.movhi x0 x1 x2) := fun _ _ _ => worded rfl fun _ => rfl
theorem bfx : ∀ x0 x1 x2 x3, Statement (.bfx x0 x1 x2 x3) := fun _ _ _ _ => worded rfl fun _ => rfl
theorem bfi : ∀ x0 x1 x2 x3, Statement (.bfi x0 x1 x2 x3) := fun _ _ _ _ => worded rfl fun _ => rfl
theorem fork : ∀ x0 x1 x2 x3, Statement (.fork x0 x1 x2 x3) := fun _ _ _ _ => worded rfl fun _ => rfl
theorem rdv : Statement .rdv := worded rfl fun _ => rfl
theorem sigtImm : ∀ x0 x1, Statement (.sigtImm x0 x1) := fun _ _ => worded rfl fun _ => rfl
theorem sigtReg : ∀ x0 x1, Statement (.sigtReg x0 x1) := fun _ _ => worded rfl fun _ => rfl
theorem waittImm : ∀ x0 x1, Statement (.waittImm x0 x1) := fun _ _ => worded rfl fun _ => rfl
theorem waittReg : ∀ x0 x1, Statement (.waittReg x0 x1) := fun _ _ => worded rfl fun _ => rfl
theorem waitc : ∀ x0 x1, Statement (.waitc x0 x1) := fun _ _ => worded rfl fun _ => rfl
theorem drain : ∀ x0, Statement (.drain x0) := fun _ => worded rfl fun _ => rfl
theorem fence : ∀ x0, Statement (.fence x0) := fun _ => worded rfl fun _ => rfl
theorem fenceAcq : ∀ x0, Statement (.fenceAcq x0) := fun _ => worded rfl fun _ => rfl
theorem fenceRel : ∀ x0, Statement (.fenceRel x0) := fun _ => worded rfl fun _ => rfl
theorem fencex : ∀ x0 x1 x2, Statement (.fencex x0 x1 x2) := fun _ _ _ => worded rfl fun _ => rfl
theorem bar : ∀ x0 x1, Statement (.bar x0 x1) := fun _ _ => worded rfl fun _ => rfl
theorem waitv : ∀ x0 x1 x2 x3 x4, Statement (.waitv x0 x1 x2 x3 x4) := fun _ _ _ _ _ => worded rfl fun _ => rfl
theorem waitvPoll : ∀ x0, Statement (.waitvPoll x0) := fun _ => event rfl fun _ => rfl
theorem yield : Statement .yield := worded rfl fun _ => rfl
theorem spawn : ∀ x0 x1 x2, Statement (.spawn x0 x1 x2) := fun _ _ _ => worded rfl fun _ => rfl
theorem exit : Statement .exit := worded rfl fun _ => rfl
theorem trap : ∀ x0 x1, Statement (.trap x0 x1) := fun _ _ => worded rfl fun _ => rfl
theorem tret : Statement .tret := worded rfl fun _ => rfl
theorem csrr : ∀ x0 x1, Statement (.csrr x0 x1) := fun _ _ => worded rfl fun _ => rfl
theorem csrw : ∀ x0 x1 x2, Statement (.csrw x0 x1 x2) := fun _ _ _ => worded rfl fun _ => rfl
theorem csrs : ∀ x0 x1 x2, Statement (.csrs x0 x1 x2) := fun _ _ _ => worded rfl fun _ => rfl
theorem csrc : ∀ x0 x1 x2, Statement (.csrc x0 x1 x2) := fun _ _ _ => worded rfl fun _ => rfl
theorem tlbiVa : ∀ x0 x1 x2, Statement (.tlbiVa x0 x1 x2) := fun _ _ _ => worded rfl fun _ => rfl
theorem tlbiAsid : ∀ x0 x1, Statement (.tlbiAsid x0 x1) := fun _ _ => worded rfl fun _ => rfl
theorem tlbiVd : ∀ x0, Statement (.tlbiVd x0) := fun _ => worded rfl fun _ => rfl
theorem tlbiIpa : ∀ x0 x1 x2, Statement (.tlbiIpa x0 x1 x2) := fun _ _ _ => worded rfl fun _ => rfl
theorem tlbiS2Vd : ∀ x0 x1, Statement (.tlbiS2Vd x0 x1) := fun _ _ => worded rfl fun _ => rfl
theorem ld : ∀ x0 x1 x2 x3, Statement (.ld x0 x1 x2 x3) := fun _ _ _ _ => worded rfl fun _ => rfl
theorem ldLong : ∀ x0 x1 x2 x3 x4, Statement (.ldLong x0 x1 x2 x3 x4) := fun _ _ _ _ _ => worded rfl fun _ => rfl
theorem st : ∀ x0 x1 x2 x3, Statement (.st x0 x1 x2 x3) := fun _ _ _ _ => worded rfl fun _ => rfl
theorem stLong : ∀ x0 x1 x2 x3 x4, Statement (.stLong x0 x1 x2 x3 x4) := fun _ _ _ _ _ => worded rfl fun _ => rfl
theorem ldq : ∀ x0 x1 x2, Statement (.ldq x0 x1 x2) := fun _ _ _ => worded rfl fun _ => rfl
theorem stq : ∀ x0 x1 x2, Statement (.stq x0 x1 x2) := fun _ _ _ => worded rfl fun _ => rfl
theorem atomSwap : ∀ x0 x1 x2 x3 x4 x5, Statement (.atomSwap x0 x1 x2 x3 x4 x5) := fun _ _ _ _ _ _ =>
  worded rfl fun _ => rfl
theorem atomCas : ∀ x0 x1 x2 x3 x4 x5 x6, Statement (.atomCas x0 x1 x2 x3 x4 x5 x6) := fun _ _ _ _ _ _ _ =>
  worded rfl fun _ => rfl
theorem atomAdd : ∀ x0 x1 x2 x3 x4 x5, Statement (.atomAdd x0 x1 x2 x3 x4 x5) := fun _ _ _ _ _ _ => worded rfl fun _ => rfl
theorem atomAnd : ∀ x0 x1 x2 x3 x4 x5, Statement (.atomAnd x0 x1 x2 x3 x4 x5) := fun _ _ _ _ _ _ => worded rfl fun _ => rfl
theorem atomOr : ∀ x0 x1 x2 x3 x4 x5, Statement (.atomOr x0 x1 x2 x3 x4 x5) := fun _ _ _ _ _ _ => worded rfl fun _ => rfl
theorem atomXor : ∀ x0 x1 x2 x3 x4 x5, Statement (.atomXor x0 x1 x2 x3 x4 x5) := fun _ _ _ _ _ _ => worded rfl fun _ => rfl
theorem atomMin : ∀ x0 x1 x2 x3 x4 x5, Statement (.atomMin x0 x1 x2 x3 x4 x5) := fun _ _ _ _ _ _ => worded rfl fun _ => rfl
theorem atomMax : ∀ x0 x1 x2 x3 x4 x5, Statement (.atomMax x0 x1 x2 x3 x4 x5) := fun _ _ _ _ _ _ => worded rfl fun _ => rfl
theorem atomMinn : ∀ x0 x1 x2 x3 x4 x5, Statement (.atomMinn x0 x1 x2 x3 x4 x5) := fun _ _ _ _ _ _ =>
  worded rfl fun _ => rfl
theorem atomMaxn : ∀ x0 x1 x2 x3 x4 x5, Statement (.atomMaxn x0 x1 x2 x3 x4 x5) := fun _ _ _ _ _ _ =>
  worded rfl fun _ => rfl
theorem atomFadd : ∀ x0 x1 x2 x3 x4, Statement (.atomFadd x0 x1 x2 x3 x4) := fun _ _ _ _ _ => worded rfl fun _ => rfl
theorem ldr : ∀ x0 x1 x2, Statement (.ldr x0 x1 x2) := fun _ _ _ => worded rfl fun _ => rfl
theorem str : ∀ x0 x1 x2, Statement (.str x0 x1 x2) := fun _ _ _ => worded rfl fun _ => rfl
theorem mst : ∀ x0 x1 x2 x3 x4, Statement (.mst x0 x1 x2 x3 x4) := fun _ _ _ _ _ => worded rfl fun _ => rfl
theorem mldr : ∀ x0 x1 x2 x3 x4, Statement (.mldr x0 x1 x2 x3 x4) := fun _ _ _ _ _ => worded rfl fun _ => rfl
theorem pref : ∀ x0 x1, Statement (.pref x0 x1) := fun _ _ => worded rfl fun _ => rfl
theorem prefTree : ∀ x0 x1, Statement (.prefTree x0 x1) := fun _ _ => worded rfl fun _ => rfl
theorem bellset : ∀ x0 x1 x2 x3, Statement (.bellset x0 x1 x2 x3) := fun _ _ _ _ => worded rfl fun _ => rfl
theorem bellclr : ∀ x0, Statement (.bellclr x0) := fun _ => worded rfl fun _ => rfl
theorem bellqry : ∀ x0 x1, Statement (.bellqry x0 x1) := fun _ _ => worded rfl fun _ => rfl
theorem talloc : ∀ x0 x1 x2 x3 x4, Statement (.talloc x0 x1 x2 x3 x4) := fun _ _ _ _ _ => worded rfl fun _ => rfl
theorem tfree : ∀ x0, Statement (.tfree x0) := fun _ => worded rfl fun _ => rfl
theorem trd : ∀ x0 x1 x2 x3, Statement (.trd x0 x1 x2 x3) := fun _ _ _ _ => worded rfl fun _ => rfl
theorem twr : ∀ x0 x1 x2 x3, Statement (.twr x0 x1 x2 x3) := fun _ _ _ _ => worded rfl fun _ => rfl
theorem tzero : ∀ x0 x1 x2 x3, Statement (.tzero x0 x1 x2 x3) := fun _ _ _ _ => worded rfl fun _ => rfl
theorem tdraft : ∀ x0 x1 x2, Statement (.tdraft x0 x1 x2) := fun _ _ _ => worded rfl fun _ => rfl
theorem tcommit : ∀ x0 x1 x2, Statement (.tcommit x0 x1 x2) := fun _ _ _ => worded rfl fun _ => rfl
theorem nest : ∀ x0 x1 x2 x3 x4, Statement (.nest x0 x1 x2 x3 x4) := fun _ _ _ _ _ => worded rfl fun _ => rfl
theorem nestEvent : ∀ x0 x1 x2, Statement (.nestEvent x0 x1 x2) := fun _ _ _ => worded rfl fun _ => rfl
theorem copy : ∀ x0 x1 x2 x3 x4 x5 x6, Statement (.copy x0 x1 x2 x3 x4 x5 x6) := fun _ _ _ _ _ _ _ =>
  worded rfl fun _ => rfl
theorem copyw : ∀ x0 x1 x2 x3 x4 x5 x6 x7, Statement (.copyw x0 x1 x2 x3 x4 x5 x6 x7) := fun _ _ _ _ _ _ _ _ =>
  worded rfl fun _ => rfl
theorem copyg : ∀ x0 x1 x2 x3 x4 x5 x6 x7, Statement (.copyg x0 x1 x2 x3 x4 x5 x6 x7) := fun _ _ _ _ _ _ _ _ =>
  worded rfl fun _ => rfl
theorem copys : ∀ x0 x1 x2 x3 x4 x5 x6 x7, Statement (.copys x0 x1 x2 x3 x4 x5 x6 x7) := fun _ _ _ _ _ _ _ _ =>
  worded rfl fun _ => rfl
theorem copyr : ∀ x0 x1 x2 x3 x4 x5 x6 x7 x8, Statement (.copyr x0 x1 x2 x3 x4 x5 x6 x7 x8) := fun _ _ _ _ _ _ _ _ _ =>
  worded rfl fun _ => rfl
theorem wbf : ∀ x0 x1 x2 x3 x4 x5, Statement (.wbf x0 x1 x2 x3 x4 x5) := fun _ _ _ _ _ _ => worded rfl fun _ => rfl
theorem mjoin : ∀ x0 x1 x2, Statement (.mjoin x0 x1 x2) := fun _ _ _ => worded rfl fun _ => rfl
theorem mctb : ∀ x0 x1 x2, Statement (.mctb x0 x1 x2) := fun _ _ _ => worded rfl fun _ => rfl
theorem mclose : ∀ x0 x1 x2, Statement (.mclose x0 x1 x2) := fun _ _ _ => worded rfl fun _ => rfl
theorem wacq : ∀ x0 x1, Statement (.wacq x0 x1) := fun _ _ => worded rfl fun _ => rfl
theorem wrel : ∀ x0 x1, Statement (.wrel x0 x1) := fun _ _ => worded rfl fun _ => rfl
theorem rngadv : ∀ x0 x1, Statement (.rngadv x0 x1) := fun _ _ => worded rfl fun _ => rfl
theorem wld : ∀ x0 x1, Statement (.wld x0 x1) := fun _ _ => worded rfl fun _ => rfl
theorem mma : ∀ x0 x1 x2 x3 x4, Statement (.mma x0 x1 x2 x3 x4) := fun _ _ _ _ _ => worded rfl fun _ => rfl
theorem mmat : ∀ x0 x1 x2 x3 x4 x5 x6, Statement (.mmat x0 x1 x2 x3 x4 x5 x6) := fun _ _ _ _ _ _ _ =>
  worded rfl fun _ => rfl
theorem mzero : ∀ x0, Statement (.mzero x0) := fun x0 => worded rfl fun _ => by cases x0 <;> rfl
theorem vadd : ∀ x0 x1 x2 x3 x4, Statement (.vadd x0 x1 x2 x3 x4) := fun _ _ _ _ _ => worded rfl fun _ => rfl
theorem vsub : ∀ x0 x1 x2 x3 x4, Statement (.vsub x0 x1 x2 x3 x4) := fun _ _ _ _ _ => worded rfl fun _ => rfl
theorem vmul : ∀ x0 x1 x2 x3 x4, Statement (.vmul x0 x1 x2 x3 x4) := fun _ _ _ _ _ => worded rfl fun _ => rfl
theorem vmin : ∀ x0 x1 x2 x3, Statement (.vmin x0 x1 x2 x3) := fun _ _ _ _ => worded rfl fun _ => rfl
theorem vmax : ∀ x0 x1 x2 x3, Statement (.vmax x0 x1 x2 x3) := fun _ _ _ _ => worded rfl fun _ => rfl
theorem vand : ∀ x0 x1 x2 x3, Statement (.vand x0 x1 x2 x3) := fun _ _ _ _ => worded rfl fun _ => rfl
theorem vor : ∀ x0 x1 x2 x3, Statement (.vor x0 x1 x2 x3) := fun _ _ _ _ => worded rfl fun _ => rfl
theorem vxor : ∀ x0 x1 x2 x3, Statement (.vxor x0 x1 x2 x3) := fun _ _ _ _ => worded rfl fun _ => rfl
theorem vshl : ∀ x0 x1 x2 x3, Statement (.vshl x0 x1 x2 x3) := fun _ _ _ _ => worded rfl fun _ => rfl
theorem vshr : ∀ x0 x1 x2 x3, Statement (.vshr x0 x1 x2 x3) := fun _ _ _ _ => worded rfl fun _ => rfl
theorem vcmp : ∀ x0 x1 x2 x3 x4, Statement (.vcmp x0 x1 x2 x3 x4) := fun _ _ _ _ _ => worded rfl fun _ => rfl
theorem vabs : ∀ x0 x1 x2, Statement (.vabs x0 x1 x2) := fun _ _ _ => worded rfl fun _ => rfl
theorem vneg : ∀ x0 x1 x2, Statement (.vneg x0 x1 x2) := fun _ _ _ => worded rfl fun _ => rfl
theorem vnot : ∀ x0 x1 x2, Statement (.vnot x0 x1 x2) := fun _ _ _ => worded rfl fun _ => rfl
theorem vmov : ∀ x0 x1 x2, Statement (.vmov x0 x1 x2) := fun _ _ _ => worded rfl fun _ => rfl
theorem vexp : ∀ x0 x1 x2 x3, Statement (.vexp x0 x1 x2 x3) := fun _ _ _ _ => worded rfl fun _ => rfl
theorem vlog : ∀ x0 x1 x2 x3, Statement (.vlog x0 x1 x2 x3) := fun _ _ _ _ => worded rfl fun _ => rfl
theorem vrcp : ∀ x0 x1 x2 x3, Statement (.vrcp x0 x1 x2 x3) := fun _ _ _ _ => worded rfl fun _ => rfl
theorem vrsq : ∀ x0 x1 x2 x3, Statement (.vrsq x0 x1 x2 x3) := fun _ _ _ _ => worded rfl fun _ => rfl
theorem vsqrt : ∀ x0 x1 x2 x3, Statement (.vsqrt x0 x1 x2 x3) := fun _ _ _ _ => worded rfl fun _ => rfl
theorem vtanh : ∀ x0 x1 x2 x3, Statement (.vtanh x0 x1 x2 x3) := fun _ _ _ _ => worded rfl fun _ => rfl
theorem vfma : ∀ x0 x1 x2 x3 x4 x5, Statement (.vfma x0 x1 x2 x3 x4 x5) := fun _ _ _ _ _ _ => worded rfl fun _ => rfl
theorem vfms : ∀ x0 x1 x2 x3 x4 x5, Statement (.vfms x0 x1 x2 x3 x4 x5) := fun _ _ _ _ _ _ => worded rfl fun _ => rfl
theorem vfnma : ∀ x0 x1 x2 x3 x4 x5, Statement (.vfnma x0 x1 x2 x3 x4 x5) := fun _ _ _ _ _ _ => worded rfl fun _ => rfl
theorem vsel : ∀ x0 x1 x2 x3 x4, Statement (.vsel x0 x1 x2 x3 x4) := fun _ _ _ _ _ => worded rfl fun _ => rfl
theorem vcvt : ∀ x0 x1 x2 x3 x4, Statement (.vcvt x0 x1 x2 x3 x4) := fun _ _ _ _ _ => worded rfl fun _ => rfl
theorem vqnt : ∀ x0 x1 x2 x3 x4 x5, Statement (.vqnt x0 x1 x2 x3 x4 x5) := fun _ _ _ _ _ _ => worded rfl fun _ => rfl
theorem vdq : ∀ x0 x1 x2 x3 x4, Statement (.vdq x0 x1 x2 x3 x4) := fun _ _ _ _ _ => worded rfl fun _ => rfl
theorem vred : ∀ x0 x1 x2 x3 x4, Statement (.vred x0 x1 x2 x3 x4) := fun _ _ _ _ _ => worded rfl fun _ => rfl
theorem vscan : ∀ x0 x1 x2 x3 x4, Statement (.vscan x0 x1 x2 x3 x4) := fun _ _ _ _ _ => worded rfl fun _ => rfl
theorem vmaxi : ∀ x0 x1 x2, Statement (.vmaxi x0 x1 x2) := fun _ _ _ => worded rfl fun _ => rfl
theorem vperm : ∀ x0 x1 x2, Statement (.vperm x0 x1 x2) := fun _ _ _ => worded rfl fun _ => rfl
theorem vbcst : ∀ x0 x1 x2, Statement (.vbcst x0 x1 x2) := fun _ _ _ => worded rfl fun _ => rfl
theorem vlut : ∀ x0 x1 x2 x3 x4, Statement (.vlut x0 x1 x2 x3 x4) := fun _ _ _ _ _ => worded rfl fun _ => rfl
theorem selk : ∀ x0 x1 x2 x3 x4, Statement (.selk x0 x1 x2 x3 x4) := fun _ _ _ _ _ => worded rfl fun _ => rfl
theorem rngv : ∀ x0 x1, Statement (.rngv x0 x1) := fun _ _ => worded rfl fun _ => rfl
theorem smpl : ∀ x0 x1 x2, Statement (.smpl x0 x1 x2) := fun _ _ _ => worded rfl fun _ => rfl
theorem vpop : ∀ x0 x1, Statement (.vpop x0 x1) := fun _ _ => worded rfl fun _ => rfl
theorem vpush : ∀ x0 x1, Statement (.vpush x0 x1) := fun _ _ => worded rfl fun _ => rfl
theorem delayLineLanding : ∀ x0 x1, Statement (.delayLineLanding x0 x1) := fun _ _ => event rfl fun _ => rfl
theorem mmaAccumulatorRead : ∀ x0, Statement (.mmaAccumulatorRead x0) := fun _ => event rfl fun _ => rfl
theorem wldPlaneSwitch : ∀ x0, Statement (.wldPlaneSwitch x0) := fun _ => event rfl fun _ => rfl
theorem asyncResultLanding : ∀ x0, Statement (.asyncResultLanding x0) := fun _ => event rfl fun _ => rfl
theorem queueEntryArrival : ∀ x0, Statement (.queueEntryArrival x0) := fun _ => event rfl fun _ => rfl
theorem fillPortWrite : ∀ x0, Statement (.fillPortWrite x0) := fun _ => event rfl fun _ => rfl
theorem streamDeadlock : ∀ x0, Statement (.streamDeadlock x0) := fun _ => event rfl fun _ => rfl
theorem homeWriteApply : ∀ x0 x1 x2, Statement (.homeWriteApply x0 x1 x2) := fun _ _ _ => event rfl fun _ => rfl
theorem runawayWindowEnd : ∀ x0, Statement (.runawayWindowEnd x0) := fun _ => event rfl fun _ => rfl
theorem homeReadApply : ∀ x0 x1 x2, Statement (.homeReadApply x0 x1 x2) := fun _ _ _ => event rfl fun _ => rfl
theorem subtreeRebuild : ∀ x0 x1 x2, Statement (.subtreeRebuild x0 x1 x2) := fun _ _ _ => event rfl fun _ => rfl
theorem copyLineTransfer : ∀ x0 x1 x2, Statement (.copyLineTransfer x0 x1 x2) := fun _ _ _ => event rfl fun _ => rfl
theorem copyCompletion : ∀ x0, Statement (.copyCompletion x0) := fun _ => event rfl fun _ => rfl
theorem tlbWalk : ∀ x0, Statement (.tlbWalk x0) := fun _ => event rfl fun _ => rfl
theorem firstTouchPoolRefill : ∀ x0 x1, Statement (.firstTouchPoolRefill x0 x1) := fun _ _ => event rfl fun _ => rfl
theorem microsecondStep : ∀ x0, Statement (.microsecondStep x0) := fun _ => event rfl fun _ => rfl
theorem grazeWindowEnd : ∀ x0, Statement (.grazeWindowEnd x0) := fun _ => event rfl fun _ => rfl
theorem droverDecision : ∀ x0 x1, Statement (.droverDecision x0 x1) := fun _ _ => event rfl fun _ => rfl
theorem stopPointReached : ∀ x0 x1, Statement (.stopPointReached x0 x1) := fun _ _ => event rfl fun _ => rfl
theorem forcedStop : ∀ x0 x1, Statement (.forcedStop x0 x1) := fun _ _ => event rfl fun _ => rfl
theorem slotSwitch : ∀ x0, Statement (.slotSwitch x0) := fun _ => event rfl fun _ => rfl
theorem taskPark : ∀ x0, Statement (.taskPark x0) := fun _ => event rfl fun _ => rfl
theorem taskRestore : ∀ x0 x1, Statement (.taskRestore x0 x1) := fun _ _ => event rfl fun _ => rfl
theorem heldTaskPark : ∀ x0, Statement (.heldTaskPark x0) := fun _ => event rfl fun _ => rfl
theorem taskStarving : ∀ x0, Statement (.taskStarving x0) := fun _ => event rfl fun _ => rfl
theorem partitionChange : ∀ x0 x1 x2 x3, Statement (.partitionChange x0 x1 x2 x3) := fun _ _ _ _ => event rfl fun _ => rfl
theorem trapEntry : ∀ x0, Statement (.trapEntry x0) := fun _ => event rfl fun _ => rfl
theorem arith : ∀ x0, Statement (.arith x0) := fun _ => event rfl fun _ => rfl
theorem correctedErrorFreeze : ∀ x0, Statement (.correctedErrorFreeze x0) := fun _ => event rfl fun _ => rfl
theorem freezeEnd : ∀ x0, Statement (.freezeEnd x0) := fun _ => event rfl fun _ => rfl
theorem flitReplay : ∀ x0 x1, Statement (.flitReplay x0 x1) := fun _ _ => event rfl fun _ => rfl
theorem readRequest : ∀ x0 x1, Statement (.readRequest x0 x1) := fun _ _ => event rfl fun _ => rfl
theorem readReply : ∀ x0, Statement (.readReply x0) := fun _ => event rfl fun _ => rfl
theorem remoteWrite : ∀ x0 x1, Statement (.remoteWrite x0 x1) := fun _ _ => event rfl fun _ => rfl
theorem writeAck : ∀ x0, Statement (.writeAck x0) := fun _ => event rfl fun _ => rfl
theorem atomicRequest : ∀ x0 x1, Statement (.atomicRequest x0 x1) := fun _ _ => event rfl fun _ => rfl
theorem atomicReply : ∀ x0, Statement (.atomicReply x0) := fun _ => event rfl fun _ => rfl
theorem multicastStore : ∀ x0, Statement (.multicastStore x0) := fun _ => event rfl fun _ => rfl
theorem multicastAck : ∀ x0, Statement (.multicastAck x0) := fun _ => event rfl fun _ => rfl
theorem contribution : ∀ x0, Statement (.contribution x0) := fun _ => event rfl fun _ => rfl
theorem combineSlotTimeout : ∀ x0, Statement (.combineSlotTimeout x0) := fun _ => event rfl fun _ => rfl
theorem result : ∀ x0, Statement (.result x0) := fun _ => event rfl fun _ => rfl
theorem musterJoin : ∀ x0, Statement (.musterJoin x0) := fun _ => event rfl fun _ => rfl
theorem musterClose : ∀ x0, Statement (.musterClose x0) := fun _ => event rfl fun _ => rfl
theorem musterReply : ∀ x0, Statement (.musterReply x0) := fun _ => event rfl fun _ => rfl
theorem mctbSend : ∀ x0, Statement (.mctbSend x0) := fun _ => event rfl fun _ => rfl
theorem barrierArrival : ∀ x0, Statement (.barrierArrival x0) := fun _ => event rfl fun _ => rfl
theorem barrierRelease : ∀ x0, Statement (.barrierRelease x0) := fun _ => event rfl fun _ => rfl
theorem staleReport : ∀ x0, Statement (.staleReport x0) := fun _ => event rfl fun _ => rfl
theorem hostMemoryWrite : ∀ x0 x1 x2 x3, Statement (.hostMemoryWrite x0 x1 x2 x3) := fun _ _ _ _ => event rfl fun _ => rfl
theorem hostMemoryRead : ∀ x0 x1 x2 x3, Statement (.hostMemoryRead x0 x1 x2 x3) := fun _ _ _ _ => event rfl fun _ => rfl
theorem unsupportedRequest : ∀ x0, Statement (.unsupportedRequest x0) := fun _ => event rfl fun _ => rfl
theorem configure : ∀ x0, Statement (.configure x0) := fun _ => event rfl fun _ => rfl
theorem start : ∀ x0, Statement (.start x0) := fun _ => event rfl fun _ => rfl
theorem stop : ∀ x0, Statement (.stop x0) := fun _ => event rfl fun _ => rfl
theorem vdStopped : ∀ x0 x1, Statement (.vdStopped x0 x1) := fun _ _ => event rfl fun _ => rfl
theorem release : ∀ x0, Statement (.release x0) := fun _ => event rfl fun _ => rfl
theorem importVd : ∀ x0, Statement (.importVd x0) := fun _ => event rfl fun _ => rfl
theorem exportVd : ∀ x0, Statement (.exportVd x0) := fun _ => event rfl fun _ => rfl
theorem abort : ∀ x0, Statement (.abort x0) := fun _ => event rfl fun _ => rfl
theorem migIn : ∀ x0, Statement (.migIn x0) := fun _ => event rfl fun _ => rfl
theorem migOut : ∀ x0, Statement (.migOut x0) := fun _ => event rfl fun _ => rfl
theorem sealedBlob : ∀ x0 x1, Statement (.sealedBlob x0 x1) := fun _ _ => event rfl fun _ => rfl
theorem confirm : ∀ x0 x1, Statement (.confirm x0 x1) := fun _ _ => event rfl fun _ => rfl
theorem releaseAck : ∀ x0 x1, Statement (.releaseAck x0 x1) := fun _ _ => event rfl fun _ => rfl
theorem lostReply : ∀ x0 x1, Statement (.lostReply x0 x1) := fun _ _ => event rfl fun _ => rfl
theorem sealTimeout : ∀ x0 x1, Statement (.sealTimeout x0 x1) := fun _ _ => event rfl fun _ => rfl
theorem importTimeout : ∀ x0 x1, Statement (.importTimeout x0 x1) := fun _ _ => event rfl fun _ => rfl
theorem commitTimeout : ∀ x0 x1, Statement (.commitTimeout x0 x1) := fun _ _ => event rfl fun _ => rfl
theorem measure : ∀ x0, Statement (.measure x0) := fun _ => event rfl fun _ => rfl
theorem activate : ∀ x0 x1, Statement (.activate x0 x1) := fun _ _ => event rfl fun _ => rfl
theorem power : ∀ x0, Statement (.power x0) := fun _ => event rfl fun _ => rfl
theorem time : ∀ x0, Statement (.time x0) := fun _ => event rfl fun _ => rfl
theorem dumpclr : ∀ x0, Statement (.dumpclr x0) := fun _ => event rfl fun _ => rfl
theorem measureRequest : ∀ x0 x1, Statement (.measureRequest x0 x1) := fun _ _ => event rfl fun _ => rfl
theorem wopen : ∀ x0 x1, Statement (.wopen x0 x1) := fun _ _ => event rfl fun _ => rfl
theorem wgrant : ∀ x0 x1, Statement (.wgrant x0 x1) := fun _ _ => event rfl fun _ => rfl
theorem wclose : ∀ x0 x1, Statement (.wclose x0 x1) := fun _ _ => event rfl fun _ => rfl
theorem stage2MappingChange : ∀ x0 x1 x2 x3, Statement (.stage2MappingChange x0 x1 x2 x3) := fun _ _ _ _ =>
  event rfl fun _ => rfl
theorem coldReset : ∀ x0, Statement (.coldReset x0) := fun _ => event rfl fun _ => rfl
theorem warmReset : ∀ x0, Statement (.warmReset x0) := fun _ => event rfl fun _ => rfl
theorem pfFlr : ∀ x0, Statement (.pfFlr x0) := fun _ => event rfl fun _ => rfl
theorem vfFlr : ∀ x0 x1, Statement (.vfFlr x0 x1) := fun _ _ => event rfl fun _ => rfl
theorem resetRelease : ∀ x0, Statement (.resetRelease x0) := fun _ => event rfl fun _ => rfl
theorem testComplete : ∀ x0 x1 x2, Statement (.testComplete x0 x1 x2) := fun _ _ _ => event rfl fun _ => rfl
theorem arraySelfTestDone : ∀ x0 x1, Statement (.arraySelfTestDone x0 x1) := fun _ _ => event rfl fun _ => rfl
theorem dmcWatchdogExpiry : ∀ x0, Statement (.dmcWatchdogExpiry x0) := fun _ => event rfl fun _ => rfl
theorem firmwareStateError : ∀ x0, Statement (.firmwareStateError x0) := fun _ => event rfl fun _ => rfl
theorem powerRailFault : ∀ x0, Statement (.powerRailFault x0) := fun _ => event rfl fun _ => rfl
theorem thermalTrip : ∀ x0, Statement (.thermalTrip x0) := fun _ => event rfl fun _ => rfl
theorem thermalLimit : ∀ x0, Statement (.thermalLimit x0) := fun _ => event rfl fun _ => rfl
theorem thermalRecovery : ∀ x0, Statement (.thermalRecovery x0) := fun _ => event rfl fun _ => rfl
theorem powerShareCheck : ∀ x0 x1 x2, Statement (.powerShareCheck x0 x1 x2) := fun _ _ _ => event rfl fun _ => rfl
theorem healthRecordUpdate : ∀ x0 x1 x2, Statement (.healthRecordUpdate x0 x1 x2) := fun _ _ _ => event rfl fun _ => rfl
theorem marginMeasurement : ∀ x0 x1, Statement (.marginMeasurement x0 x1) := fun _ _ => event rfl fun _ => rfl
theorem dailyMarginMean : ∀ x0, Statement (.dailyMarginMean x0) := fun _ => event rfl fun _ => rfl
theorem barrierCountLowered : ∀ x0 x1 x2 x3 x4, Statement (.barrierCountLowered x0 x1 x2 x3 x4) := fun _ _ _ _ _ =>
  event rfl fun _ => rfl
theorem routeReturn : ∀ x0 x1, Statement (.routeReturn x0 x1) := fun _ _ => event rfl fun _ => rfl
theorem configurationRequest : ∀ x0 x1, Statement (.configurationRequest x0 x1) := fun _ _ => event rfl fun _ => rfl
theorem malformedPacket : ∀ x0, Statement (.malformedPacket x0) := fun _ => event rfl fun _ => rfl

end Sys2Proof.Laws.Wellformed
end

