-- ==== Sys2Proof/Tests/Slice0.lean ====
section
/-!
SUPPORT. Tests of the model, with values from the manual's own examples and tables, and for every statement with hypotheses a
state that meets them.
-/

namespace Sys2Proof.Tests

open Sys2Proof.Machine

set_option Elab.async false

/-! ### Well-formedness -/

/-- Engine: SPAWN is CTL's (04 R97). -/
theorem test_wf_engine : Instr.wf .ctl (.spawn 1#5 2#5 3#5) = true ∧ Instr.wf .lda (.spawn 1#5 2#5 3#5) = false := by decide

/-- FORK of CTL, NEST level 6, ST of a signed width and SELK with Zi = Zv have no encoding. -/
theorem test_wf_encodable : Instr.wf .ctl (.fork .ctl 1#5 2#5 3#5) = false ∧ Instr.wf .lda (.nest 0#2 6#3 1#5 2#5 3#5) = false ∧
    Instr.wf .sta (.st 1#5 2#5 .i16 0#11) = false ∧ Instr.wf .exe (.selk 2#3 2#3 1#3 4#4 .f32) = false ∧
    Instr.wf .exe (.selk 2#3 3#3 1#3 4#4 .f32) = true := by decide

/-- Types: VEXP takes no integer, an integer sum no other rounding than rne, MMA no f32 activations (18 R413, 10 R230). -/
theorem test_wf_type : Instr.wf .exe (.vexp (.qs 0#2) (.qv 0#2) .i32 .rne) = false ∧
    Instr.wf .exe (.vadd (.qs 0#2) (.qv 0#2) (.qv 1#2) .i32 .rtz) = false ∧ Instr.wf .exe (.mma 0#3 0#7 .f32 0#2 false) = false ∧
    Instr.wf .exe (.vadd (.qs 0#2) (.qv 0#2) (.qv 1#2) .f32 .rtz) = true := by decide

/-- EXE has g0 to g15 (02 R28). -/
theorem test_wf_exeReg : Instr.wf .exe (.add 16#5 1#5 2#5) = false ∧ Instr.wf .exe (.add 15#5 1#5 2#5) = true ∧
    Instr.wf .lda (.add 16#5 1#5 2#5) = true := by decide

/-- Ranges: a field past bit 63, a fence of scope lane, a barrier number past those of its scope (04 R81, R83). -/
theorem test_wf_range : Instr.wf .ctl (.bfx 1#5 2#5 60#6 4#6) = false ∧ Instr.wf .ctl (.bfx 1#5 2#5 60#6 3#6) = true ∧
    Instr.wf .ctl (.fence .lane) = false ∧ Instr.wf .ctl (.bar .quad 16#8) = false ∧ Instr.wf .ctl (.bar .quad 15#8) = true := by
  decide

/-- Roles: k4 runs from EXE to STA (02 R36, R37). -/
theorem test_wf_role : Instr.wf .exe (.sigtImm 4#3 4#8) = true ∧ Instr.wf .sta (.waittImm 4#3 4#8) = true ∧
    Instr.wf .lda (.sigtImm 4#3 4#8) = false ∧ Instr.wf .exe (.waittImm 4#3 4#8) = false := by decide

/-! ### Words of the manual's examples -/

/-- The words decode to an instruction and to nothing else, and the encoder gives them back. -/
def reads (e : Engine) (w0 w1 : Nat) (i : Instr) : Bool :=
  (match decode e w0 w1 with | .ok j => j == i | .error _ => false) && (encode true i).headD 0 == w0 &&
    (encode true i).getD 1 0 == w1

/-- Control, scalar and guard words (16 R345, R347, R355 to R359, R369, 17 R379 on). -/
theorem test_decode_scalar :
    reads .ctl 0x90088600 0 (.add 1#5 2#5 3#5) = true ∧ reads .ctl 0x90088695 0 (.cmp 1#5 2#5 3#5 .lt) = true ∧
    reads .ctl 0x90088016 0 (.clz 1#5 2#5) = true ∧ reads .ctl 0x9008860B 0 (.xor 1#5 2#5 3#5) = true ∧
    reads .ctl 0x9108BFFB 0 (.addi 1#5 2#5 16379#14) = true ∧ reads .ctl 0x95088003 0 (.shli 1#5 2#5 3#6) = true ∧
    reads .ctl 0x940880FF 0 (.xori 1#5 2#5 255#14) = true ∧ reads .ctl 0x9A08880C 0 (.bfx 1#5 2#5 8#6 3#6) = true ∧
    reads .ctl 0x9B08880C 0 (.bfi 1#5 2#5 8#6 3#6) = true ∧ reads .ctl 0x980FFFFF 0 (.movi 1#5 0x7FFFF#19) = true ∧
    reads .ctl 0x990BBEEF 0 (.movhi 1#5 3#2 0xBEEF#16) = true ∧ reads .ctl 0x81000000 0 .nop = true := by decide

theorem test_decode_control :
    reads .lda 0x82287000 0 (.grd 5#5 3#6 true 0#2) = true ∧ reads .lda 0x82380400 0 (.grd 7#5 0#6 false 1#2) = true ∧
    reads .ctl 0x83000011 0 (.br 1#20 1#4) = true ∧ reads .ctl 0x84FFFFE3 0 (.call 0xFFFFE#20 3#4) = true ∧
    reads .ctl 0x85024000 0 (.jr 9#5) = true ∧ reads .ctl 0x86000000 0 .ret = true ∧
    reads .ctl 0x87180003 0 (.loop 3#5 0#15 3#4) = true ∧ reads .lda 0x8737FFF9 0 (.loop 6#5 0x7FFF#15 9#4) = true := by decide

/-- Streams, tokens, counters, fences, barriers, traps, control registers (06, 09, 12, 16 R361). -/
theorem test_decode_system :
    reads .ctl 0xA0810A60 0 (.fork .exe 4#5 5#5 6#5) = true ∧ reads .ctl 0xA1000000 0 .rdv = true ∧
    reads .exe 0xA2804000 0 (.sigtImm 4#3 4#8) = true ∧ reads .exe 0xA3700380 0 (.waittReg 3#3 7#5) = true ∧
    reads .sta 0xA4301000 0 (.waitc 3#4 256#12) = false ∧ reads .sta 0xA4301000 0 (.waitc 3#4 16#12) = true ∧
    reads .lda 0xA5500000 0 (.drain 5#4) = true ∧ reads .sta 0xA6700000 0 (.fenceRel .die) = true ∧
    reads .lda 0xA7650000 0 (.fencex .die .st .cp) = true ∧ reads .ctl 0xA8406000 0 (.bar .quad 3#8) = true ∧
    reads .lda 0xA9088603 0 (.waitv 1#5 2#5 3#5 .ne true) = true ∧ reads .lda 0xA9218000 0 (.waitv 4#5 6#5 0#5 .eq false) = true ∧
    reads .ctl 0xAA000000 0 .yield = true ∧ reads .ctl 0xAB088600 0 (.spawn 1#5 2#5 3#5) = true ∧
    reads .ctl 0xAC000000 0 .exit = true ∧ reads .ctl 0xAD000803 0 (.trap 3#5 64#19) = true ∧
    reads .ctl 0xAE000000 0 .tret = true ∧ reads .ctl 0xAF200040 0 (.csrr 4#5 .rngKey) = true ∧
    reads .ctl 0xAF014041 0 (.csrw 0#5 5#5 .rngKey) = true ∧ reads .ctl 0xAF024063 0 (.csrc 0#5 9#5 .arFlags) = true ∧
    reads .ctl 0xAF200400 0 (.csrr 4#5 .trCause) = true ∧ reads .ctl 0xB080A600 0 (.tlbiVa .pkg 5#5 6#5) = true ∧
    reads .ctl 0xB0680000 0 (.tlbiVd .die) = true ∧ reads .ctl 0xD1010A00 0 (.rngadv 4#5 5#5) = true := by decide

/-- Memory (16 R349, R371 to R374, 17 R377, R384, R389, R398 to R402). -/
theorem test_decode_memory :
    reads .lda 0xB108A803 0 (.ld 1#5 2#5 .i16 3#11) = true ∧
    reads .lda 0xB2089AC0 0x8000000C (.ldLong 1#5 2#5 .w64 (.acq .die) 12#31) = true ∧
    reads .sta 0xB3399802 0 (.st 7#5 6#5 .w64 2#11) = true ∧
    reads .sta 0xB4399800 0x8000000C (.stLong 7#5 6#5 .w64 .plain 12#31) = true ∧
    reads .sta 0xB4089300 0x80000004 (.stLong 1#5 2#5 .n32 (.rel .pkg) 4#31) = true ∧
    reads .lda 0xB5185202 0 (.ldq (.qv 1#2) 4#5 2#7) = true ∧ reads .sta 0xB618C080 0 (.stq 0#2 1#5 0#7) = true ∧
    reads .lda 0xB8182318 0 (.ldr (.qa 2#2) 6#5 3#4) = true ∧ reads .sta 0xB918E318 0 (.str 2#2 6#5 3#4) = true ∧
    reads .sta 0xB70886C8 0x81000000 (.atomAdd 1#5 2#5 3#5 .die false .acq) = true ∧
    reads .sta 0xB7298F45 0xA2000000 (.atomCas 5#5 6#5 7#5 8#5 .pod true .rel) = true ∧
    reads .lda 0xBC020040 0 (.pref 8#5 64#14) = true ∧ reads .lda 0xBC0A0040 0 (.prefTree 8#5 64#14) = true := by decide

/-- Bells, tiles, copies, windows and musters (07, 08, 11, 13, 17, 18). -/
theorem test_decode_units :
    reads .ctl 0xC0088640 0 (.bellset 1#5 2#5 3#5 4#5) = true ∧ reads .ctl 0xC1014000 0 (.bellclr 5#5) = true ∧
    reads .ctl 0xC2314000 0 (.bellqry 6#5 5#5) = true ∧ reads .ctl 0xC3070898 0 (.talloc 7#8 1#5 2#5 3#3 false) = true ∧
    reads .ctl 0xC4050000 0 (.tfree 5#8) = true ∧ reads .lda 0xC5072030 0 (.trd 7#8 4#5 3#7 (.qa 0#2)) = true ∧
    reads .sta 0xC609100C 0 (.twr 9#8 2#5 0#7 0#2) = true ∧ reads .sta 0xC709104F 0 (.tzero 9#8 2#5 4#7 15#4) = true ∧
    reads .ctl 0xC8051980 0 (.tdraft 5#8 3#5 6#5) = true ∧ reads .ctl 0xC9051900 0 (.tcommit 5#8 3#5 4#5) = true ∧
    reads .lda 0xCA50C850 0 (.nest 1#2 2#3 3#5 4#5 5#5) = true ∧
    reads .lda 0xCB485320 0x80000C00 (.copy 1#2 4#5 5#5 6#5 .tile .mem 3#4) = true ∧
    reads .lda 0xCB085320 0x91C00800 (.copyg 0#2 4#5 5#5 6#5 7#5 .tile .mem 2#4) = true ∧
    reads .lda 0xCB885300 0xA0001400 (.copyr 2#2 4#5 5#5 6#5 .mem .mem .add .f32 5#4) = true ∧
    reads .lda 0xCB085340 0xA8000400 (.wbf 0#2 4#5 5#5 6#5 .mem 1#4) = true ∧
    reads .ctl 0xCC088600 0 (.mjoin 1#5 2#5 3#5) = true ∧ reads .lda 0xCD010A60 0 (.mctb 4#5 5#5 6#5) = true ∧
    reads .ctl 0xCE088600 0 (.mclose 1#5 2#5 3#5) = true ∧ reads .ctl 0xCF014004 0 (.wacq 5#5 .pkg) = true ∧
    reads .ctl 0xD0014003 0 (.wrel 5#5 .die) = true ∧
    reads .lda 0xBB184214 0x89800000 (.mldr (.qv 0#2) 4#5 5#5 6#5 true) = true ∧
    reads .sta 0xBA18C298 0x819C0000 (.mst 0#2 5#5 6#5 3#8 7#5) = true := by decide

/-- The matrix engine (10, 17). -/
theorem test_decode_matrix :
    reads .exe 0xD8750000 0 (.wld .q4o 160#9) = true ∧ reads .exe 0xD8120000 0 (.wld .bf16 64#9) = true ∧
    reads .exe 0xD9004100 0 (.mma 0#3 4#7 .bf16 0#2 false) = true ∧ reads .exe 0xD92023E0 0 (.mma 1#3 2#7 .e4m3 3#2 true) = true ∧
    reads .exe 0xDAA09146 0x80000000 (.mmat 5#3 9#7 .bf16 1#2 false 3#4 0#11) = true ∧
    reads .exe 0xDB287000 0 (.mzero (.vec ⟨1#3, .v, 7#7⟩)) = true ∧ reads .exe 0xDB000800 0 (.mzero (.whole 0#3)) = true := by decide

/-- Vectors (18). -/
theorem test_decode_vector :
    let h (z : BitVec 3) (k : BitVec 7) : FVec := ⟨z, .h, k⟩
    reads .exe 0xE0400000 0x90000000 (.vadd (.vec (h 2#3 0#7)) (.vec (h 0#3 0#7)) (.vec (h 1#3 0#7)) .f32 .rne) = true ∧
    reads .exe 0xE018C184 0x8C280008 (.vadd (.qs 0#2) (.qv 0#2) (.qv 1#2) .bf16 .rne) = true ∧
    reads .exe 0xE0200400 0xB0010048 (.vshl (.vec (h 1#3 0#7)) (.vec (h 2#3 0#7)) (.vec (h 3#3 0#7)) .i32) = true ∧
    reads .exe 0xE0600000 0x9C024000 (.vcmp .lt (.vec (h 3#3 0#7)) (.vec (h 0#3 0#7)) (.bcast 0#4) .f32) = true ∧
    reads .exe 0xE1200405 0x80000000 (.vabs (.vec (h 1#3 0#7)) (.vec (h 2#3 5#7)) .f32) = true ∧
    reads .exe 0xE1200405 0x80010000 (.vexp (.vec (h 1#3 0#7)) (.vec (h 2#3 5#7)) .f32 .rne) = true ∧
    reads .exe 0xE2400000 0x90030000 (.vfma (.vec (h 2#3 0#7)) (.vec (h 0#3 0#7)) (.vec (h 1#3 0#7)) (.vec (h 3#3 0#7)) .f32 .rne) = true ∧
    reads .exe 0xE5800000 0x90030000 (.vsel (.vec (h 4#3 0#7)) (.vec (h 0#3 0#7)) (.vec (h 1#3 0#7)) (.vec (h 3#3 0#7)) .f32) = true ∧
    reads .exe 0xE6A00800 0x8000000D (.vcvt (.vec (h 5#3 0#7)) (.vec (h 4#3 0#7)) .bf16 .f32 .rsr) = true ∧
    reads .exe 0xE6A00800 0x80080000 (.vcvt (.vec (h 5#3 0#7)) (.vec (h 4#3 0#7)) .f32 .bf16 .rne) = true ∧
    reads .exe 0xE7C00A00 0xE009C1B8 (.vqnt (h 6#3 0#7) (h 5#3 0#7) (h 6#3 1#7) 3#4 .q4o .rne) = true ∧
    reads .exe 0xE8E00C00 0xE0080038 (.vdq (.vec (h 7#3 0#7)) (.vec (h 6#3 0#7)) (.vec (h 6#3 1#7)) .q4o .rne) = true := by decide

theorem test_decode_vector_more :
    let h (z : BitVec 3) (k : BitVec 7) : FVec := ⟨z, .h, k⟩
    reads .exe 0xE9E00E01 0x80000000 (.vred .sum (.vec (h 7#3 0#7)) (.vec (h 7#3 1#7)) .f32 .rne) = true ∧
    reads .exe 0xEAE02E01 0x80000000 (.vscan .sum (.vec (h 7#3 2#7)) (.vec (h 7#3 1#7)) .f32 .rne) = true ∧
    reads .exe 0xEB400000 0x80000000 (.vmaxi (.vec (h 2#3 0#7)) (.vec (h 0#3 0#7)) .f32) = true ∧
    reads .exe 0xEC200400 0xB0000000 (.vperm (.vec (h 1#3 0#7)) (.vec (h 2#3 0#7)) (.vec (h 3#3 0#7))) = true ∧
    reads .exe 0xED200400 0x80280000 (.vbcst (.vec (h 1#3 0#7)) (.vec (h 2#3 0#7)) 5#7) = true ∧
    reads .exe 0xEE400000 0x90000000 (.vlut (.vec (h 2#3 0#7)) (.vec (h 0#3 0#7)) (.vec (h 1#3 0#7)) .f32 .rne) = true ∧
    reads .exe 0xEF400200 0xB001C200 (.selk 2#3 3#3 1#3 4#4 .f32) = true ∧
    reads .exe 0xF0000000 0x80000060 (.rngv (.vec (h 0#3 0#7)) .n32) = true ∧
    reads .exe 0xF1C00A03 0x9C100000 (.smpl (.vec (h 6#3 0#7)) (.vec (h 5#3 3#7)) 2#4) = true ∧
    reads .exe 0xF2601184 0 (.vpop (h 3#3 1#7) 0#2) = true ∧ reads .exe 0xF318C601 0 (.vpush 0#2 (.vec (h 3#3 1#7))) = true := by decide

/-! ### Small states -/

/-- An exposed line of 15 words of an engine. -/
def lineOf' (e : Engine) : Line := BitVec.ofNat 512 (e.code * 2 ^ 30 + 0x3F000000)

/-- A pod in which one task, changed by f, is active at level S on core 0 of die 0, and its sequencer e is about to issue. The
task has a page at 65536, of kind RC, which its core's TLB holds. -/
def here (e : Engine) (f : Task → Task := id) : State :=
  let u : Task := { level := .s, tid := 1#32, place := .active, core := some 0, trVec := 131076#64, ctl := { run := .running } }
  let t := f (u.modEng e fun x => { x with run := .running, pc := 65540#64 })
  let page : TlbEntry := { va := 65536, ipa := 65536, pa := 65536, u := true, x := true, w := true, r := true }
  { dies := [(0, { service := .full })], cores := [(0, { tlb := [page] })], vds := [(0, { state := .running })],
    tasks := [(1, t)], nextUid := 2, cur := { uid := 1, eng := e, line := lineOf' e } }

/-- The same with registers. -/
def with' (e : Engine) (l : List (GReg × W64)) : State := here e fun t => t.modEng e fun x => l.foldl (fun x p => x.put p.1 p.2) x

/-- The state after an instruction. -/
def after (i : Instr) (s : State) : State := match exec i s with | .next t => t | _ => s

/-- The value and the wait of the result an instruction leaves in the delay line. -/
def left (i : Instr) (s : State) : Nat × Nat :=
  match (after i s).eng.pend.getLast? with
  | some p => (p.data.toNat, p.rem)
  | none => (0, 0)

/-- The trap an instruction takes: code and value. -/
def trapped (i : Instr) (s : State) : Option (Nat × W64) :=
  let t := (after i s).me
  if t.trBusy then some (t.trCode.toNat, t.trVal) else none

def ones : W64 := BitVec.allOnes 64

/-! ### Worked examples of the manual -/

/-- DIV by zero and of −2^63 by −1, REM (16 R345); both available 18 slots later (16 R346). -/
theorem test_div : left (.div 1#5 2#5 3#5) (with' .ctl [(2#5, 7#64)]) = (ones.toNat, 18) ∧
    left (.div 1#5 2#5 3#5) (with' .ctl [(2#5, 0x8000000000000000#64), (3#5, ones)]) = (0x8000000000000000, 18) := by
  decide +kernel

theorem test_rem : left (.rem 1#5 2#5 3#5) (with' .ctl [(2#5, -7#64), (3#5, 2#64)]) = (ones.toNat, 18) ∧
    left (.rem 1#5 2#5 3#5) (with' .ctl [(2#5, 7#64)]) = (7, 18) := by decide +kernel

/-- Signed and unsigned comparison of the same registers (16 R346). -/
theorem test_cmp : left (.cmp 1#5 2#5 3#5 .lt) (with' .ctl [(2#5, ones), (3#5, 1#64)]) = (1, 1) ∧
    left (.cmp 1#5 2#5 3#5 .ltn) (with' .ctl [(2#5, ones), (3#5, 1#64)]) = (0, 1) := by decide +kernel

/-- BFX and BFI (16 R355). -/
theorem test_bitfields : left (.bfx 1#5 2#5 8#6 3#6) (with' .ctl [(2#5, 0x1234#64)]) = (2, 1) ∧
    left (.bfi 1#5 2#5 8#6 3#6) (with' .ctl [(1#5, 0xFFFF#64), (2#5, 5#64)]) = (0xF5FF, 1) := by decide +kernel

/-- MOVHI replaces one halfword (17 R380). -/
theorem test_movhi : left (.movhi 2#5 3#2 0xDEAD#16) (with' .ctl [(2#5, 0x0000BEEF00001234#64)]) = (0xDEADBEEF00001234, 1) := by
  decide +kernel

/-- CLZ of 0, and a rotation by 64 (16 R345). -/
theorem test_clz_rotr : left (.clz 1#5 2#5) (here .ctl) = (64, 1) ∧
    left (.rotr 1#5 2#5 3#5) (with' .ctl [(2#5, 5#64), (3#5, 64#64)]) = (5, 1) := by decide +kernel

/-- BR with delta −1 goes a line back; word 0 traps (16 R356, R357). -/
theorem test_br : (after (.br 0xFFFFF#20 3#4) (here .lda)).cur.target = some ⟨65472#64, 3, .delta⟩ ∧
    (trapped (.br 1#20 0#4) (here .lda)).map (·.1) = some Cause.targetWord := by decide +kernel

/-- JR of a bad pointer has no effect and reports it (16 R357). -/
theorem test_jr : trapped (.jr 9#5) (with' .sta [(9#5, 65537#64)]) = some (Cause.targetPointer, 65537#64) := by decide +kernel

/-- LOOP of a register that holds 1 falls through and leaves 0 (16 R376). -/
theorem test_loop : left (.loop 3#5 0#15 3#4) (with' .ctl [(3#5, 1#64)]) = (0, 1) ∧
    (after (.loop 3#5 0#15 3#4) (with' .ctl [(3#5, 1#64)])).cur.target = none := by decide +kernel

/-- A count of 256 in a register traps; 255 in an empty queue goes (06 R136). -/
theorem test_sigt : trapped (.sigtReg 4#3 1#5) (with' .exe [(1#5, 256#64)]) = some (Cause.tokenCount, 256#64) ∧
    (after (.sigtReg 4#3 1#5) (with' .exe [(1#5, 255#64)])).me.tokenCount 4#3 = 255 := by decide +kernel

/-- A task whose k7 holds 250 tokens and whose LDA stalls for room to add 3. -/
def waitsToAdd (e : Engine) : State := here e fun t =>
  { t with tokens := [(7, [(250, {})])], lda := { run := .running, pc := 65540#64, offer := some 3 } }

/-- LDA's 3 are admitted before STA's 4, for which there is then no room, and CTL's 4 before both (06 R137). -/
theorem test_k7 : (after (.sigtImm 7#3 4#8) (waitsToAdd .sta)).cur.status = .stalled true ∧
    (after (.sigtImm 7#3 2#8) (waitsToAdd .sta)).me.tokenCount 7#3 = 252 ∧
    (after (.sigtImm 7#3 4#8) (waitsToAdd .ctl)).me.tokenCount 7#3 = 254 := by decide +kernel

/-- TRAP 3 with payload 0x40: code 0x1E3, and CTL at the vector (12 R270). -/
theorem test_trap : trapped (.trap 3#5 0x40#19) (here .ctl) = some (0x1E3, 0x40#64) ∧
    (after (.trap 3#5 0x40#19) (here .ctl)).me.ctl.pc = 131076#64 ∧
    (after (.trap 3#5 0x40#19) (here .ctl)).me.trEpc = 65544#64 := by decide +kernel

/-- CSRW of tr.cause at level T: the read level is checked first, tr.val is 1 (16 R361). -/
theorem test_csr_level : trapped (.csrw 0#5 1#5 .trCause) (here .ctl fun t => { t with level := .t }) = some (Cause.priv, 1#64) := by
  decide +kernel

/-- TALLOC of 65 rows takes two bands; of 0 rows it fails with 2 (08 R177). -/
theorem test_talloc : ((with' .ctl [(2#5, 65#64)]).talloc 7#8 65 3#3 false).1 = 2#64 ∧
    ((with' .ctl [(2#5, 65#64)]).talloc 7#8 0 3#3 false).1 = 0x8000000000000002#64 := by decide +kernel

/-- An ATOM of 8 bytes at an address that is no multiple of 8 traps with it (16 R349). -/
theorem test_atom_align : trapped (.atomAdd 1#5 2#5 3#5 .die true .acq) (with' .sta [(2#5, 65540#64)]) =
    some (Cause.atomAlign, 65540#64) := by decide +kernel

/-- ATOM.fadd: +0 + (−0) = +0; −0 + (−0) = −0; a NaN operand gives the canonical NaN (16 R349). -/
theorem test_fadd : atomNew .fadd 4 0 0x80000000 0 = some 0 ∧ atomNew .fadd 4 0x80000000 0x80000000 0 = some 0x80000000 ∧
    atomNew .fadd 4 0x7F800001 0 0 = some 0x7FC00000 := by decide +kernel

/-- A misaligned event address of NEST traps; a count of 65536 too (11 R240). -/
theorem test_nest : (trapped (.nestEvent 1#2 3#5 4#5) (with' .lda [(3#5, 12#64)])).map (·.1) = some Cause.copyAlign ∧
    (trapped (.nest 1#2 2#3 3#5 4#5 5#5) (with' .lda [(3#5, 65536#64)])).map (·.1) = some Cause.copyParam := by decide +kernel

/-! #### Numbers (05, 18) -/

/-- VCVT to e4m3 of 3.0, 500.0, NaN, 2^−10 and −∞, with flags: SAT and NX (18 R423). -/
theorem test_vcvt : [0x40400000, 0x43FA0000, 0x7FC00000, 0x3A800000, 0xFF800000].map (convert .f32 .e4m3 .rne 0) =
    [(0x44, 0#9), (0x7E, flSAT ||| flNX), (0x7F, 0#9), (0x00, flNX), (0xFE, flSAT)] ∧ flSAT ||| flNX = 0x21#9 := by decide +kernel

/-- VCVT.bf16.f32.rsr of 0x3F804000 with converter 0 at 0x12345678: lanes 0, 32 and 1 (05 R117, R118). -/
theorem test_rsr : lfsrStep 0x12345678#32 = 0x091A2B3C#32 ∧ ditherU 0x091A2B3C#32 1 0 = 0xD159 ∧
    [0, 32, 1].map (fun i => (convert .f32 .bf16 .rsr (ditherU 0x091A2B3C#32 i 0) 0x3F804000).1) = [0x3F80, 0x3F80, 0x3F81] := by
  decide +kernel

/-- The worked q4o block (05 R114, R115), as VQNT leaves it: elements, side data, and the flags QGU and NX (18 R431). -/
def workedBlock : List Sys2Proof.Machine.Num :=
  (List.range 32).map fun j => f32val (match j with
    | 2 => 0x40200000#32 | 11 => 0x41A00000#32 | 20 => 0xC1500000#32
    | _ => match j % 4 with | 0 => 0x3E800000#32 | 1 => 0xBF400000#32 | 2 => 0x3FC00000#32 | _ => 0xC0400000#32)

theorem test_vqnt : quantBlock .q4o 240 .rne (fun _ => 0) workedBlock =
    (0xB3F0B3F0B3D8B3F0B3F086F0B3F0B4F0, 0x00B13F12, flQGU ||| flNX) := by decide +kernel

/-- The worked block read back: slots 2, 11, 20 and the given-up 10 and 21 (05 R109). -/
theorem test_vdq :
    let v := (blockDecode .q4o (blockJoin .q4o 0xB3F0B3F0B3D8B3F0B3F086F0B3F0B4F0 0x00B13F12)).1
    [2, 11, 20, 10, 21].map (fun j => (fl32 (v.getD j .nan)).1) =
      [0x40120000#32, 0x41A44000#32, 0xC148C000#32, 0#32, 0#32] := by decide +kernel

/-- VSCAN.sum of 2^24 and ones: lanes 0 to 3 and 127 (18 R432). -/
theorem test_vscan :
    let l := (scan .sum .f32 .rne (fun _ => 0) (0x4B800000 :: List.replicate 127 0x3F800000)).1.map (·.1)
    [0, 1, 2, 3, 127].map (fun i => l.getD i 0) = [0x4B800000, 0x4B800000, 0x4B800001, 0x4B800002, 0x4B800040] := by decide +kernel

/-- SELK's ranking of the worked column, with the last two places of the whole ranking (10 R236). -/
theorem test_selk :
    let col := [0x40000000, 0x40A00000, 0xBF800000, 0x40A00000, 0x7FC00000, 0x80000000, 0x00000000, 0x40E00000] ++
      List.replicate 120 0xFF800000
    ((ranked .f32 col).take 7).map (·.1) = [7, 1, 3, 0, 5, 6, 2] ∧ ((ranked .f32 col).drop 126).map (·.1) = [127, 4] := by
  decide +kernel

/-- RNGV carries from the low half of the counter into the high half (05 R119). -/
theorem test_rngv : (after (.rngv (.qs 0#2) .n32) (here .exe fun t => { t with rngCtr := 0x5FFFFFFFFFFFFFFF0#128 })).me.rngCtr =
    0x60000000000000010#128 := by decide +kernel

/-- `Z4.d2`: lanes 0, 125, 126 and 127 (02 R38). -/
theorem test_diagonal : [0, 125, 126, 127].map (vecElem ⟨4#3, .d, 2#7⟩) = [(0, 2), (125, 127), (126, 0), (127, 1)] := by decide +kernel

/-- VADD.f32 of 1.0 and a broadcast: the result waits for 4 slots (18 R421). -/
theorem test_vadd :
    let s := after (.vadd (.vec ⟨2#3, .h, 0#7⟩) (.bcast 1#4) (.bcast 2#4) .f32 .rne) (with' .exe [(1#5, 0x3F800000#64), (2#5, 0x40000000#64)])
    (s.eng.pend.getLast?).map (fun p => (p.rem, lane p.data 127, p.flags)) = some (4, 0x40400000#32, 0#9) := by decide +kernel

/-! #### The fabric (13) -/

/-- The ack record of the worked MST: eleven positive replies, member 300 negative (13 R291). -/
theorem test_ack :
    let r := ({ pos := 11, negs := [(300, Cause.fbNack)] } : AckSum).record 0x302A
    [0, 1, 2].map (dword r) = [0x000000E10001000B, 1, 0x302A] ∧ r.getD 101 0#8 = 0x10#8 ∧ r.length = 128 := by decide +kernel

/-- The round traced in 13: rounds 5 and 6 close with the words and pairs given, and the duplicate is counted. -/
def tracedGroup : Group := { gen := 2, bf16 := true, k := 3, n := 4, e := 1, lags := [2, 2, 2, 2], wt := [0x3F00] }

/-- A contribution of a member for a tag, of one f32 value. -/
def given (m tag v : Nat) : Packet :=
  { kind := 8, vd := 0, src := 0, a := groupField 0x201C tag m, b := 1#64, str := 2 ^ m, body := leBytes 8 v, at' := 0 }

def traced : State :=
  [given 0 5 0x4B800000, given 1 5 0x3F800000, given 2 5 0x3F800000, given 3 5 0x40400000, given 1 5 0x3F800000,
    given 0 6 0x40800000, given 1 6 0x40000000, given 3 6 0x3F000000].foldl (fun s p => s.atRoot p tracedGroup)
    (({} : State).setRound { die := 0, vd := 0, group := 0x1C, gen := 2, openTag := 5#16 })

theorem test_round : (traced.packets.map fun p => (p.2.b, dword p.2.body 0)) =
      [(0x200000C000000005#64, 0x000000004B800001), (0x200000C010000006#64, 0x0000000041000000)] ∧
    (traced.die 0).dup = 1#64 ∧ (traced.round 0 0 0x201C).map (·.openTag) = some 7#16 := by decide +kernel

/-! #### Steps -/

/-- After reset, a step runs the instruction that is placed: ADDI g1, g0, 5 of CTL is due, and the word that follows is next. -/
theorem test_step :
    (match step (State.reset.withFetchWord 32 0x91080005) with
     | .next t => ((t.task 1).ctl.pend.map (·.data.toNat), (t.task 1).ctl.pc)
     | _ => ([], 0#64)) = ([5], 65544#64) := by decide +kernel

/-- The same for two words of EXE, VADD.f32 Z2.h0, Z0.h0, Z1.h0. -/
theorem test_step_bundle :
    (match step (State.reset.withFetchWord 64 0x90000000E0400000) with
     | .next t => ((t.task 1).exe.pend.map (·.dest), (t.task 1).exe.pc)
     | _ => ([], 0#64)) = ([.vec ⟨2#3, .h, 0#7⟩], 65548#64) := by decide +kernel

/-! ### States that meet the hypotheses of the statements

Each theorem is named after its statement; where the statement has several clauses, it holds a state for each. -/

/-- An instruction is admitted and a condition holds where it then reads its operands. -/
def meets (s : State) (i : Instr) (cls : Option PathClass) (cond : State → Bool) : Bool := s.admits i cls && cond s.landed

/-- The line an instruction is run from, and the state after it was entered. -/
def entry (s : State) : Option (Line × State) := match s.enterLine with | .have l u => some (l, u) | .ended _ => none

def entryOf (s : State) : Line × State := (entry s).getD (0, s)

theorem enters {s : State} (h : (entry s).isSome = true) : s.enterLine = .have (entryOf s).1 (entryOf s).2 := by
  unfold entryOf entry at *
  cases e : s.enterLine <;> simp_all

theorem reads_ok {ε : Type} {x : Except ε Instr} {i : Instr} (h : (match x with | .ok j => j == i | .error _ => false) = true) :
    x = .ok i := by
  cases x <;> simp_all

/-- A placed instruction with the sequencer about to take its slot. -/
def placed (nbits w : Nat) : State := State.reset.withFetchWord nbits w
def slotOf (e : Engine) (s : State) : State := { s with agenda := [], cur := { uid := 1, eng := e } }

theorem witness_InvStep : Memory.wf (placed 32 0x91080005).mem = true ∧
    (match step (placed 32 0x91080005) with | .next _ => true | _ => false) = true := by decide +kernel

/-- A store of 8 bytes up to the end of a line. -/
def storing : State :=
  { here .sta with accesses := [(1, { uid := 1, eng := .sta, parts := [{ pa := 65592, va := 65592, len := 8, write := true, bytes := leBytes 8 7 }] })] }

theorem witness_HomeWriteFrame : Memory.wf storing.mem = true ∧ ∃ a p, NMap.find? storing.accesses 1 = some a ∧ a.parts[0]? = some p ∧
    a.purpose = .store ∧ p.write = true ∧ storing.isPeer a.die p.pa = false ∧ storing.mayPerform a p = true ∧
    storing.tagOpen a.who p.pa = true ∧ p.pa % 64 + p.bytes.length ≤ 64 ∧ isHostPa p.pa = false ∧ storing.unreadable (some a.vdk) p.pa = false ∧
    (∀ v, v ∈ storing.vds → v.2.svcOn = false) ∧ storing.bellsAt (storing.home 0 p.pa) (lineOf p.pa) = [] ∧ a.parts = [p] :=
  ⟨by decide +kernel, _, _, rfl, rfl, by decide +kernel⟩

theorem witness_RoundTripAll : Instr.wf .exe (.bfi 15#5 15#5 0#6 63#6) = true ∧ Instr.wf .sta (.stLong 31#5 31#5 .n8 (.sc .pod) 0#31) = true := by
  decide +kernel

def runs : State := placed 32 0x91080005

/-- What a sequencer meets at its turn before it enters its line. -/
abbrev atTurn (s : State) (e : Engine) : Prop :=
  let u : State := { s with agenda := [] }
  s.agenda = [.issue 0 e none] ∧ u.activeOf 0 = some 1 ∧ u.coreRuns 0 = true ∧ (u.task 1).place = .active ∧ (u.task 1).dying = false ∧
    (u.task 1).traps = false ∧ u.mustStop 1 e = false ∧ (e = .exe → u.arithDue 1 = false) ∧ u.vdRuns (u.task 1).vdKey = true ∧
    (u.task 1).atIssue e = none ∧ ((u.task 1).eng e).run = .running

/-- The line that a sequencer enters at its turn, and the state in which it has looked for a stop point. -/
def turnLine (s : State) (e : Engine) : Line := (entryOf (slotOf e s)).1
def turnState (s : State) (e : Engine) : State := ((entryOf (slotOf e s)).2.meetStop 1 e).2

/-- It is its turn, and nothing keeps it from its line: it does not stop at what it waits for, it meets no stop point, and no crossing
makes it drain. -/
abbrev readyTurn (s : State) (e : Engine) : Prop :=
  atTurn s e ∧ (entry (slotOf e s)).isSome = true ∧ ((entryOf (slotOf e s)).2.stopsWaiting 1 e (turnLine s e)).isNone = true ∧
    ((entryOf (slotOf e s)).2.meetStop 1 e).1 = false ∧ ((turnState s e).crossing (turnLine s e)).isNone = true

theorem turns {s : State} {e : Engine} (h : readyTurn s e) : s.turn 0 1 e [] (turnLine s e) (turnState s e) := by
  obtain ⟨⟨h1, h2, h3, h4, h5, h6, h7, h8, h9, h10, h11⟩, k, w, m, c⟩ := h
  exact ⟨h1, h2, h3, h4, h5, h6, h7, h8, h9, h10, h11, _, enters k, Option.isNone_iff_eq_none.mp w, Prod.ext m rfl,
    Option.isNone_iff_eq_none.mp c⟩

theorem runs_turn : runs.turn 0 1 .ctl [] (turnLine runs .ctl) (turnState runs .ctl) := turns (by decide +kernel)

/-- A placed word under what is left of a guard. -/
def guarded (w : Nat) (v : Bool) : State :=
  { placed 32 w with tasks := (placed 32 w).tasks.map fun p => (p.1, { p.2 with ctl := { p.2.ctl with guardLeft := 1, guardVal := v } }) }

/-- The words at the code pointer read as an instruction, and no error waits. -/
def isRead (s : State) (i : Instr) : Bool :=
  let u := turnState s .ctl
  let l := turnLine s .ctl
  (match readMember u.cur.eng l (ptrWord u.eng.pc) with | .ok j => j == i | .error _ => false) && formCheck i (u.atWord l) == .ok &&
    u.cur.err.isNone

/-- ADDI without a guard; under one that holds and one that does not, ADDI, TRAP, GRD, TRET and RDV. -/
theorem witness_StepRunsWord :
    let u := turnState runs .ctl
    let l := turnLine runs .ctl
    (runs.turn 0 1 .ctl [] l u ∧ u.eng.guardLeft = 0 ∧ u.cur.err = none ∧ u.reads l (.addi 1#5 0#5 5#14)) ∧
    [(0x91080005, true, Instr.addi 1#5 0#5 5#14), (0x91080005, false, .addi 1#5 0#5 5#14), (0xAD000803, true, .trap 3#5 64#19),
      (0x82287000, false, .grd 5#5 3#6 true 0#2), (0xAE000000, false, .tret), (0xA1000000, false, .rdv)].all (fun x =>
        let s := guarded x.1 x.2.1
        decide (readyTurn s .ctl) && isRead s x.2.2 && (turnState s .ctl).eng.guardLeft == 1 &&
          (turnState s .ctl).eng.guardVal == x.2.1) = true ∧
    (let s := guarded 0xAD000803 true
     (((turnState s .ctl).atWord (turnLine s .ctl)).setGuard 0 true).admits (.trap 3#5 64#19) none = true) ∧
    (let s := guarded 0x91080005 false
     ((turnState s .ctl).atWord (turnLine s .ctl)).falseSlot.cur.status = .issued) := by
  refine ⟨⟨runs_turn, ?_, ?_, reads_ok ?_, ?_⟩, ?_, ?_, ?_⟩ <;> decide +kernel

/-- A bundle of one VADD, and one of a VADD with an RDV. -/
def bundle (rdv : Bool) : State :=
  if rdv then (placed 64 0x1000000060400000).poke 65548 (leBytes 4 0xA1000000) else placed 64 0x90000000E0400000
def vaddMember : Member := ⟨1, .vadd (.vec ⟨2#3, .h, 0#7⟩) (.vec ⟨0#3, .h, 0#7⟩) (.vec ⟨1#3, .h, 0#7⟩) .f32 .rne⟩
def bundled (rdv : Bool) : List (Slot × Member) := (.v0, vaddMember) :: if rdv then [(.x, ⟨3, .rdv⟩)] else []

theorem bundle_ok {ε : Type} {x : Except ε (List Member × Nat × Bool)} {i : List Member × Nat × Bool}
    (h : (match x with | .ok j => j == i | .error _ => false) = true) : x = .ok i := by
  cases x <;> simp_all

theorem probe_ok {x : Result (Option State)} (h : (match x with | .next none => true | _ => false) = true) : x = .next none := by
  cases x with
  | next o => cases o <;> simp_all
  | fault f => simp at h
  | refused r => simp at h

def bundleState (r : Bool) : State := turnState (bundle r) .exe
def bundleLine (r : Bool) : Line := turnLine (bundle r) .exe
def bundleNow (r : Bool) : State :=
  let u := bundleState r
  { u with cur := { u.cur with line := bundleLine r, word := ptrWord u.eng.pc, first := ptrWord u.eng.pc, next := if r then 4 else 3 } }

theorem witness_StepRunsBundle (r : Bool) : (bundle r).turn 0 1 .exe [] (bundleLine r) (bundleState r) ∧
    (bundleState r).cur.err = none ∧
    readBundle (bundleLine r) 16 (ptrWord (bundleState r).eng.pc) [] = .ok ((bundled r).map (·.2), if r then 4 else 3, true) ∧
    assignSlots ((bundled r).map (·.2)) = some (bundled r) ∧
    guardWalk (fun x => ((bundleNow r).modMe fun t => t.land .exe).reg x) ((bundled r).map (·.2)) (bundleState r).eng.guardLeft
      (bundleState r).eng.guardVal = ((bundled r).map fun _ => true, 0, true) ∧
    (((bundled r).map (·.2)).filterMap fun m => match formCheck m.ins (bundleNow r) with | .trap c v => some (c, v) | _ => none) = [] ∧
    (bundled r).filter (fun p => !p.2.joins) = [(.v0, vaddMember)] ∧
    (bundleNow r).probe [(.v0, vaddMember)] = .next none ∧ (bundleNow r).falseSlot.cur.status = .issued ∧
    (bundleNow r).falseSlot.bundlePops [(.v0, vaddMember)] = true := by
  cases r <;> refine ⟨turns ?_, ?_, bundle_ok ?_, ?_, ?_, ?_, ?_, probe_ok ?_, ?_, ?_⟩ <;> decide +kernel

/-- What a translation gives. -/
def piecesOf : Trans → List Piece | .ok ps _ => ps | _ => []
def stateOf : Trans → State | .ok _ s | .miss s | .fault _ s => s

theorem trans_ok {x : Trans} (h : (match x with | .ok _ _ => true | _ => false) = true) : x = .ok (piecesOf x) (stateOf x) := by
  cases x <;> simp_all [piecesOf, stateOf]

/-- The line of the placed instruction before it is entered. -/
def unread : State := slotOf .ctl runs
def looked : Trans := unread.translate1 (.task 1 .ctl) 1 65536 .exec
def fetched : List Byte × State :=
  ((stateOf looked).crossTo unread.me.die ((piecesOf looked).headD {}).pa).homeRead
    { vd := some unread.me.vdKey, die := unread.me.die, tid := unread.me.tid.toNat, acc := .exec } .ok 65536
    ((piecesOf looked).headD {}).pa 64

theorem witness_FetchReadsTheLine : (stateOf looked).routed unread.me.die ((piecesOf looked).headD {}).pa = true ∧
    unread.eng.line = none ∧ pointerOk unread.eng.pc = true ∧ (ptrLine unread.eng.pc).toNat = 65536 ∧
    looked = .ok (piecesOf looked) (stateOf looked) ∧ fetched.1 = toBytes 64 (ofBytes 512 fetched.1) ∧
    linkTrap .ctl (ofBytes 512 fetched.1) = none ∧ ptrWord unread.eng.pc ≤ linkCount (ofBytes 512 fetched.1) := by
  refine ⟨?_, ?_, ?_, ?_, trans_ok ?_, ?_, ?_, ?_⟩ <;> decide +kernel

theorem witness_ResultAvailable : (({} : Task).eng .ctl).pend = [] ∧ (1#5 : GReg) ≠ 0#5 ∧ 0 < 1 := by decide +kernel

/-! #### Instructions -/

theorem witness_NopChangesNothing : [Engine.ctl, .lda, .exe, .sta].all (fun e => (here e).admits .nop none) = true := by decide +kernel

theorem witness_RegisterZero : Instr.typesOk (.add 16#5 1#5 2#5) = true ∧ (Instr.exeRegs (.add 16#5 1#5 2#5)).any (16 ≤ ·.toNat) = true ∧
    (here .exe).cur.eng = .exe := by decide +kernel

/-- The scalar instructions, with registers at the ends of their numbers. -/
def scalars : List Instr :=
  [.nop, .add 1#5 2#5 31#5, .sub 31#5 2#5 3#5, .mul 1#5 2#5 3#5, .mulh 1#5 2#5 3#5, .mulhn 1#5 2#5 3#5, .div 1#5 2#5 3#5,
    .divn 1#5 2#5 3#5, .rem 1#5 2#5 3#5, .remn 1#5 2#5 3#5, .and 1#5 2#5 3#5, .or 1#5 2#5 3#5, .xor 1#5 2#5 3#5, .andn 1#5 2#5 3#5,
    .shl 1#5 2#5 3#5, .shr 1#5 2#5 3#5, .sar 1#5 2#5 3#5, .rotr 1#5 2#5 3#5, .min 1#5 2#5 3#5, .max 1#5 2#5 3#5, .minn 1#5 2#5 3#5,
    .maxn 1#5 2#5 3#5, .cmp 1#5 2#5 3#5 .tst, .clz 1#5 2#5, .ctz 1#5 2#5, .popc 1#5 2#5, .mov 0#5 2#5, .addi 1#5 2#5 0x2000#14,
    .andi 1#5 2#5 0x3FFF#14, .ori 1#5 2#5 0#14, .xori 1#5 2#5 1#14, .shli 1#5 2#5 63#6, .shri 1#5 2#5 63#6, .sari 1#5 2#5 63#6,
    .movi 1#5 0x40000#19, .movhi 1#5 3#2 0xFFFF#16, .bfx 1#5 2#5 0#6 63#6, .bfi 1#5 2#5 63#6 0#6]

theorem witness_Scalar : scalars.all (fun i => (here .ctl).admits i none) = true ∧ (0#6).toNat + (63#6).toNat < 64 := by decide +kernel

theorem witness_ScalarFrame : scalars.all (fun i => isScalar i && (here .lda).admits i none) = true := by decide +kernel

theorem witness_Transfers :
    meets (here .lda) (.grd 1#5 63#6 true 0#2) none (fun s => grdTrap s.cur.line s.cur.word 0#2 == none) = true ∧
    (here .sta).admits (.br 0x80000#20 15#4) none = true ∧ (here .ctl).admits (.call 1#20 1#4) none = true ∧
    [Instr.br 1#20 0#4, .call 1#20 0#4, .loop 3#5 1#15 0#4].all (fun i => (here .ctl).admits i none) = true ∧
    meets (with' .ctl [(9#5, 65540#64)]) (.jr 9#5) none (fun s => pointerOk (s.reg 9#5)) = true ∧
    meets (with' .ctl [(9#5, 65536#64)]) (.jr 9#5) none (fun s => !pointerOk (s.reg 9#5)) = true ∧
    meets (with' .ctl [(31#5, 65596#64)]) .ret none (fun s => pointerOk (s.reg 31#5)) = true ∧
    meets (here .ctl) .ret none (fun s => !pointerOk (s.reg 31#5)) = true ∧
    meets (here .exe) (.loop 3#5 1#15 1#4) none (fun s => s.reg 3#5 == 0) = true ∧
    meets (with' .exe [(3#5, 1#64)]) (.loop 3#5 1#15 1#4) none (fun s => s.reg 3#5 == 1) = true ∧
    meets (with' .exe [(3#5, 2#64)]) (.loop 3#5 1#15 1#4) none (fun s => decide (1 < (s.reg 3#5).toNat)) = true := by decide +kernel

/-- A task whose other streams are idle, with its handler's registers as f leaves them. -/
def handling : State := here .ctl fun t => { t with trBusy := true }

theorem witness_StreamsAndTasks :
    meets (with' .ctl [(4#5, 65540#64)]) (.fork .exe 4#5 5#5 6#5) none
      (fun s => pointerOk (s.reg 4#5) && (s.me.eng .exe).run == .idle && !s.me.trBusy) = true ∧
    meets (here .ctl) (.fork .exe 4#5 5#5 6#5) none (fun s => !pointerOk (s.reg 4#5)) = true ∧
    meets (here .ctl fun t => { t.modEng .ctl fun x => x.put 4#5 65540#64 with exe := { run := .running } }) (.fork .exe 4#5 5#5 6#5) none
      (fun s => pointerOk (s.reg 4#5) && (s.me.eng .exe).run != .idle) = true ∧
    Engine.exe ≠ (here .ctl).cur.eng ∧ meets (here .ctl) .rdv none (fun s => s.cur.eng == .ctl && s.me.joined) = true ∧
    meets (here .sta) .rdv none (fun s => s.cur.eng != .ctl) = true ∧
    meets (here .ctl fun t => { t with lda := { run := .joining } }) .rdv none (fun s => s.cur.eng == .ctl && !s.me.joined) = true ∧
    meets (here .ctl) (.spawn 1#5 2#5 3#5) none (fun s => !pointerOk (s.reg 2#5)) = true ∧
    meets (with' .ctl [(2#5, 65540#64)]) (.spawn 1#5 2#5 3#5) none (fun s => spawnCheck 2#5 s == .ok) = true ∧
    (here .ctl).admits .yield none = true ∧
    meets (here .ctl) .exit none (fun s => s.me.joined && s.quiet s.cur.uid) = true := by decide +kernel

/-- A task with tokens in k4. -/
def tokened (e : Engine) (n : Nat) : State := here e fun t => { t with tokens := [(4, [(n, {})])] }

theorem witness_Tokens :
    meets (tokened .exe 250) (.sigtImm 4#3 5#8) none (fun s => decide (s.countMet 4#3 + (5#8).toNat ≤ 255)) = true ∧
    meets (with' .exe [(1#5, 255#64)]) (.sigtReg 4#3 1#5) none
      (fun s => decide ((s.reg 1#5).toNat ≤ 255 ∧ s.countMet 4#3 + (s.reg 1#5).toNat ≤ 255)) = true ∧
    meets (tokened .sta 5) (.waittImm 4#3 5#8) none (fun s => decide ((5#8).toNat ≤ s.me.tokenCount 4#3)) = true ∧
    meets (tokened .sta 5) (.waittReg 4#3 0#5) none
      (fun s => decide ((s.reg 0#5).toNat ≤ 255 ∧ (s.reg 0#5).toNat ≤ s.me.tokenCount 4#3)) = true ∧
    meets (with' .exe [(1#5, 256#64)]) (.sigtReg 4#3 1#5) none (fun s => decide (255 < (s.reg 1#5).toNat)) = true ∧
    meets (with' .sta [(1#5, 256#64)]) (.waittReg 4#3 1#5) none (fun s => decide (255 < (s.reg 1#5).toNat)) = true ∧
    meets (here .lda fun t => { t with counters := [(3, 16)] }) (.waitc 3#4 16#12) none
      (fun s => decide (s.me.counters.getD (3#4).toNat 0 ≤ (16#12).toNat)) = true ∧
    meets (here .sta) (.drain 15#4) none (fun s => s.drained s.cur.uid 15) = true ∧
    5 ≤ (tokened .sta 5).me.tokenCount 4#3 ∧ (3#3 : BitVec 3) ≠ 4#3 ∧ (4#3 : BitVec 3) ≠ 7#3 ∧ (waitsToAdd .ctl).cur.eng = .ctl := by
  decide +kernel

/-- VD 0's memory is mapped: the first 256 MiB, through two tables. -/
def mapped (s : State) : State :=
  ((s.modVd 0 fun v => { v with s2root := 0x20000#64, cfg := [(0x92, 8#8), (0xB2, 9#8)] }).poke 0x20000 (leBytes 8 0x40003)).poke
    0x40000 (leBytes 8 125)

/-- A task of gang 1, whose barriers of a quad count n members; the gang table is at 0x80000. -/
def ganged (n : Nat) (f : Task → Task := id) : State :=
  (mapped (here .ctl fun t => f { t with gang := 1#16 })).poke 0x80010 (leBytes 8 n)

theorem witness_Barriers :
    let key (s : State) : Nat := barKey .quad (s.barInstance s.me .quad) 15
    let count (s : State) : Nat := (s.gangEntry s.me.vdKey s.me.gang.toNat).barCount .quad
    let arrive (s : State) : State := (s.modMe fun t => { t with bars := t.bars ++ [(key s, t.trBusy, false)] }).arriveAt (key s)
      s.me.vdKey s.me.gang.toNat (s.cur.uid * 2 + b2n s.me.trBusy) []
    let near (s : State) : Bool := !s.gangAway s.me.vdKey s.me.die s.me.gang.toNat
    let ready (s : State) : Bool := s.arrivalOf (key s) == none && s.me.gang != 0#16 && near s && count s != 0 && s.classesDone s.cur.uid &&
      s.barrierOpen (key s) s.me.vdKey s.me.gang.toNat
    meets (ganged 1) (.bar .quad 15#8) none (fun s => ready s &&
      decide (count s ≤ ((arrive s).barriers.getD (key s) {}).arrived.length)) = true ∧
    meets (ganged 2) (.bar .quad 15#8) none (fun s => ready s &&
      decide (((arrive s).barriers.getD (key s) {}).arrived.length < count s)) = true ∧
    meets ((ganged 1).poke 0x80018 (leBytes 4 1)) (.bar .pod 15#8) none (fun s => s.arrivalOf (barKey .pod (s.barInstance s.me .pod) 15) == none &&
      s.me.gang != 0#16 && near s && (s.gangEntry s.me.vdKey s.me.gang.toNat).barCount .pod != 0 && s.classesDone s.cur.uid) = true ∧
    meets (ganged 1 fun t => { t with bars := [(barKey .quad 0 15, false, true)] }) (.bar .quad 15#8) none (fun s =>
      s.arrivalOf (key s) == some true && s.pendingIds s.cur.uid Access.fences == []) = true ∧
    [Scope.quad, .pod].all (fun sc => meets (ganged 0) (.bar sc 15#8) none fun s =>
      s.arrivalOf (barKey sc (s.barInstance s.me sc) 15) == none && near s && (s.gangEntry s.me.vdKey s.me.gang.toNat).barCount sc == 0) = true ∧
    meets (here .ctl) (.bar .quad 15#8) none (fun s => s.arrivalOf (key s) == none && near s && s.me.gang == 0#16) = true := by
  and_intros <;> decide +kernel

/-- An arrival at a pod barrier and a release that stand at their destinations, and barriers that are held. -/
def podBarriers : State :=
  { ganged 1 with packets := [(7, { kind := 12, gang := 1, links := [2], dst := 0, at' := 0, a := 8#64 }),
                              (8, { kind := 13, gang := 1, links := [2], dst := 0, at' := 0, a := 8#64 })]
                  barriers := [(barKey .quad 0 15, { gang := 1, arrived := [2] }), (barKey .pod 0 8, { gang := 1, arrived := [2], dies := [0] })] }

theorem witness_PodBarriers :
    (podBarriers.packet 7 12).isSome = true ∧ podBarriers.route 2 0 0 = some [] ∧
    ((podBarriers.packet 7 12).all fun p => !podBarriers.behind 7 p && podBarriers.barrierOpen (podBarrier (bits p.a 7 0)) p.vd p.gang &&
      !podBarriers.gangAway (vdKey (podBarriers.moduleOf p.dst) p.vd) p.dst p.gang) = true ∧
    (podBarriers.packet 8 13).isSome = true ∧ podBarriers.route (vcOf 13) 0 0 = some [] ∧
    ((podBarriers.packet 8 13).all fun p => !podBarriers.behind 8 p && podBarriers.mayApply p) = true ∧
    ((NMap.find? podBarriers.barriers (barKey .quad 0 15)).any fun b => b.vd = 0 && b.gang = 1 &&
      !podBarriers.gangAway 0 ((podBarriers.task ((b.arrived.headD 0) / 2)).die) 1 && decide (((podBarriers.gangRecords 0 ((podBarriers.task ((b.arrived.headD 0) / 2)).die) 1).gangEntry 0 1).barCount .quad ≤
        b.arrived.length)) = true ∧
    ((NMap.find? podBarriers.barriers (barKey .pod 0 8)).any fun b => b.vd = 0 && b.gang = 1 &&
      let home := podBarriers.barrierHome (podBarriers.moduleOf (b.dies.headD 0)) 0 1 8
      !podBarriers.gangAway (vdKey (podBarriers.moduleOf home) 0) home 1 &&
      decide ((podBarriers.gangRecords (vdKey (podBarriers.moduleOf home) 0) home 1).podCount home 0 1 ≤ b.arrived.length)) = true := by
  decide +kernel

theorem witness_TrapEntrySaves : ((here .ctl).task 1).trBusy = false ∧ pointerOk ((here .ctl).task 1).trVec = true := by decide +kernel

theorem witness_TrapReturnRestores : ((here .sta).task 1).trBusy = false ∧ pointerOk ((here .sta).task 1).trVec = true ∧
    engines.all (fun d => (((here .sta).task 1).eng d).stop == .none) = true := by decide +kernel

/-- A task at level T. -/
def lowly (e : Engine) (l : List (GReg × W64) := []) : State :=
  here e fun t => { t.modEng e fun x => l.foldl (fun x p => x.put p.1 p.2) x with level := .t }

theorem witness_TrapInstructions : (here .exe).admits (.trap 31#5 0x7FFFF#19) none = true ∧
    meets handling .tret none (fun s => s.me.trBusy && !s.me.exeOwn && s.me.joined) = true ∧
    meets (lowly .ctl) .tret none (fun s => s.me.priv == .t) = true ∧
    meets (here .ctl) .tret none (fun s => s.me.priv == .s && !s.me.trBusy) = true := by decide +kernel

/-- A task at level F. -/
def firm : State := here .ctl fun t => { t with level := .f }

/-- The registers that a level allows, and those it does not. -/
def guestCsrs : List Csr := [.trCause, .trEpc, .trVal, .trFrom, .trVec, .trEng, .exeOwn, .vmS1root, .vmAsid, .vmS2root, .vmVd]

/-- The instructions of a control register. -/
def csrForms (c : Csr) : List Instr := [.csrr 1#5 c, .csrw 1#5 2#5 c, .csrs 1#5 2#5 c, .csrc 1#5 2#5 c]

theorem witness_ControlRegisters :
    meets (lowly .ctl) (.csrr 1#5 .arFlags) none (fun s => csrCheck .arFlags false s == .ok) = true ∧
    [Instr.csrw 1#5 2#5 .vmAsid, .csrs 1#5 2#5 .vmAsid, .csrc 1#5 2#5 .vmAsid].all (fun i => meets (here .ctl) i none
      fun s => csrCheck .vmAsid true s == .ok) = true ∧
    (here .ctl).admits (.rngadv 4#5 5#5) none = true ∧
    guestCsrs.all (fun c => (csrForms c).all fun i => meets (lowly .ctl) i none fun s => s.me.priv == .t) = true ∧
    [Csr.vmS2root, .vmVd].all (fun c => (csrForms c).all fun i => meets (here .ctl) i none fun s => s.me.priv != .f) = true ∧
    [Csr.cfgPlace, .cfgTask, .cfgVd, .clkRef].all (fun c => ((csrForms c).drop 1).all fun i => (here .ctl).admits i none) = true := by
  decide +kernel

/-- No walk of what a TLBI names is under way. -/
def quiet (s : State) : Bool := s.myTlbi.isNone && !(s.accesses.any fun a => a.2.uid = s.cur.uid && a.2.drain == some 1) && s.walks.isEmpty

theorem witness_Tlbis :
    [Instr.tlbiVa .pod 1#5 2#5, .tlbiAsid .core 2#5, .tlbiVd .die].all (fun i => meets (here .ctl) i none
      fun s => quiet s && s.me.priv.isS) = true ∧
    [Instr.tlbiIpa .pkg 1#5 2#5, .tlbiS2Vd .quad 2#5].all (fun i => meets firm i none fun s => quiet s && s.me.priv.isF) = true ∧
    (∀ h, (firm.landed.shoot .pod h).walks = []) ∧
    [Instr.tlbiVa .pod 1#5 2#5, .tlbiAsid .pod 2#5, .tlbiVd .pod].all (fun i => meets (lowly .ctl) i none fun s => !s.me.priv.isS) = true ∧
    [Instr.tlbiIpa .pod 1#5 2#5, .tlbiS2Vd .pod 2#5].all (fun i => meets (here .ctl) i none fun s => !s.me.priv.isF) = true :=
  ⟨by decide +kernel, by decide +kernel, fun _ => rfl, by decide +kernel, by decide +kernel⟩

/-- VD 0 owns a window over the page, in which it has written a doubleword whose old value another task, of VD 1, may still see; task 1
may see an old value of VD 1's that has been released to it. -/
def windowed : State :=
  { with' .ctl [(5#5, 255#64)] with
    windows := [(windowKey 0 255, { open' := true, pas := [(65536, 65536, .rc)] })]
    views := [{ vdk := 1, tid := 9, dw := 131064, olds := [{ bytes := leBytes 8 7, vdk := 0, die := 0, tid := 1 }] },
              { vdk := 0, tid := 1, dw := 65536, olds := [{ bytes := leBytes 8 7, vdk := 1, die := 0, tid := 9, released := true }] }] }

/-- The old values that are seen at a doubleword. -/
def seen (s : State) (dw : Nat) : List Bool := (s.views.filter fun v => v.dw = dw).flatMap fun v => v.olds.map (·.released)

theorem witness_Fences :
    meets (here .sta) (.fence .pod) none (fun s => s.pendingIds s.cur.uid Access.fences == []) = true ∧
    meets (here .lda) (.fenceAcq .core) none (fun s => s.pendingIds s.cur.uid Access.isLoad == []) = true ∧
    (here .sta).admits (.fenceRel .die) none = true ∧ (here .lda).admits (.fencex .die .st .cp) none = true ∧
    [Instr.wacq 5#5 .pkg, .wrel 5#5 .pkg].all (fun i => meets windowed i none fun s => windowCheck 5#5 s == .ok && (s.myWindow 5#5).isSome) =
      true ∧
    (let w := windowed.windows.getD (windowKey 0 255) {}
     let t := windowed.me
     seen (windowed.releaseViews w t (windowed.scopeCovers t .pkg)) 131064 = [true] ∧ w.covers 131064 = true ∧
       windowed.views.all (windowed.scopeCovers t .pkg) = true ∧ seen windowed 65536 = [true] ∧ seen (windowed.acquireWindow w t) 65536 = []) ∧
    meets (with' .ctl [(5#5, 0#64)]) (.wacq 5#5 .pkg) none (fun s => windowCheck 5#5 s == .ok) = true ∧
    meets (here .sta) (.wrel 5#5 .die) none (fun s => windowCheck 5#5 s == .ok) = true := by decide +kernel

/-- The hypotheses of `Accesses`. -/
def accesses (s : State) (i : Instr) (cls : PathClass) (cond : State → Bool) (va : State → Nat) (n : Nat) (acc : AccKind)
    (o so : Sys2Proof.Machine.Ordering) : Bool :=
  s.admits i (some cls) && cond s.landed &&
    match s.landed.holdOver.translate (.task s.cur.uid s.cur.eng) s.cur.uid (va s.landed) n acc with
    | .ok ps u =>
      let k := if ps.any fun p => p.ord == .so then so else o
      k.before != .full || u.pendingIds u.cur.uid Access.fences == []
    | _ => false

/-- Registers that point into the page. -/
def pointing (e : Engine) (f : Task → Task := id) : State := here e fun t => f (t.modEng e fun x => (x.put 2#5 65536#64).put 6#5 131064#64)

/-- WAITV of the doubleword 0 at 65536, and of another value. -/
def polled : Trans := (pointing .lda).landed.holdOver.translate (.task 1 .lda) 1 65536 8 .read

theorem witness_LoadsAndStores :
    let yes (_ : State) : Bool := true
    accesses (pointing .lda) (.ld 1#5 2#5 .i16 3#11) .ld yes (fun s => s.address 2#5 6) 2 .read {} soLoad = true ∧
    accesses (pointing .lda) (.ldLong 1#5 2#5 .w64 (.sc .pod) 12#31) .ld yes (fun s => s.address 2#5 12) 8 .read
      (ldOrdering (.sc .pod)) soLoad = true ∧
    accesses (pointing .sta) (.st 7#5 6#5 .w64 0#11) .st yes (fun s => s.address 6#5 0) 8 .write {} soStore = true ∧
    accesses (pointing .sta) (.stLong 7#5 2#5 .n32 (.rel .pkg) 4#31) .st yes (fun s => s.address 2#5 4) 4 .write
      (stOrdering (.rel .pkg)) soStore = true ∧
    [Instr.pref 2#5 1#14, .prefTree 2#5 1#14].all (fun i => meets (pointing .lda) i (some .ld) fun s =>
      decide (s.address 2#5 64 / 64 * 64 < 2 ^ 56) && ((s.core (s.me.core.getD 0)).tlb.find? fun e =>
        e.serves s.me.vdKey s.me.asid.toNat (s.address 2#5 64 / 64 * 64)).isSome) = true ∧
    [Instr.pref 7#5 1#14, .prefTree 7#5 1#14].all (fun i => meets (pointing .lda) i (some .ld) fun s =>
      decide (s.address 7#5 64 / 64 * 64 < 2 ^ 56) && (s.lookup s.me.die (s.me.core.getD 0) s.me.vdKey s.me.asid.toNat
        (s.address 7#5 64 / 64 * 64)).1.isNone) = true := by decide +kernel

theorem witness_Waitv :
    let u := stateOf polled
    let ps := piecesOf polled
    (pointing .lda).admits (.waitv 1#5 2#5 3#5 .eq true) (some .ld) = true ∧
    (pointing .lda).landed.pollDue (pointing .lda).landed.me = true ∧ (pointing .lda).landed.address 2#5 0 / 8 * 8 = 65536 ∧
    polled = .ok ps u ∧ (ps.any fun p => p.ord == .so) = false ∧ u.pollBlocked u.me ps = false ∧
    waitvHolds .eq true (u.poll u.cur.uid ps).1 ((u.poll u.cur.uid ps).2.reg 3#5) = true ∧
    waitvHolds .ne true (u.poll u.cur.uid ps).1 ((u.poll u.cur.uid ps).2.reg 3#5) = false := by
  refine ⟨?_, ?_, ?_, trans_ok ?_, ?_, ?_, ?_, ?_⟩ <;> decide +kernel

/-- Sixteen entries in QS0. -/
def full (e : Engine) : State := pointing e fun t => { t with queues := [(12, List.replicate 16 ⟨0, some 7#4096⟩)] }

theorem witness_QueueMoves :
    accesses (pointing .lda) (.ldq (.qv 1#2) 2#5 0#7) .ld (fun s => decide ((s.me.queue (.qv 1#2)).length < 16))
      (fun s => s.address 2#5 0 / 64 * 64) 512 .read {} soLoad = true ∧
    accesses (pointing .lda) (.ldr (.qa 2#2) 2#5 15#4) .fb (fun s => decide ((s.me.queue (.qa 2#2)).length + ((15#4).toNat + 1) ≤ 16))
      (fun s => s.address 2#5 0 / 64 * 64) (512 * 16) .read {} soLoad = true ∧
    accesses (full .sta) (.stq 0#2 2#5 0#7) .st (fun s => decide (1 ≤ arrived (s.me.queue (.qs 0#2))))
      (fun s => s.address 2#5 0 / 64 * 64) 512 .write {} soStore = true ∧
    accesses (full .sta) (.str 0#2 2#5 15#4) .fb (fun s => decide ((15#4).toNat + 1 ≤ arrived (s.me.queue (.qs 0#2))))
      (fun s => s.address 2#5 0 / 64 * 64) (512 * 16) .write {} soStore = true := by decide +kernel

/-- The atomics, at 65536. -/
def atomics : List Instr :=
  [.atomSwap 1#5 2#5 3#5 .pod true .ar, .atomCas 1#5 2#5 3#5 4#5 .pod true .rel, .atomAdd 1#5 2#5 3#5 .die true .acq,
    .atomAnd 1#5 2#5 3#5 .core true .relaxed, .atomOr 1#5 2#5 3#5 .pod true .ar, .atomXor 1#5 2#5 3#5 .pod true .ar,
    .atomMin 1#5 2#5 3#5 .pod true .ar, .atomMax 1#5 2#5 3#5 .pod true .ar, .atomMinn 1#5 2#5 3#5 .pod true .ar,
    .atomMaxn 1#5 2#5 3#5 .pod true .ar]

theorem witness_Atomics :
    atomics.all (fun i => accesses (pointing .sta) i .st (fun s => decide ((s.reg 2#5).toNat % 8 = 0)) (fun s => s.address 2#5 0) 8
      .atomic (atomOrdering .ar) soStore) = true ∧
    accesses (pointing .sta) (.atomFadd 1#5 2#5 3#5 .pod .ar) .st (fun s => decide ((s.reg 2#5).toNat % 4 = 0))
      (fun s => s.address 2#5 0) 4 .atomic (atomOrdering .ar) soStore = true ∧
    (atomics ++ [Instr.atomFadd 1#5 2#5 3#5 .pod .ar]).all (fun i => meets (with' .sta [(2#5, 65538#64)]) i (some .st) fun s =>
      decide ((s.reg 2#5).toNat % 4 ≠ 0)) = true := by decide +kernel

theorem witness_AccessFrame : isAccess (.ld 1#5 2#5 .i16 3#11) = true ∧
    (match exec (.ld 1#5 2#5 .i16 3#11) (pointing .lda) with | .next t => t.cur.status == .issued | _ => false) = true ∧
    (pointing .lda).cur.status = .start ∧ (pointing .lda).cur.commit = false := by decide +kernel

theorem witness_AtomicValues : 0xFFFFFFFF < 2 ^ (8 * 4) ∧ 0xFFFFFFFFFFFFFFFF < 2 ^ (8 * 8) ∧
    (atomNew .min 8 (2 ^ 63) 0 0).isSome = true ∧ (atomNew .max 4 (2 ^ 31) 0 0).isSome = true := by decide +kernel

/-- Bell 4095 of die 0 is armed. -/
def belled (v : Nat) (l : List (GReg × W64)) : State := { with' .ctl l with bells := [(4095, { state := .armed, vd := v })] }

theorem witness_Bells :
    let at' (s : State) : Nat := s.me.die * 4096 + (s.reg 5#5).toNat
    meets (here .ctl) (.bellset 1#5 2#5 3#5 4#5) (some .bl) (fun s => s.me.priv.isS) = true ∧
    meets (belled 0 [(5#5, 4095#64)]) (.bellclr 5#5) (some .bl) (fun s => s.me.priv.isS && decide ((s.reg 5#5).toNat < 4096) &&
      (s.bell (at' s)).state != .free && (s.bell (at' s)).vd == s.me.vdKey) = true ∧
    meets (belled 0 [(5#5, 4096#64)]) (.bellclr 5#5) (some .bl) (fun s => s.me.priv.isS && decide (4096 ≤ (s.reg 5#5).toNat)) = true ∧
    meets (belled 0 []) (.bellclr 5#5) (some .bl) (fun s => s.me.priv.isS && (s.bell (at' s)).state == .free) = true ∧
    meets (belled 1 [(5#5, 4095#64)]) (.bellclr 5#5) (some .bl) (fun s => s.me.priv.isS && (s.bell (at' s)).vd != s.me.vdKey) = true ∧
    meets (lowly .ctl [(5#5, 4095#64)]) (.bellqry 6#5 5#5) (some .bl) (fun s => decide ((s.reg 5#5).toNat < 4096)) = true ∧
    meets (lowly .ctl [(5#5, 4096#64)]) (.bellqry 6#5 5#5) (some .bl) (fun s => decide (4096 ≤ (s.reg 5#5).toNat)) = true := by
  decide +kernel

/-- A task with the tile H5 of 4 rows, its draft open with one row or not. -/
def tiled (e : Engine) (d : Bool) (l : List (GReg × W64) := []) : State :=
  here e fun t => { t.modEng e fun x => l.foldl (fun x p => x.put p.1 p.2) x with
    tiles := [(5, { rows := 4, bands := [0], clen := 1, dopen := d, dbase := 1, dlen := 1 })]
    queues := [(12, [⟨0, some 7#4096⟩])] }

theorem witness_Tiles :
    (here .ctl).admits (.talloc 5#8 1#5 2#5 0#3 true) none = true ∧
    meets (tiled .ctl false) (.tfree 5#8) none (fun s => (s.me.tile? 5#8).isSome && !s.tileBusy 5#8 true) = true ∧
    [Instr.tfree 5#8, .tdraft 5#8 3#5 6#5, .tcommit 5#8 3#5 4#5].all (fun i => meets (here .ctl) i none fun s => (s.me.tile? 5#8).isNone) = true ∧
    meets (here .lda) (.trd 5#8 4#5 3#7 (.qa 0#2)) none (fun s => (s.me.tile? 5#8).isNone) = true ∧
    [Instr.twr 5#8 4#5 3#7 0#2, .tzero 5#8 4#5 0#7 3#4].all (fun i => meets (here .sta) i none fun s => (s.me.tile? 5#8).isNone) = true ∧
    meets (tiled .ctl false [(6#5, 65536#64)]) (.tdraft 5#8 3#5 6#5) none (fun s => (s.me.tile? 5#8).any (fun x => !x.dopen) &&
      decide (65535 < (s.reg 6#5).toNat)) = true ∧
    meets (tiled .ctl false) (.tcommit 5#8 3#5 4#5) none (fun s => (s.me.tile? 5#8).any (fun x => !x.dopen) && !s.tileBusy 5#8 false) = true ∧
    meets (tiled .lda false) (.trd 5#8 4#5 4#7 (.qa 0#2)) none (fun s => (s.me.tile? 5#8).any fun x => decide (x.rows ≤ s.rowOf 4#5 4#7)) = true ∧
    meets (tiled .sta false) (.twr 5#8 4#5 4#7 0#2) none (fun s => (s.me.tile? 5#8).any fun x => decide (x.rows ≤ s.rowOf 4#5 4#7)) = true ∧
    meets (tiled .ctl false [(6#5, 65535#64)]) (.tdraft 5#8 3#5 6#5) none (fun s => (s.me.tile? 5#8).any (fun x => !x.dopen) &&
      decide ((s.reg 6#5).toNat ≤ 65535) && !s.tileBusy 5#8 false) = true ∧
    meets (tiled .ctl true [(4#5, 1#64)]) (.tcommit 5#8 3#5 4#5) none (fun s => !s.tileBusy 5#8 false &&
      (s.me.tile? 5#8).any (fun x => x.dopen && decide ((s.reg 4#5).toNat ≤ x.dlen))) = true ∧
    meets (tiled .ctl true) (.tdraft 5#8 3#5 6#5) none (fun s => (s.me.tile? 5#8).any (·.dopen)) = true ∧
    meets (tiled .ctl true [(4#5, 2#64)]) (.tcommit 5#8 3#5 4#5) none (fun s =>
      (s.me.tile? 5#8).any (fun x => x.dopen && decide (x.dlen < (s.reg 4#5).toNat)) && !s.tileBusy 5#8 false) = true ∧
    meets (tiled .lda false) (.trd 5#8 4#5 3#7 (.qa 0#2)) none (fun s =>
      (s.me.tile? 5#8).any (fun x => decide (s.rowOf 4#5 3#7 < x.rows)) && decide ((s.me.queue (.qa 0#2)).length < 16)) = true ∧
    meets (tiled .sta false) (.twr 5#8 4#5 3#7 0#2) none (fun s =>
      (s.me.tile? 5#8).any (fun x => decide (s.rowOf 4#5 3#7 < x.rows)) && decide (1 ≤ arrived (s.me.queue (.qs 0#2)))) = true ∧
    meets (tiled .sta false) (.tzero 5#8 4#5 0#7 3#4) none (fun s =>
      (s.me.tile? 5#8).any (fun x => decide (s.rowOf 4#5 0#7 + (3#4).toNat < x.rows))) = true ∧
    meets (tiled .sta false) (.tzero 5#8 4#5 1#7 3#4) none (fun s =>
      (s.me.tile? 5#8).any (fun x => decide (x.rows ≤ s.rowOf 4#5 1#7 + (3#4).toNat))) = true := by decide +kernel

theorem witness_TileLengths : let x : Tile := { rows := 4, dopen := true, dbase := 2 }
    x.dopen = true ∧ x.dbase ≤ 2 ∧ 1 < x.dbase ∧ ({} : Tile).dopen = false ∧ ((tiled .ctl false).me.tile? 5#8).isSome = true ∧ 3 < x.rows := by
  decide +kernel

/-- Registers of a copy of 64 bytes from 65536 to 131008. -/
def copying : State := with' .lda [(4#5, 131008#64), (5#5, 65536#64), (6#5, 64#64), (7#5, 65600#64), (8#5, 0x100000040#64), (9#5, 512#64)]

/-- A COPYW of six pixels of 64 bytes into tile H0, as in 11 R245. -/
def windowing : State :=
  here .lda fun t => { t.modEng .lda fun x => ((x.put 5#5 65536#64).put 6#5 0x600000040#64).put 7#5 0x601010103#64 with
    tiles := [(0, { rows := 64, rlen := 192, bands := [0] })] }

theorem witness_Copies :
    let okay (s : State) (c : Copy) (word : W64) : Bool := c.check word s == .ok
    let nest (kind : CopyKind) (s : State) : Copy :=
      s.nestCopy 3#2 15#4 kind (endpointOf .mem (s.reg 4#5)) (endpointOf .mem (s.reg 5#5)) 6#5
    (5#3).toNat < 6 ∧ meets (with' .lda [(3#5, 65535#64)]) (.nest 3#2 5#3 3#5 4#5 5#5) none (fun s => decide ((s.reg 3#5).toNat ≤ 65535)) = true ∧
    meets (with' .lda [(3#5, 65536#64)]) (.nest 3#2 5#3 3#5 4#5 5#5) none (fun s => decide (65535 < (s.reg 3#5).toNat)) = true ∧
    meets (with' .lda [(3#5, 8#64)]) (.nestEvent 3#2 3#5 4#5) none (fun s => decide ((s.reg 3#5).toNat % 8 = 0)) = true ∧
    meets (with' .lda [(3#5, 9#64)]) (.nestEvent 3#2 3#5 4#5) none (fun s => decide ((s.reg 3#5).toNat % 8 ≠ 0)) = true ∧
    meets copying (.copy 3#2 4#5 5#5 6#5 .mem .mem 15#4) (some .cp) (fun s => okay s (nest .nest s) 0) = true ∧
    okCopyr .max .bf16 = true ∧
    meets copying (.copyr 3#2 4#5 5#5 6#5 .mem .mem .max .bf16 15#4) (some .cp) (fun s => okay s (nest (.reduce .max .bf16) s) 0) = true ∧
    meets copying (.wbf 3#2 1#5 5#5 9#5 .mem 15#4) (some .cp) (fun s => okay s
      (s.nestCopy 3#2 15#4 .nest (.wbuf (bits (s.reg 1#5) 8 0)) (endpointOf .mem (s.reg 5#5)) 9#5) 0) = true ∧
    meets copying (.copyg 3#2 4#5 5#5 8#5 7#5 .mem .mem 15#4) (some .cp)
      (fun s => okay s (s.indexCopy 3#2 4#5 5#5 8#5 7#5 .mem .mem 15#4 false) 0) = true ∧
    meets copying (.copys 3#2 4#5 5#5 8#5 7#5 .mem .mem 15#4) (some .cp)
      (fun s => okay s (s.indexCopy 3#2 4#5 5#5 8#5 7#5 .mem .mem 15#4 true) 0) = true ∧
    meets windowing
      (.copyw 3#2 1#5 5#5 6#5 7#5 .tile .mem 15#4) (some .cp)
      (fun s => okay s (s.windowCopy 3#2 1#5 5#5 6#5 7#5 .tile .mem 15#4) (s.reg 7#5)) = true := by decide +kernel

/-- Group 0 of VD 0 on die 0, the root, with members 0 and 1 of one f32 value; the group table is at 0x90000 and the members'
blocks are at 0xA0000. -/
def groupBytes : List Byte :=
  leBytes 8 (2 ^ 63 + 2 ^ 16) ++ leBytes 8 0 ++ leBytes 8 0xA0000 ++ leBytes 8 0 ++ [0x80#8, 7#8] ++ List.replicate 30 0#8 ++
    List.replicate 384 0#8 ++ leBytes 64 3

def grouped (s : State) : State := (mapped s).poke 0x90000 groupBytes

/-- The member and group word of g5 and g6, and a tile H5 whose row 0 names member 0 and whose row 1 names none. -/
def member (e : Engine) : State :=
  grouped (here e fun t => { t.modEng e fun x => x.put 4#5 65536#64 with
    tiles := [(5, { rows := 4, rlen := 512, bands := [0], data := [(0, BitVec.ofNat 4096 (1 + 131072 * 2 ^ 576)), (1, BitVec.ofNat 4096 (131072 * 2 ^ 576))] })]
    queues := [(12, [⟨0, some 7#4096⟩])] }) |> fun s =>
      s.modCore 0 fun c => { c with tlb := c.tlb ++ c.tlb.map fun p => { p with va := 131072, ipa := 131072, pa := 131072 } }

def isOk {ε α : Type} : Except ε α → Bool | .ok _ => true | .error _ => false

/-- The virtual address of MST's ack record, as its row gives it. -/
def ackAt (s : State) : Nat := dword (toBytes 512 (((s.me.tile? 5#8).getD {}).rowAt (s.mstRow 7#5))) 9 / 64 % 2 ^ 50 * 64

theorem witness_MusterInstructions :
    let same (s : State) : Bool := s.judging s.me.die s.me.vd 0 == s && !s.groupAway s.me.die s.me.vd 0 && !s.sourceAway s.me.die s.me.vd 0 0
    meets (member .ctl) (.mjoin 1#5 2#5 3#5) none (fun s => same s && isOk (s.checkMember s.me.die s.me.vd 0 0)) = true ∧
    meets (member .ctl) (.mclose 1#5 2#5 3#5) none (fun s => same s && isOk (s.checkMember s.me.die s.me.vd 0 0)) = true ∧
    meets (mapped (here .ctl)) (.mjoin 1#5 2#5 3#5) none (fun s => same s && !isOk (s.checkMember s.me.die s.me.vd 0 0)) = true ∧
    meets (member .lda) (.mctb 4#5 5#5 6#5) (some .fb) (fun s => same s && isOk (s.checkMember s.me.die s.me.vd 0 0) &&
      match s.translate (.task 1 .lda) 1 (s.reg 4#5).toNat 4 .read with | .ok ps _ => ps.all (·.ord != .so) | _ => false) = true ∧
    meets (member .lda) (.mldr (.qa 0#2) 4#5 5#5 6#5 true) (some .fb) (fun s => same s && isOk (s.checkMember s.me.die s.me.vd 0 0) &&
      decide ((s.me.queue (.qa 0#2)).length < 16) &&
      match s.translate (.task 1 .lda) 1 (s.reg 4#5).toNat 2 .read with | .ok ps _ => ps.all (·.ord != .so) | _ => false) = true ∧
    [(0, false), (1, true)].all (fun k => meets ((member .sta).modTask 1 fun t => t.modEng .sta fun x => x.put 7#5 (BitVec.ofNat 64 k.1))
      (.mst 0#2 5#5 6#5 5#8 7#5) (some .fb) fun s => (s.me.tile? 5#8).any (fun x => decide (s.mstRow 7#5 < x.rows) &&
        (leNat ((toBytes 512 (x.rowAt (s.mstRow 7#5))).take 64) == 0) == k.2) &&
      !(s.accesses.any fun a => a.2.uid = s.cur.uid && a.2.eng == .sta && a.2.atPort) && ackAt s == 131072 &&
      match s.translate (.task 1 .sta) 1 (ackAt s) 128 .write with
      | .ok ps u => ps.all (·.ord != .so) && decide (1 ≤ arrived (u.me.queue (.qs 0#2)))
      | _ => false) = true := by
  and_intros <;> decide +kernel

/-- A task whose active plane holds bf16 weights, with an activation entry in QA0. -/
def multiplying : State :=
  here .exe fun t => { t with plane0 := { fmt := some .bf16, latch := [] }, queues := [(0, [⟨0, some 0#4096⟩])] }

theorem witness_MatrixEngine : okPlane .bf16 = true ∧ meets (here .exe) (.wld .q4o 511#9) none (fun s => wldCheck .q4o s == .ok) = true ∧
    meets multiplying (.mma 7#3 127#7 .bf16 0#2 true) none (fun s => mmaCheck .bf16 0#2 s == .ok) = true ∧
    meets multiplying (.mmat 7#3 127#7 .bf16 0#2 true 3#4 0x7FF#11) none (fun s => mmaCheck .bf16 0#2 s == .ok) = true ∧
    (here .exe).admits (.mzero (.whole 7#3)) none = true ∧
    meets (here .exe) (.mma 7#3 127#7 .bf16 0#2 true) none (fun s => (s.me.plane s.me.activePlane).fmt == none) = true := by
  decide +kernel

/-- Vectors at the ends of their numbers, and an entry in QV0. -/
def va : VSrc := .vec ⟨7#3, .d, 127#7⟩
def vb : VSrc := .bcast 15#4
def vd : VDst := .vec ⟨0#3, .v, 0#7⟩
def vectoring : State := here .exe fun t => { t with queues := [(4, [⟨0, some 0#4096⟩])] }

def elementwise : List Instr :=
  [.vadd vd va vb .f32 .rsr, .vsub vd va (.qv 0#2) .bf16 .rtz, .vmul vd va vb .i8 .rne, .vmin vd va vb .f16, .vmax vd va vb .n32,
    .vshl vd va vb .i16, .vshr vd va vb .n8, .vcmp .un vd va vb .f32, .vabs vd va .i32, .vneg (.qs 3#2) (.qv 0#2) .bf16,
    .vand vd va vb .q4o, .vor vd va vb .mx8, .vxor vd va vb .e4m3, .vnot vd va .sf8, .vmov vd va .mx4, .vexp vd va .f32 .rne,
    .vlog vd va .f32 .rup, .vrcp vd va .bf16 .rne, .vrsq vd va .f16 .rne, .vsqrt vd va .f32 .rdn, .vtanh vd va .f32 .rna,
    .vfma vd va vb va .f32 .rne, .vfms vd va vb va .bf16 .rne, .vfnma vd va vb va .f16 .rsr, .vsel vd va vb va .e5m2]

theorem witness_VectorElements : elementwise.all (fun i => i.typesOk && meets vectoring i none fun s => s.popsReady i) = true ∧
    [Ty.f32, .bf16, .f16].all (·.isWide) = true := by decide +kernel

def converting : List Instr :=
  [.vcvt vd va .bf16 .f32 .rsr, .vqnt ⟨6#3, .h, 0#7⟩ ⟨5#3, .h, 0#7⟩ ⟨6#3, .h, 1#7⟩ 3#4 .q4o .rne, .vdq vd va vb .q4o .rne,
    .vred .sum vd va .f32 .rne, .vscan .max vd va .i8 .rne, .vmaxi vd va .e4m3, .vperm vd va (.qv 0#2), .vlut vd va vb .f32 .rsr,
    .selk 2#3 3#3 1#3 4#4 .f32, .rngv vd .n32, .smpl vd va 2#4, .vpop ⟨3#3, .h, 1#7⟩ 0#2, .vpush 0#2 (.vec ⟨3#3, .h, 1#7⟩),
    .vpush 0#2 (.bcast 15#4)]

theorem witness_VectorConversions :
    converting.all (fun i => meets vectoring i none fun s => s.popsReady i && decide (1 ≤ arrived (s.me.queue (.qv 0#2)))) = true := by
  decide +kernel

theorem witness_VbcstLane : meets vectoring (.vbcst vd (.qv 0#2) 127#7) none (fun s => s.popsReady (.vbcst vd (.qv 0#2) 127#7)) = true ∧
    127 < 128 := by decide +kernel

theorem witness_FrameVectors : 0 < 128 ∧ 127 < 128 ∧ (1#3 : BitVec 3) ≠ 0#3 ∧
    (List.range 128).all (fun i => vecElem ⟨1#3, .h, 5#7⟩ i != (6, 0)) = true := by decide +kernel

theorem witness_VectorFrame :
    [Instr.vmin vd va vb .f16, .vmax vd va vb .n32, .vand vd va vb .q4o, .vor vd va vb .mx8, .vxor vd va vb .e4m3, .vshl vd va vb .i16,
      .vshr vd va vb .n8, .vcmp .un vd va vb .f32, .vperm vd va vb, .vabs vd va .i32, .vneg vd va .f32, .vnot vd va .sf8,
      .vmov vd va .mx4, .vbcst vd va 127#7].all (fun i => isQuietVector i && (here .exe).admits i none) = true ∧
    (here .exe).cur.eng = .exe := by decide +kernel

/-! #### Events -/

/-- Task 1 with its EXE's or CTL's delay line as given. -/
def pending (e : Engine) (l : List Pend) : State := here e fun t => t.modEng e fun x => { x with pend := l }

/-- Two accesses whose bytes have returned, one of a register, one of the first place of QA0 and one of the
second of QW; and a result that lands by
itself. -/
def returned : State :=
  { here .lda fun t => { t.modEng .lda fun x => { x with async := [1#5, 2#5] } with queues := [(0, [⟨9, none⟩]), (8, [⟨0, some 7#4096⟩, ⟨10, none⟩])] } with
    accesses := [(1, { uid := 1, purpose := .load 1#5 .n8, parts := [{ len := 1, bytes := [7#8], stat := .done }] }),
                 (2, { uid := 1, purpose := .result 2#5 7#64 }),
                 (3, { uid := 1, purpose := .atom 1#5 .add 8 0#64 0#64, parts := [{ len := 8, bytes := leBytes 8 7, stat := .done }] }),
                 (9, { uid := 1, purpose := .entry 0 9, parts := [{ len := 512, bytes := leBytes 512 7, stat := .done }] }),
                 (10, { uid := 1, purpose := .entry 8 10, parts := [{ len := 512, bytes := leBytes 512 7, stat := .done }] })] }

/-- Whether an access may land. -/
def landable (s : State) (a : Access) (d : Bool) : Bool :=
  (NMap.find? s.tasks a.uid).isSome && a.handler == (s.task a.uid).trBusy && (!d || a.parts.all (·.stat == .done))

theorem witness_Landings :
    ((pending .ctl [{ rem := 0, slot := .x, dest := .reg 31#5, data := 7#4096, flags := 1#9 }]).task 1).ctl.pend.length = 1 ∧
    ((pending .exe [{ rem := 0, slot := .m, dest := .vec ⟨7#3, .h, 127#7⟩, mat := some {} }]).task 1).exe.pend =
      [{ rem := 0, slot := .m, dest := .vec ⟨7#3, .h, 127#7⟩, mat := some {} }] ∧
    (((pending .exe [{ rem := 0, dest := .plane }]).task 1).exe.pend.find? fun p => decide (p.rem = 0 ∧ p.dest = .plane)).isSome = true ∧
    (NMap.find? returned.accesses 1).any (landable returned · true) = true ∧
    (NMap.find? returned.accesses 2).any (landable returned · false) = true ∧
    (NMap.find? returned.accesses 3).any (landable returned · true) = true ∧
    [9, 10].all (fun k => (NMap.find? returned.accesses k).any fun a => landable returned a true && !a.parts.isEmpty) = true ∧ Queue.code .qw = 8 ∧
    (returned.task 1).place = .active ∧ earlierFilled ((returned.task 1).placesOf 0 9) 9 = true ∧
    earlierFilled ((returned.task 1).placesOf 8 10) 10 = true ∧
    ((returned.task 1).front .qw).isSome = true ∧ (returned.task 1).latches (returned.task 1).fillCur = false ∧
    [returned, pending .ctl [], pending .exe []].all (fun s => !s.frozen 1) = true ∧
    ({ returned with cores := [(0, { freeze := true })] } : State).frozen 1 = true := by decide +kernel

/-- A load and an atomic at 65592, the end of a line, that are ready, and two atomics at the top of host memory, of which the second
has read. -/
def homing : State :=
  let top (old : Option (Nat × List Byte)) : Part := { pa := 2 ^ 50 + 2 ^ 46 - 8, va := 65592, len := 8, write := true, old }
  { here .sta with
    accesses := [(1, { uid := 1, purpose := .load 1#5 .n8, parts := [{ pa := 65592, va := 65592, len := 8 }] }),
                 (2, { uid := 1, purpose := .atom 1#5 .add 8 1#64 0#64, parts := [{ pa := 65592, va := 65592, len := 8, write := true }] }),
                 (3, { uid := 1, purpose := .atom 1#5 .add 8 1#64 0#64, parts := [top none] }),
                 (4, { uid := 1, purpose := .atom 1#5 .add 8 1#64 0#64, parts := [top (some (7, leBytes 8 8))] })]
    bad := [(1025, Cause.mcHbm)] }

/-- A bell whose window is over, a poisoned subtree in the part of memory that VD 0's frames cover, and one damaged line. -/
def worn : State :=
  { mapped { here .ctl with dies := [(0, { service := .full, clk := 1000#64 })] } with
    bells := [(4095, { state := .pending, count := 3 })], poison := [(2048, 64)] }

theorem witness_HomeReads :
    (NMap.find? homing.accesses 1).any (fun a => a.parts[0]?.any fun p => !p.write && !homing.isPeer a.die p.pa && homing.mayPerform a p) = true ∧
    homing.tagOpen { vd := some 0 } 65592 = true ∧ homing.tagOpen { vd := some 0 } 65600 = true ∧ homing.views = [] ∧ 65592 % 64 + 8 ≤ 64 ∧ homing.unreadable (some 0) 65592 = false ∧
    homing.unreadable (some 0) 65600 = true ∧ isHostPa 65600 = false ∧ homing.vdOpen (homing.tagAt 1 65592) = false ∧
    [(2, false, none), (3, true, none), (4, true, some (7, leBytes 8 8))].all (fun (x : Nat × Bool × Option (Nat × List Byte)) =>
      (NMap.find? homing.accesses x.1).any fun a => a.parts[0]?.any fun p =>
        !homing.isPeer a.die p.pa && homing.mayPerform a p && isHostPa p.pa == x.2.1 && p.old == x.2.2) = true ∧
    Memory.wf homing.mem = true ∧ (leBytes 8 8).length = 8 := by
  refine ⟨?_, ?_, ?_, rfl, ?_, ?_, ?_, ?_, ?_, ?_, ?_, ?_⟩ <;> decide +kernel

theorem witness_WindowsAndRebuilds :
    (worn.bell 4095).watching = true ∧ (worn.bell 4095).winStart + 1000 ≤ (worn.die (4095 / 4096)).clk.toNat ∧
    worn.poison.contains (2048, 64) = true ∧ Memory.wf worn.mem = true := by
  and_intros <;> decide +kernel

/-- Copies: one of two units from memory; a gather that has no index, one that has, and one that has read; one from tile H5 into the
weight buffer; one whose only unit is alone in its entry and has read; and two that are done, one with an event at 65536. -/
def moving : State :=
  { tiled .lda false with
    dies := [(0, { service := .full, llt := [{ va := 65536, ipa := 65536, pa := 65536, u := true, w := true, r := true }] })]
    copies := [(1, { uid := 1, src := .mem 65536, dst := .mem 131008, bytes := 64, counts := [2] }),
               (2, { uid := 1, src := .mem 65536, dst := .mem 131008, bytes := 64, n := 1, kind := .gather 4 65600 }),
               (3, { uid := 1, src := .mem 65536, dst := .mem 131008, bytes := 64, n := 1, kind := .gather 4 65600, index := [(0, 3)] }),
               (4, { uid := 1, src := .mem 65536, dst := .mem 131008, bytes := 64, n := 1, kind := .gather 4 65600, index := [(0, 3)]
                     staged := [(7, leBytes 8 5)] }),
               (5, { uid := 1, src := .tile 5 0, dst := .wbuf 0, bytes := 512, counts := [1] }),
               (6, { uid := 1, src := .mem 65536, dst := .wbuf 511, bytes := 8, counts := [1], staged := [(0, leBytes 8 5)] }),
               (7, { uid := 1, n := 0, kind := .gather 4 65600 }), (8, { uid := 1, n := 0, kind := .gather 4 65600, event := 65536 })] }

/-- A unit of a copy that is not done, of which a condition holds. -/
def openUnit (k u : Nat) (f : Copy → Bool) : Bool :=
  (NMap.find? moving.copies k).any fun c => decide (u < c.units) && !c.done.contains u && (moving.die (moving.task c.uid).die).inService && f c

theorem witness_CopyEvents :
    openUnit 2 7 (fun c => (c.needs 7).any fun j => (NMap.find? c.index j).isNone) = true ∧
    openUnit 1 15 (fun c => (c.needs 15).isNone && (NMap.find? c.staged 15).isNone) = true ∧
    [(3, false), (4, true)].all (fun p => openUnit p.1 7 fun c =>
      ((c.needs 7).any fun j => (NMap.find? c.index j).isSome) && (NMap.find? c.staged 7).isSome == p.2) = true ∧
    moving.frozen 1 = false ∧ (moving.task 1).latches 511 = false ∧
    openUnit 5 31 (fun c => (NMap.find? c.staged 31).isNone &&
      c.move (moving.task 1) 31 == { src := some (.tile 5 3 56), dst := some (.wbuf 0 248) }) = true ∧
    openUnit 6 0 (fun c => c.kind == .nest && c.lineReady (moving.task 1) [0] && (NMap.find? c.staged 0).isSome && c.lineUnits (moving.task 1) (.wbuf 511 0) == [0] &&
      c.move (moving.task 1) 0 == { src := some (.mem 65536), dst := some (.wbuf 511 0) }) = true ∧
    [(7, 0), (8, 65536)].all (fun p => (NMap.find? moving.copies p.1).any fun c => decide (c.units ≤ c.done.length) && c.event == p.2 &&
      !c.stopped eventLine) = true ∧
    (NMap.find? moving.copies 8).any (fun c =>
      match moving.copyTranslate 8 eventLine c c.event .write with
      | .ok [q] u => u.routed (u.task c.uid).die q.pa && !u.copyFollows c true q.pa 8 q.ord
      | _ => false) = true := by
  and_intros <;> decide +kernel

/-! #### Translation -/

/-- VD 0's space has a record at 0xC0000, whose tables map all of it and whose ring at 0xE0000 lists one frame. -/
def spaced (e : Engine) (f : Task → Task := id) : State :=
  (((((mapped (here e fun t => f { t with s1root := 0xC0000#64 })).poke 0xC0000 (leBytes 8 0x140001)).poke 0xC0008
    (leBytes 8 0xE0000 ++ leBytes 8 8 ++ leBytes 8 1)).poke 0x140000 (leBytes 8 0x180003)).poke 0x180000 (leBytes 8 125)).poke 0xE0000
    (leBytes 8 0x200000)

/-- A BELLSET of the line at 65536 with the descriptor at 0x30000, on its way to the end of its die's array. -/
def arming : State :=
  { ((spaced .ctl).modVd 0 fun v => { v with cfg := (0x14, 0x10#8) :: v.cfg }).poke 0x30000 (leBytes 8 65540) with
    accesses := [(1, { uid := 1, eng := .ctl, cls := some .bl, purpose := .arm 31#5 65536#64 64#64 0x30000#64 0xC0000#64 0#16 0#64 })] }

theorem witness_BellsArmed : (NMap.find? arming.accesses 1).any (fun x =>
    !arming.armAway x 65536#64 64#64 0x30000#64 0xC0000#64 0#16 && decide ((arming.bellset x 65536#64 64#64 0x30000#64 0xC0000#64 0#16 0#64).1.toNat < 2 ^ 63)) = true := by
  decide +kernel

/-- A walk that has not read, one that has the leaf of stage 1, two that have found a translation, of which a shoot-down meets the
second, and one that waits to start. -/
def walking : State :=
  let e : TlbEntry := { va := 131072, ipa := 131072, pa := 131072 }
  let w : Walk := { by' := .task 1 .lda, uid := 1, va := 131072, num := 1, root := 0xC0000 }
  let u := (spaced .lda).modDie 0 fun d => { d with shootNum := 1, shootLog := [{ num := 1, kind := 0, addr := 196608 }] }
  { u with walks := [(7, w), (8, { w with result := some (.stage1 { addr := 0, shift := 28, r := true }) }),
                     (9, { w with result := some (.filled e) }), (10, { w with num := 0, result := some (.filled { e with va := 196608 }) }),
                     (11, { w with tries := 4, waiting := true })] }

def first : Walk := walking.walks.getD 7 {}
def second : Walk := walking.walks.getD 8 {}

/-- Whether stage 1 gives a leaf, and routes lead to what is read. -/
def leads (x : WalkOut Space × State) (w : Walk) : Bool :=
  match x.1.out with
  | .ok sp =>
    let r := x.2.walkStage1 w.vdk w.va w.access sp
    (match r.out with | .ok (.leaf _) => true | _ => false) && !x.2.away w (x.1.reads ++ r.reads)
  | .error _ => false

theorem leads_fresh (s : State) (w : Walk) (h : (s.draw.2.die w.die).spaceCopy w.vdk w.root w.asid = none)
    (g : (match s.draw.2.spaceAt w.vdk w.root w.va with
      | ⟨.ok sp, l⟩ =>
        let mine (c : SpaceCopy) : Bool := c.vd = w.vdk && c.root = w.root && c.asid = w.asid
        leads (⟨.ok sp, l⟩, s.draw.2.modDie w.die fun d =>
          { d with spaces := { vd := w.vdk, root := w.root, asid := w.asid, space := sp } :: d.spaces.filter fun c => !mine c }) w
      | _ => false) = true) : leads (s.spaceFor w) w = true := by
  simp only [State.spaceFor, h, ite_self]
  cases e : s.draw.2.spaceAt w.vdk w.root w.va with
  | mk out reads => cases out <;> simp_all

theorem witness_TranslationEvents :
    [(7, false), (8, false), (9, false), (10, false), (11, true)].all (fun (p : Nat × Bool) => (NMap.find? walking.walks p.1).any fun w =>
      !w.failed && w.waiting == p.2) = true ∧
    first.result = none ∧ first.va < 2 ^ 56 ∧ leads (walking.spaceFor first) first = true ∧
    (match second.result with
      | some (.stage1 l) => let r := walking.walkStage2 second.vdk second.asid second.va second.access l
                            isOk r.out && !walking.away second r.reads
      | _ => false) = true ∧
    [(9, false), (10, true)].all (fun p => (NMap.find? walking.walks p.1).any fun w =>
      match w.result, w.by' with
      | some (.filled e), .task _ _ => (walking.die w.die).discards w.num (·.matches e) == p.2
      | _, _ => false) = true ∧
    walking.tlbiOn 0 = false ∧ ({ walking with tlbis := [(1, { dies := [0] })] } : State).tlbiOn 0 = true ∧
    ((walking.die 0).frames.getD (vdKey (walking.moduleOf 0) 0) []).length < 8 ∧
    (List.find? (fun t : Nat × Task => t.2.die = 0 && t.2.vdKey = vdKey (walking.moduleOf 0) 0 &&
      walking.ringReady (vdKey (walking.moduleOf 0) 0) t.2.s1root.toNat) walking.tasks).any (fun t =>
        !walking.ringFar 0 (vdKey (walking.moduleOf 0) 0) t.2.s1root.toNat) = true ∧
    0x10000 < 2 ^ 52 ∧ (walking.slot2 0 0x10000 3 (root2 (walking.vd (vdKey 0 0)).s2root)).2.isSome = true := by
  refine ⟨?_, ?_, ?_, leads_fresh _ _ ?_ ?_, ?_, ?_, ?_, ?_, ?_, ?_, ?_, ?_⟩ <;> decide +kernel

/-! #### Scheduling -/

/-- Two tasks in standby and one parked, of which the first is ready the longest. -/
def queued : State :=
  { here .ctl with
    tasks := [(1, { tid := 1#32, place := .standby, core := some 0, prio := 9#6 }), (2, { tid := 2#32, place := .standby, core := some 1 }),
              (3, { tid := 3#32, place := .parked, inFrame := true, frameAt := 196608, dest := some 2 })]
    dies := [(0, { service := .full, clk := 0xFFFFFFFF#64, decide := [0, 35], windowDue := true, parkFree := [(0, [65536, 131072])] })] }

theorem witness_RankingIsAnOrder : queued.before (queued.task 1) (queued.task 2) = true ∧ queued.before (queued.task 2) (queued.task 3) = true ∧
    (queued.task 1).tid ≠ (queued.task 2).tid := by decide +kernel

theorem witness_GangRules : ({} : Gang).grazed = false ∧ ({ grazed := true } : Gang).grazed = true ∧
    ({ boost := 16, graze := 1983 } : Gang).graze + 16 < 2000 ∧ 2000 ≤ ({ boost := 16, graze := 1984 } : Gang).graze + 16 ∧
    (queued.die 0).windowDue = true ∧
    (let s : State := { dies := [(0, { usDue := true })] }
     (s.die 0).usDue = true ∧ (s.die 0).windowDue = false ∧ s.accesses = [] ∧ ∀ p, p ∈ s.tasks → p.2.die ≠ 0) :=
  ⟨rfl, rfl, by decide, by decide, by decide +kernel, by decide +kernel, by decide +kernel, rfl, by simp⟩

/-- A task whose STA is asked to stop at a word that its stop table lists, at 0x11000; f changes its sequencers. -/
def stopping (f : Eng → Eng := id) : State :=
  ((spaced .sta fun t => { t.mapEngs fun x => f { x with stop := .asked 4096 } with stops := 0x11000#64, stopSpace := (t.s1root, t.asid) }).poke 0x11000
    (leBytes 8 (0x53544F50 + 2 ^ 32))).poke 0x11010 (leBytes 8 (65540 + 3) ++ leBytes 8 0xFFFFFFFFFF800000)

/-- A core that is to switch from task 1, which has stopped, to task 2; and one whose active slot is empty. -/
def switching : State :=
  let t := (here .ctl).task 1
  { here .ctl with
    tasks := [(1, { t.mapEngs fun x => { x with stop := .stopped } with core := some 0 }),
              (2, { tid := 2#32, place := .standby, core := some 0 }), (3, { tid := 3#32, place := .standby, core := some 143 })]
    cores := [(0, { plan := some ⟨some 1, some 2, false⟩ }), (143, { plan := some ⟨none, some 3, false⟩ })] }

/-- One that has stopped at a point with a mask, and one whose EXE stands before a bundle of SELK. -/
def pointed : State := stopping fun x => { x with stop := .point ⟨0, 0, 0⟩ }
def ranking (n : Nat) : State :=
  stopping fun x => { x with stop := .asked n, run := .running, pc := 65540#64
                             line := some (lineOf' .exe + BitVec.ofNat 512 (0xEF400200 * 2 ^ 32 + 0xB001C200 * 2 ^ 64)) }

/-- An STA that was asked to stop while it waited for a token of k4, and waits still. -/
def waittLine : Line := BitVec.ofNat 512 (0xA3801000 * 2 ^ 32 + 0xFF000000)
def stalls : State := here .sta fun t => t.modEng .sta fun x => { x with stop := .asked 0, waits := true, line := some waittLine }

theorem witness_Switching :
    [0, 35].all (fun q => (queued.die 0).decide.contains q && (queued.gangsOf 0 q).all fun g => !queued.gangAway g.1 0 g.2) = true ∧ (queued.die 0).inService = true ∧
    ((stopping.task 1).eng .sta).stop = .asked 4096 ∧ (stopping.task 1).place = .active ∧ (stopping.task 1).trBusy = false ∧
    (match (stopping.listed 1 .sta).1 with | .found _ => true | _ => false) = true ∧ (pointed.task 1).place = .active ∧ pointed.arithDue 1 = false ∧
    [Engine.sta, .exe].all (fun e => match ((pointed.task 1).eng e).stop with | .point _ => true | _ => false) = true ∧
    (let s := stopping fun x => { x with stop := .asked 1, stall := some false }
     (s.task 1).place = .active ∧ ((s.task 1).eng .lda).stop = .asked 1 ∧ ((s.task 1).eng .lda).stall.isSome = true) ∧
    [0, 1].all (fun n => ((ranking n).task 1).exe.stop == .asked n && ((ranking n).task 1).exe.stall.isNone &&
      !((ranking n).task 1).trBusy && ((ranking n).task 1).place == .active && ((ranking n).unitStop 1).isSome) = true ∧
    (((stalls.task 1).eng .sta).stop = .asked 0 ∧ ((stalls.task 1).eng .sta).waits = true ∧ (stalls.task 1).trBusy = false ∧
      (match stalls.proceed .sta waittLine with | .next u => u.cur.status == .stalled true | _ => false) = true) ∧
    (let s := stopping fun x => { x with stop := .none }
     ((s.task 1).eng .sta).stop = .none ∧ ((s.task 1).eng .sta).run = .running ∧ ((s.task 1).eng .exe).run = .idle) ∧
    [(143, 3), (0, 2)].all (fun p => ((switching.core p.1).plan.bind (·.inn)) == some p.2 && !(switching.core p.1).freeze &&
      (switching.task p.2).place == .standby && (switching.task p.2).core == some p.1 && (switching.task p.2).dest != some p.1 &&
      !(switching.task p.2).parkAfter) = true ∧
    switching.activeOf 143 = none ∧ switching.activeOf 0 = some 1 ∧ (switching.core 0).plan = some ⟨some 1, some 2, false⟩ ∧
    (switching.task 1).place = .active ∧ (switching.task 1).allStopped = true ∧ (switching.task 1).dying = false := by
  and_intros <;> decide +kernel

/-- A task in standby that is to be parked, a held one that waits for a frame, and a parked one on its way to core 2. -/
def parking : State :=
  { queued with
    tasks := queued.tasks.map fun p =>
      (p.1, if p.1 = 1 then { p.2 with parkAfter := true } else if p.1 = 2 then { p.2 with place := .held } else p.2) }

theorem witness_Parking :
    (parking.task 1).parkAfter = true ∧ (parking.task 1).place = .standby ∧ (parking.task 2).place = .held ∧
    [1, 2].all (fun u => !(parking.task u).inFrame && !parking.frozen u && !parking.tileCopies u && parking.frameFree (parking.task u) &&
      !(parking.task u).rehome) = true ∧
    (parking.task 3).place = .parked ∧ (parking.task 3).dest = some 2 ∧ (parking.core 2).plan = none ∧ (parking.core 2).freeze = false ∧
    parking.standbyOf 2 = none ∧ parking.fits (parking.task 3) 2 = true ∧ (parking.task 3).landing = [] ∧
    [1, 2, 3].all (fun u => !(parking.task u).dying) = true ∧ 2 ≤ ((parking.die 0).freeFrames 0).length ∧
    ({ queued with vds := [(0, { state := .stopped })] } : State).vdRuns 0 = false ∧ [1, 3].all (fun u => (queued.task u).vdKey = 0 && (queued.task u).ready) = true ∧ queued.vdRuns 0 = true ∧
    (let s := parking.modTask 3 fun t => { t with dying := true }
     (s.task 3).place = .parked ∧ (s.task 3).dying = true) ∧
    [1, 3].all (fun u => (queued.task u).ready && decide ((queued.task u).readySince + 64 * queued.quantum (queued.task u).vdKey ≤
      queued.now (queued.task u).die)) = true ∧
    parking.moduleOf 0 = 0 ∧ (∀ p, p ∈ parking.tasks → p.2.die = 0 → p.2.vdKey = vdKey 0 0 →
      (0xFFFFFFFFF#36 : BitVec 36).getLsbD p.2.quad = true ∧ p.2.rehome = false) := by
  and_intros <;> decide +kernel

/-- A task all of whose sequencers wait, CTL on something that no other can give. -/
def stuck : State := here .ctl fun t => { t with ctl := { t.ctl with stall := some true }, lda := {}, exe := {}, sta := {} }

/-- A task in a WAITV of r5 against r6 that has polled, and is due. -/
def waiting : State :=
  { here .lda fun t => { t.modEng .lda fun x => ({ x with line := some (waitvLine) }).put 5#5 65536#64 with lastPoll := some 0 } with
    dies := [(0, { service := .full, clk := 0xFFFFFFFF#64 })] }
  where waitvLine : Line := BitVec.ofNat 512 ((encode true (.waitv 0#5 5#5 6#5 .ne true)).headD 0 * 2 ^ 32)

/-- A task in which LDA and STA have raised traps, and one whose EXE has to take an arithmetic trap. -/
def raisedBy (arith : Bool) : State :=
  here .exe fun t =>
    if arith then { t with arPend := true, arSlots := 4097, arSet := 0x1FF#9 }
    else { t with raised := [{ eng := .sta, code := 511 }, { eng := .lda, code := 1 }] }

theorem witness_TrapEvents :
    stuck.deadlocked 1 = true ∧ (stuck.task 1).trBusy = false ∧ pointerOk (stuck.task 1).trVec = true ∧
    (waiting.waitingAt 1).isSome = true ∧ waiting.pollDue (waiting.task 1) = true ∧
    waiting.ldaPolls 1 = true ∧
    (let z := (waiting.lookup 0 0 0 0 65536).2
     (waiting.lookup 0 0 0 0 65536).1.any fun e => (e.refuses true .read).isNone && z.routed 0 (e.phys 65536) &&
       !waitvHolds .ne true (z.poll 1 [{ e.piece 65536 with len := atomBytes true }]).1 ((waiting.task 1).lda.get 6#5)) = true ∧
    ((raisedBy false).task 1).firstRaised = some { eng := .lda, code := 1 } ∧ (raisedBy false).mayTrap 1 = true ∧
    ((raisedBy false).task 1).trBusy = false ∧ pointerOk ((raisedBy false).task 1).trVec = true ∧
    (raisedBy true).mayTrap 1 = true ∧ ((raisedBy true).task 1).traps = false ∧ (raisedBy true).arithDue 1 = true ∧
    ((raisedBy true).task 1).exe.run = .running ∧ ((raisedBy true).task 1).trBusy = false ∧
    pointerOk ((raisedBy true).task 1).trVec = true ∧
    (stuck.core 0).freeze = false ∧ (stuck.die (0 / 144)).inService = true := by
  and_intros <;> decide +kernel

/-! #### The fabric -/

/-- The pod with ports 0 and 1 of every die up. -/
def linked (s : State) : State := { s with dies := (List.range 8).map fun d => (d, { service := .full, clk := 100#64, ports := 3#6 }) }

/-- Packets of every kind at die 0, from different dies, and the accesses they belong to. -/
def remote : State :=
  { linked (here .lda) with
    accesses := [(1, { uid := 1, purpose := .load 1#5 .n8, parts := [{ pa := 65592, va := 65592, len := 8 }] }),
                 (2, { uid := 1, purpose := .store, parts := [{ pa := 65592, va := 65592, len := 8, write := true, bytes := leBytes 8 7 }] }),
                 (4, { uid := 1, purpose := .atom 1#5 .add 8 1#64 0#64, parts := [{ pa := 65592, va := 65592, len := 8, write := true }] }),
                 (5, { uid := 1, purpose := .load 1#5 .n8, parts := [{ pa := 65588, va := 65588, len := 8 }] })]
    packets := [(10, { kind := 0, src := 1, acc := 1 }), (11, { kind := 1, src := 2, acc := 1, body := leBytes 8 7 }),
                (12, { kind := 2, src := 3, acc := 2 }), (13, { kind := 3, src := 4, acc := 2 }), (14, { kind := 4, src := 5, acc := 4 }),
                (15, { kind := 5, src := 6, acc := 4, b := 7#64 }), (16, { kind := 15 }),
                (17, { kind := 0, src := 7, acc := 5 })] }

/-- Requests of atomics at the top of host memory, of which the second has read. -/
def remoteHost : State :=
  let top (old : Option (Nat × List Byte)) : Part := { pa := 2 ^ 50 + 2 ^ 46 - 8, va := 65592, len := 8, write := true, old }
  { linked (here .lda) with
    accesses := [(6, { uid := 1, purpose := .atom 1#5 .add 8 1#64 0#64, parts := [top none] }),
                 (7, { uid := 1, purpose := .atom 1#5 .add 8 1#64 0#64, parts := [top (some (7, leBytes 8 8))] })]
    packets := [(18, { kind := 4, src := 1, acc := 6 }), (19, { kind := 4, src := 2, acc := 7 })] }

/-- The same with no packet but one. -/
def only (k : Nat) (s : State) : State := { s with packets := s.packets.filter fun p => p.1 = k }

/-- Whether a packet of a kind, alone in the fabric, may have its effect at its destination, and a condition holds of it and of the
state then. -/
def deliverable (s : State) (k kind : Nat) (cond : Packet → State → Bool) : Bool :=
  let s := only k s
  (s.packet k kind).any fun p => !s.behind k p && s.mayApply p &&
    (s.route (vcOf kind) p.at' p.dst).any fun l => cond p ((s.dropPacket k).crossed l)

/-- How many doublewords of a part a read request has still to perform. -/
def restOf (p : Packet) (q : Part) : Nat :=
  ((List.range (cutPiece 8 (q.len + 1) { va := q.va, pa := q.pa, len := q.len }).length).filter fun i => !p.served.contains i).length

/-- A store to die 1 that is ready to leave. -/
def leaving : State :=
  { remote with
    accesses := [(8, { uid := 1, purpose := .store, parts := [{ pa := 2 ^ 38 + 65592, va := 65592, len := 8, write := true, bytes := leBytes 8 7 }] })] }

theorem witness_RemoteAccesses :
    (NMap.find? leaving.accesses 8).any (fun a => a.purpose == .store && a.parts[0]?.any fun p =>
      leaving.isPeer a.die p.pa && p.stat == .ready && !leaving.onItsWay 8 0) = true ∧
    (remote.die 0).portUp 1 = true ∧ (remote.die 0).fails.getD 1 0 + 1 < 16 ∧
    (let s := remote.modDie 0 fun d => { d with fails := [(1, 15)] }
     (s.die 0).portUp 1 = true ∧ 16 ≤ (s.die 0).fails.getD 1 0 + 1) ∧
    (remote.die 0).inService = true ∧ (remote.die (remote.neighbour 0 5)).inService = true ∧
    (NMap.find? remote.packets 16).any (·.malformed) = true ∧
    [(10, 1), (17, 2)].all (fun (k : Nat × Nat) => deliverable remote k.1 0 fun p s => (s.partOf p).any fun x => restOf p x.2 == k.2) = true ∧
    [(12, 2), (14, 4)].all (fun k => deliverable remote k.1 k.2 fun p s => (s.partOf p).any fun x => x.2.pa == 65592) = true ∧
    [(11, 1), (13, 3), (15, 5)].all (fun k => deliverable remote k.1 k.2 fun _ _ => true) = true ∧
    ((remote.partOf { kind := 4, acc := 4 }).any fun x => match x.1.purpose with | .atom .. => true | _ => false) = true ∧
    [(18, none), (19, some (7, leBytes 8 8))].all (fun (k : Nat × Option (Nat × List Byte)) => deliverable remoteHost k.1 4 fun p s => (s.partOf p).any fun x =>
      isHostPa x.2.pa && x.2.old == k.2) = true := by
  and_intros <;> decide +kernel

theorem witness_MayServe : remote.mayServe 0 5 = true := by
  rw [State.mayServe, show (remote.moduleOf (remote.neighbour 0 5) == remote.moduleOf 0) = true by decide +kernel, Bool.or_true]

/-- A contribution whose reads have returned. -/
def contributing : Access :=
  { uid := 1, purpose := .contribute 0 0 0 true 1 none false, parts := [{ len := 2, bytes := leBytes 2 7, stat := .done }] }

/-- Packets of a group at its root, a contribution whose reads have returned, a combine slot and a round. -/
def groupTraffic : State :=
  { linked (grouped (here .lda)) with
    accesses := [(1, contributing)]
    packets := [(20, { kind := 6, hops := hopSplit, src := 1, a := 0x1000#64 }),
                (21, { kind := 6, hops := hopSplit, src := 2 }), (22, { kind := 9, hops := hopSplit, src := 1 }),
                (23, { kind := 9, hops := hopSplit, src := 2, phase := 1 }), (24, { kind := 9, hops := hopSplit, src := 3, phase := 2 }),
                (25, { kind := 7, src := 1, at' := 1, port := 1, links := [5] }), (26, { kind := 7, src := 2, at' := 1, port := 1, links := [6] }),
                (27, { kind := 8, src := 1, hops := [1#8] }), (28, { kind := 8, src := 2, hops := [0x40#8] }),
                (29, { kind := 8, src := 3, hops := [0x80#8] }), (30, { kind := 14, src := 1, a := 0x1000#64 }),
                (31, { kind := 14, src := 2, a := 5#64 }), (32, { kind := 6, port := 7, src := 3 }),
                (33, { kind := 9, hops := hopSplit, src := 4, a := 0x1000#64 }), (34, { kind := 7, port := 7, links := [5] }),
                (35, { kind := 8, src := 4, hops := [2#8] }), (36, { kind := 8, src := 5, hops := [1#8], phase := 1 })]
    splits := [(5, { owed := [0], pkt := {} }), (6, { owed := [0, 6], pkt := {} })]
    combines := [(9, { mask := 3, opened := 0 })]
    rounds := [(roundKey 0 0 0, { openTag := 0xFFFE#16 })] }

/-- Whether a packet that hop lists or split records lead stands where it may have its effect, and a condition holds. -/
def atRouter (s : State) (k kind : Nat) (cond : Packet → State → Bool) : Bool :=
  let s := only k s
  (s.packet k kind).any fun p => !s.behind k p && s.mayApply p && !p.malformed && cond p ((s.dropPacket k).judging p.at' p.vd p.a.toNat)

/-- A delivery of a store of one line to member 1, whose receive area is 128 bytes at 0xB0000: alone, or too long for it. -/
def delivery (off : Nat) (tasks : List Nat := []) : Packet :=
  { kind := 6, port := 7, src := 1, str := 1, b := BitVec.ofNat 64 off, body := leBytes 64 7, links := 5 :: 0xA0400 :: tasks }
def areas (f : Task → Task := id) : State := grouped (here .sta f) |>.poke 0xA0418 (leBytes 8 0xB0000 ++ leBytes 8 128)

/-- That task parked, with n entries in its landing buffer. -/
def parkedArea (n : Nat) : State := areas fun t => { t with place := .parked, landing := List.replicate n (.entry 0 0 0#4096) }

/-- Whether the block of its member can be read, with a condition on its receive area and the lines it would write. -/
def deliversTo (s : State) (p : Packet) (cond : Nat → Option (List (Nat × PageOrd)) → State → Bool) : Bool :=
  let vdk := vdKey (s.moduleOf p.at') p.vd
  match s.deviceLoad { vd := some vdk, die := p.at', acc := .read } vdk (p.links.getD 1 0 + 24) 16 with
  | .ok (bs, u) => cond (receiveArea bs).2
      (match s.lineSpots vdk p.at' ((receiveArea bs).1 + p.b.toNat) p.body.length with | .ok l => some l | .error _ => none) u
  | .error _ => false

theorem witness_SplitsAndContributions :
    atRouter groupTraffic 20 6 (fun p s => s.groupNow p.at' p.vd p.a.toNat == none) = true ∧
    atRouter groupTraffic 21 6 (fun p s => s.groupNow p.at' p.vd p.a.toNat != none) = true ∧
    ((groupTraffic.packet 32 6).any fun p => p.port == 7) = true ∧
    [20, 21].all (fun k => (groupTraffic.packet k 6).any fun p => p.port != 7 && !(only k groupTraffic).storeWaits p) = true ∧
    [22, 23, 24, 33].all (fun k => (groupTraffic.packet k 9).any fun p => !groupTraffic.nearAway p.at' p.vd p.a.toNat p.str) = true ∧
    atRouter groupTraffic 33 9 (fun p s => p.phase == 0 && s.groupNow p.at' p.vd p.a.toNat == none) = true ∧
    [(22, 0), (23, 1), (24, 2)].all (fun k => atRouter groupTraffic k.1 9 fun p s =>
      s.groupNow p.at' p.vd p.a.toNat != none && p.phase == k.2) = true ∧
    deliversTo areas (delivery 64) (fun len l _ => len == 128 && l.isSome && !areas.deliveredBefore 1 (delivery 64) &&
      (areas.holder 0 0 0xA0400 []).isNone) = true ∧
    [(0, true), (128, false)].all (fun n => deliversTo (parkedArea n.1) (delivery 64 [1]) fun len l u => len == 128 && l.isSome &&
      !(parkedArea n.1).deliveredBefore 1 (delivery 64 [1]) && (parkedArea n.1).holder 0 0 0xA0400 [1] == some 1 &&
        (u.intoLanding 1 (.write 0xA0400 64 (leBytes 64 7) (1, 0) { split := 5, member := 1, acc := 0 })).1 == n.2) = true ∧
    (delivery 64).body.length = 64 ∧ deliversTo areas (delivery 128) (fun len _ _ => decide (len < 128 + 64)) = true ∧
    [(64, true), (128, false)].all (fun x => (areas.memberSpots 0 0 0xA0400 x.1 64).1.isSome == x.2) = true ∧
    ((groupTraffic.packet 34 7).any fun p => p.port == 7) = true ∧
    [(25, true), (26, false)].all (fun k =>
      let s := only k.1 groupTraffic
      (s.packet k.1 7).any fun p => p.port != 7 && s.linkUp p.at' p.port && !s.behind k.1 p &&
      let d := s.neighbour p.at' p.port
      let u := ((s.dropPacket k.1).crossed [(p.at', p.port)]).judging d p.vd p.a.toNat
      !s.groupAway d p.vd (gwId p.a.toNat) &&
      (u.groupNow d p.vd p.a.toNat).isSome &&
        (NMap.find? u.splits (p.links.headD 0)).any fun r => (r.owed.erase (opposite p.port)).isEmpty == k.2) = true ∧
    [none, some (0, 1)].all (fun (q : Option (Nat × Nat)) => [0, 0x1000].all fun w =>
      let s := { groupTraffic with accesses := [(1, { contributing with purpose := .contribute w (w / 2048) 0 true 1 q false })] }
      let v := s.judging 0 0 w
      (NMap.find? s.accesses 1).any (fun a => a.parts.all (·.stat == .done) && !s.sourceAway a.die (a.vdk % 256) w 0) && (NMap.find? v.accesses 1).any fun x =>
        if w = 0 then x.purpose == .contribute w 0 0 true 1 q false && isOk (v.checkMember 0 0 w 0)
        else q.isNone || x.purpose == .entry 0 1) = true ∧
    [(27, 0, true), (35, 0, false), (28, 1, false), (29, 2, false)].all (fun (k : Nat × Nat × Bool) =>
      let s := only k.1 groupTraffic
      (s.packet k.1 8).any fun p => !s.behind k.1 p && !p.malformed && p.phase != 1 && !s.groupAway p.at' p.vd (gwId p.a.toNat) &&
        hopOp p.hop == k.2.1 &&
        let v := s.judging p.at' p.vd p.a.toNat
        (v.groupNow p.at' p.vd p.a.toNat).isSome &&
          (k.2.1 != 0 || v.linkUp p.at' (hopPort p.hop) == k.2.2 && !v.behind k.1 { p with phase := 1 })) = true ∧
    (let s := only 36 groupTraffic
     (s.packet 36 8).any fun p => !s.behind 36 p && !p.malformed && p.phase == 1 && s.linkUp p.at' (hopPort p.hop)) = true ∧
    (NMap.find? groupTraffic.combines 9).any (fun c => decide (c.opened + 100 ≤ (groupTraffic.die c.die).clk.toNat)) = true ∧
    [30, 31].all (fun k => (groupTraffic.packet k 14).any fun p => !groupTraffic.groupAway p.dst p.vd (gwId p.a.toNat)) = true ∧
    deliverable groupTraffic 30 14 (fun p s => (NMap.find? (s.groupRecords p.dst p.vd (gwId p.a.toNat)).rounds
      (roundKey p.dst p.vd (gwId p.a.toNat))).any fun r => ((s.groupRecords p.dst p.vd (gwId p.a.toNat)).group p.dst p.vd (gwId p.a.toNat)).any fun g => r.gen == g.gen && r.gen != gwGen p.a.toNat) = true ∧
    deliverable groupTraffic 31 14 (fun p s => (NMap.find? (s.groupRecords p.dst p.vd (gwId p.a.toNat)).rounds (roundKey p.dst p.vd (gwId p.a.toNat))).isNone) = true := by
  and_intros <;> decide +kernel

/-- Joins (b = 0) and closes (b = 1) at the root under a tag, and a word that comes back. -/
def joining (b tag : Nat) (rounds : NMap Round) : State :=
  { linked (grouped (here .ctl)) with
    accesses := [(1, { uid := 1, eng := .ctl, purpose := .reply 3#5 })]
    packets := [(20, { kind := 10, src := 1, a := groupField 0 tag 0, b := BitVec.ofNat 64 b }), (21, { kind := 11, src := 1, acc := 1, b := 7#64 })]
    rounds }

/-- Whether routes lead to the entries that a packet is judged by on its way. -/
def judgedNear (s : State) (p : Packet) (l : List (Nat × Nat)) : Bool :=
  !(p.dst :: (l.drop 1).map (·.1)).any fun d => s.groupAway d p.vd (gwId p.a.toNat)

/-- Whether such a packet is met at the root by a condition. -/
def metAt (s : State) (b : Nat) (cond : Packet → State → Bool) : Bool :=
  (s.packet 20 10).any fun p => p.b.toNat == b && !s.behind 20 p && (s.route 2 p.at' p.dst).any fun l => judgedNear s p l &&
    match (s.dropPacket 20).passes p l with
    | (some _, u) => cond p u
    | (none, _) => false

/-- The open round of the group under tag 0xFFFE. -/
def oneRound : NMap Round := [(roundKey 0 0 0, { openTag := 0xFFFE#16 })]

theorem witness_MusterControl :
    metAt (joining 0 0 oneRound) 0 (fun p u => (u.round p.dst p.vd p.a.toNat).isSome) = true ∧
    metAt (joining 0 0 []) 0 (fun p u => u.round p.dst p.vd p.a.toNat == none && decide
      (((NMap.erase u.rounds (roundKey p.dst p.vd (gwId p.a.toNat))).filter fun r => r.2.die = p.dst).length < 256)) = true ∧
    metAt (joining 1 0 []) 1 (fun p u => u.round p.dst p.vd p.a.toNat == none) = true ∧
    [(0xFFFD, 1), (0xFFF7, 7), (0xFFFE, 0), (5, -7), (6, -8), (0xFFF6, 8)].all (fun (x : Nat × Int) => metAt (joining 1 x.1 oneRound) 1 fun p u =>
      (u.round p.dst p.vd p.a.toNat).any fun r => tagDiff r.openTag.toNat (gwTag p.a.toNat) == x.2) = true ∧
    (let s := joining 0 0 []
     (s.packet 21 11).any fun p => !s.behind 21 p && (s.route 3 p.at' p.dst).any fun l => judgedNear s p l &&
       match (s.dropPacket 21).passes p l with
       | (some _, u) => (NMap.find? u.accesses p.acc).any fun a => a.purpose == .reply 3#5
       | (none, _) => false) = true ∧
    [0, 1].all (fun b =>
      let s := { joining b 0 [] with packets := [(20, { kind := 10, src := 1, a := groupField 5 0 0, b := BitVec.ofNat 64 b })] }
      (s.packet 20 10).any fun p => !s.behind 20 p && ((s.judging 0 p.vd p.a.toNat).groupNow 0 p.vd p.a.toNat).isNone &&
        (s.route 2 p.at' p.dst).any fun l => judgedNear s p l && ((s.dropPacket 20).passes p l).1.isNone) = true := by
  and_intros <;> decide +kernel

/-! #### The host and the firmware

What depends on a constant of the environment (an image's header, park frames, signatures, a message's form) is a hypothesis here. -/

/-- A module whose firmware serves: VD 5 as given, a command for it at the head of the ring, and the host's block of VD 5. -/
def commanding (op : Nat) (args : List Nat) (v : Vd) (x : Module := {}) : State :=
  { (mapped {}) with
    dies := [(0, { service := .full, clk := 0xFFFFFFFF#64 })]
    vds := [(5, v)]
    modules := [(0, { x with cmds := [leBytes 8 0 ++ leBytes 8 op ++ leBytes 8 5 ++ args.flatMap (leBytes 8)] })] }

/-- Whether a command of an op is met, and a condition holds of its VD, its record and the state. -/
def commandMet (s : State) (op : Nat) (cond : Nat → List Byte → State → Bool) : Bool :=
  (s.module 0).cmds.head?.any fun c => s.serving 0 == some true && commandOp c == op && decide (commandVd c ≤ 255) &&
    cond (vdKey 0 (commandVd c)) c s

/-- A state of VD 5 and nothing else. -/
def vdIn (st : VdState) : Vd := { state := st }

/-- A configured VD with a sound block, all of it mapped: one quad of die 0, one task, one park frame. -/
def sound : Vd :=
  { state := .configured, cfg := [(0x09, 0#8), (0x0A, 2#8), (0x10, 1#8), (0x16, 1#8), (0x52, 10#8), (0x54, 1#8)] }

/-- VD 0 runs, and VD 255 does not exist; and the same with VD 0's memory on die 1, to which no link is up. -/
def hosted : State := mapped (here .ctl)
def faraway : State := hosted.poke 0x40000 (leBytes 8 (2 ^ 38 + 125))

theorem witness_HostAccesses :
    hosted.serving 0 = some true ∧ (hosted.vd (vdKey 0 0)).hostOpen = true ∧ (hosted.vd (vdKey 0 255)).hostOpen = false ∧
    [false, true].all (fun w => hosted.hostReaches 0 (vdKey 0 0) 65599 2 w && !faraway.hostReaches 0 (vdKey 0 0) 65599 2 w) = true ∧
    isOk (hosted.deviceStore { vd := some 0, die := hosted.dieOf 0 0, acc := .write, host := true } (vdKey 0 0) 65599 [1#8, 2#8]) = true ∧
    isOk (hosted.deviceLoad { vd := some 0, die := hosted.dieOf 0 0, acc := .read, host := true } (vdKey 0 0) 65599 2) = true ∧
    [true, false].all (fun w => hosted.hostReaches 0 (vdKey 0 0) (2 ^ 40 - 2) 2 w) = true ∧
    isOk (hosted.deviceStore { vd := some 0, die := hosted.dieOf 0 0, acc := .write, host := true } (vdKey 0 0) (2 ^ 40 - 2) [1#8, 2#8]) = false ∧
    isOk (hosted.deviceLoad { vd := some 0, die := hosted.dieOf 0 0, acc := .read, host := true } (vdKey 0 0) (2 ^ 40 - 2) 2) = false ∧
    (let s : State := { hosted with dies := [(0, { service := .fatal })] }
     s.serving 0 = some false) ∧
    (faraway.vd (vdKey 0 0)).hostOpen = true ∧ 2 ^ 40 < 2 ^ 40 - 1 + 2 ∧ HostWin.vd 0#8 ≠ .fw ∧
    0xFFFFF + 1 ≤ 2 ^ 20 ∧ 2 ^ 40 - 2 + 2 ≤ 2 ^ 40 ∧ 512 < (List.replicate 513 0#8).length := by
  and_intros <;> decide +kernel

/-- That state with the VD's stage 2 set, as START's checks see it. -/
def checked : State := (commanding 2 [0] sound).modVd 5 fun v => { v with s2root := BitVec.ofNat 64 (v.field 0x08 8) }

theorem names_none_out (s : State) (k : Nat) (h : s.dies = [(0, { service := .full, clk := 0xFFFFFFFF#64 })]) : s.namesOut k = false := by
  have n (d : Nat) : ((s.die d).service == .out) = false := by
    simp only [State.die, h, NMap.getD, NMap.find?]
    by_cases e : 0 = d <;> simp [e]
  simp [State.namesOut, n]

theorem foldl_keeps {α β γ : Type} (p : α → γ) (f : α → β → α) (h : ∀ a b, p (f a b) = p a) (l : List β) (a : α) :
    p (l.foldl f a) = p a := by
  induction l generalizing a with
  | nil => rfl
  | cons b l ih => rw [List.foldl_cons, ih, h]

theorem zeroBytes_vds (s : State) (k : Option Nat) (pa n : Nat) : (s.zeroBytes k pa n).vds = s.vds := by
  have c (u : State) (a : Nat) : (u.countWrite a).vds = u.vds := by
    have n : (u.countNodes a).vds = u.vds := by
      unfold State.countNodes
      exact foldl_keeps State.vds _ (by intros; rfl) _ _
    unfold State.countWrite
    dsimp only
    split <;> exact n
  have e (u : State) (a : Nat) : (u.seal k a).vds = u.vds := by unfold State.seal; split <;> rfl
  unfold State.zeroBytes
  refine foldl_keeps State.vds _ (fun u i => ?_) _ _
  split
  · rfl
  · rw [e, c]

theorem beginVd_cfg (s : State) (k : Nat) : ((s.beginVd k).vd k).cfg = (s.vd k).cfg := by
  have v {u w : State} (h : u.vds = w.vds) : (u.vd k).cfg = (w.vd k).cfg := by simp only [State.vd, h]
  unfold State.beginVd
  dsimp only
  refine (v (foldl_keeps State.vds _ (by intros; rfl) _ _)).trans ?_
  unfold State.zeroFrames
  refine (v (foldl_keeps State.vds _ (fun _ _ => zeroBytes_vds _ _ _ _) _ _)).trans ?_
  simp [State.modVd, State.vd, NMap.getD, State.drawKeys, State.draw, Laws.find_set_same]

theorem start_ok (s u : State) (k : Nat) (h : s.modVd k (fun v => { v with s2root := BitVec.ofNat 64 (v.field 0x08 8) }) = u)
    (b : (!u.blockOk k || u.namesOut k) = false) (g : u.framesThere k = true) (i : (u.vd k).field 0xF8 4 = 0) :
    (s.startConfigured k 0).1 = 0 := by
  have j : ((u.beginVd k).vd k).field 0xF8 4 = 0 := by
    rw [Vd.field, beginVd_cfg]
    exact i
  simp [State.startConfigured, h, b, g, j, State.hostBytes]

theorem starts (h : ∀ d, 1 ≤ Config.parkSupply d) : ((commanding 2 [0] sound).startConfigured 5 0).1 = 0 := by
  refine start_ok _ checked 5 rfl ?_ ?_ (by decide +kernel)
  · rw [names_none_out checked 5 rfl, show checked.blockOk 5 = true by decide +kernel]; rfl
  · have f : checked.framesHeld (5 / 256) + (checked.vd 5).field 0x54 2 = 1 := by decide +kernel
    simp only [State.framesThere, f, List.all_eq_true, decide_eq_true_eq]
    exact fun d _ => h d

theorem witness_StartConfigured : ∃ c, (commanding 2 [0] sound).commanded 0 2 c ∧ vdKey 0 (commandVd c) = 5 ∧ commandArg c 0 = 0 ∧
    ((commanding 2 [0] sound).vd 5).state = .configured :=
  ⟨_, ⟨rfl, by decide +kernel, by decide +kernel, by decide +kernel⟩, by decide +kernel, by decide +kernel, by decide +kernel⟩

theorem witness_VdCommands :
    commandMet (commanding 1 [] (vdIn .free)) 1 (fun k _ s => (s.vd k).state == .free) = true ∧
    commandMet (commanding 1 [] (vdIn .running)) 1 (fun k _ s => (s.vd k).state != .free) = true ∧
    commandMet (commanding 2 [0] (vdIn .stopped)) 2 (fun k _ s => (s.vd k).state == .stopped) = true ∧
    (commanding 2 [0] (vdIn .stopped)).namesOut 5 = false ∧
    commandMet (commanding 2 [0] (vdIn .free)) 2 (fun k _ s => (s.vd k).state != .configured && (s.vd k).state != .stopped) = true ∧
    commandMet (commanding 3 [] (vdIn .running)) 3 (fun k _ s => (s.vd k).state == .running) = true ∧
    commandMet (commanding 3 [] (vdIn .lost)) 3 (fun k _ s => (s.vd k).state != .running) = true ∧
    [VdState.configured, .stopped, .lost].all (fun st => commandMet (commanding 4 [] (vdIn st)) 4 fun k _ s =>
      (s.vd k).state == st && !s.leaveWaits k) = true ∧
    commandMet (commanding 4 [] (vdIn .exporting)) 4 (fun k _ s => (s.vd k).state == .exporting) = true ∧
    (let s := commanding 3 [] { state := .running, stopping := true }
     (s.vd (vdKey 0 5)).state = .running ∧ (s.vd (vdKey 0 5)).stopping = true ∧ (s.vd (vdKey 0 5)).releaseWanted = false ∧
       ∀ c, c ∈ s.copies → c.2.vdk ≠ vdKey 0 5) := by
  and_intros <;> first | exact names_none_out _ 5 rfl | decide +kernel

/-- A request of a kind at the head of VD 5's ring. -/
def requested (kind : Nat) : State := commanding 0 [] { requests := [leBytes 8 0 ++ leBytes 8 kind] }

/-- A WCLOSE by VD 5 of its window 0, in which an access of another VD is under way. -/
def closingHeld : State :=
  { commanding 0 [] { requests := [leBytes 8 0 ++ leBytes 8 4 ++ leBytes 8 0] } with
    windows := [(windowKey 0 0, { open' := true, owner := 5, pas := [(0, 65536, .rc)] })]
    accesses := [(1, { vdk := 4, parts := [{ pa := 65528, len := 8 }] })] }

/-- A sealed line of VD 5, before and after a window with keys of its own covers it. -/
def unwindowed : State := { commanding 0 [] { keys := some (1#256, 2#256) } with sealed := [(0, (1#256, 2#256))] }
def rewindowed : State :=
  { unwindowed with windows := [(windowKey 0 0, { open' := true, owner := 5, keys := (3#256, 4#256), pas := [(0, 65536, .rc)] })] }

theorem witness_FirmwareServices :
    NMap.find? rewindowed.sealed 0 = unwindowed.slotKeys (some 5) 0 ∧ unwindowed.slotKeys (some 5) 0 = some (1#256, 2#256) ∧
    rewindowed.slotKeys (some 5) 0 = some (3#256, 4#256) ∧
    commandMet (commanding 10 [] {}) 10 (fun _ _ _ => true) = true ∧
    (∃ c, (commanding 11 [0, 0] {}).commanded 0 11 c ∧ ((commanding 11 [0, 0] {}).module 0).staged = none ∧
      (commanding 11 [0, 0] {}).hostBytes (commandArg c 0) (commandArg c 1) = some [] ∧ ([] : List Byte).length ≤ 2 ^ 22 ∧
      ((commanding 11 [0, 0] {}).module 0).floor = 0) ∧
    commandMet (commanding 11 [] {} { staged := some (1, 0#512, true) }) 11 (fun _ _ s => (s.module 0).staged.isSome) = true ∧
    [1500, 4400].all (fun n => commandMet (commanding 12 [n] {}) 12 fun _ c _ => decide (1500 ≤ commandArg c 0 ∧ commandArg c 0 ≤ 4400)) = true ∧
    [1499, 4401].all (fun n => commandMet (commanding 12 [n] {}) 12 fun _ c _ => decide (commandArg c 0 < 1500 ∨ 4400 < commandArg c 0)) = true ∧
    [13, 14].all (fun op => commandMet (commanding op [2 ^ 64 - 1] {}) op fun _ _ _ => true) = true ∧
    [1, 2, 3, 4].all (fun kind => ((requested kind).vd (vdKey 0 5)).requests.head?.any fun r => requestKind r == kind &&
      (requested kind).serving 0 == some true && ((requested kind).module 0).staged == none) = true ∧
    (requested 4).closeHeld 5 = false ∧ closingHeld.closeHeld 5 = true ∧
    (let r := (closingHeld.vd (vdKey 0 5)).requests.headD []
     requestKind r = 4 ∧ closingHeld.serving 0 = some true ∧ (closingHeld.module 0).staged = none) ∧
    ((mapped (here .ctl)).wopen 0 0x200000 0x200000).1 = 0 := by
  refine ⟨?_, ?_, ?_, ?_, ⟨_, ⟨rfl, ?_, ?_, ?_⟩, ?_, ?_, ?_, ?_⟩, ?_, ?_, ?_, ?_, ?_, ?_, ?_, ?_, ?_⟩ <;> decide +kernel

/-- A message in VD 5's inbox, and the state in which firmware has taken it. -/
def awaiting (x : MigMsg) (st : VdState) (g : Mig) : State := commanding 0 [] { state := st, migr := { g with inbox := [x] } }
def taken (s : State) : State := s.modMig 5 fun g => { g with inbox := [] }

/-- A blob under nonce 1, with the signature that key 1 takes for every message, what it holds for a destination whose secret is 0,
and such a destination. -/
def blob : List Byte := leBytes 8 (0x424F4C42 + 2 ^ 32) ++ bytes256 1#256 ++ List.replicate 192 0#8 ++ 1#8 :: List.replicate 63 0#8
def inside : List Byte :=
  aesCtr (blobKey (xShared 0#256 (word256 (field blob 72 32))) 1#256 (word256 (field blob 40 32))) 0#128 (field blob 104 128)
def receiving : State := awaiting (.blob blob 1#256) .importing { nd := 1#256, since := 4 * 10 ^ 9, manifest := some (word512 (field inside 64 64)) }

theorem witness_SealedBlob :
    (receiving.vd (vdKey 0 5)).migr.inbox = [.blob blob 1#256] ∧ ((taken receiving).vd 5).state = .importing ∧
    ((taken receiving).vd 5).migr.secret = 0#256 ∧ ((taken receiving).vd 5).migr.nd = 1#256 ∧
    ((taken receiving).vd 5).migr.since = 4 * 10 ^ 9 ∧ (taken receiving).blobOk 5 blob 1#256 inside = true := by
  refine ⟨rfl, rfl, rfl, rfl, rfl, ?_⟩
  have n : ((taken receiving).vd 5).migr.nd = 1#256 := rfl
  have m : ((taken receiving).vd 5).migr.manifest = some (word512 (field inside 64 64)) := rfl
  have l : (blob.length == blobBytes && dword blob 0 == 0x424F4C42 + 2 ^ 32 && word256 (field blob 8 32) == 1#256) = true := by
    decide +kernel
  have g : word512 (field blob blobSigned 64) = 1#512 := by decide +kernel
  simp only [State.blobOk, n, m, l, g, Sys2Proof.Laws.edVerify_one, beq_self_eq_true, Bool.and_self]

/-- A VD in a state, its nonces 1 and 2 and its peer's key 1, and a message for it with the signature 1; it has waited since a tick. -/
def told (x : MigMsg) (st : VdState) (n : Nat) : State := awaiting x st { nd := 1#256, ns := 2#256, peer := 1#256, since := n, moved := true }

/-- The time is 0xFFFFFFFF: a wait since 0 is over, one since 4 × 10 ^ 9 is not. -/
theorem told_wait (x : MigMsg) (st : VdState) (n : Nat) : ((taken (told x st n)).vd 5).migr.since = n ∧
    0 + 10 ^ 9 ≤ 0xFFFFFFFF ∧ ¬ 4 * 10 ^ 9 + 10 ^ 9 ≤ 0xFFFFFFFF := ⟨rfl, by decide, by decide⟩

theorem signed_by (x : MigMsg) (st : VdState) (n kind : Nat) :
    ((taken (told x st n)).vd 5).migr.signed kind 1#256 2#256 1#512 = true ∧ ((taken (told x st n)).vd 5).state = st ∧
      ((told x st n).vd (vdKey 0 5)).migr.inbox = [x] ∧ (told x st n).serving 0 = some true := by
  have g : ((taken (told x st n)).vd 5).migr = { nd := 1#256, ns := 2#256, peer := 1#256, since := n, moved := true } := rfl
  have d : (told x st n).dieOf 0 0 = 0 := (by decide +kernel : ({} : State).dieOf 0 0 = 0)
  exact ⟨by simp [Mig.signed, g, Sys2Proof.Laws.edVerify_one], rfl, rfl, by simp only [State.serving, d]; rfl⟩

theorem witness_Confirm (n : Nat) (st : VdState) (_ : st = .sealed ∨ st = .free ∨ st = .lost) :
    ((taken (told (.confirm 1#256 2#256 1#512) st n)).vd 5).migr.signed 0 1#256 2#256 1#512 = true ∧
      ((taken (told (.confirm 1#256 2#256 1#512) st n)).vd 5).state = st ∧
      ((taken (told (.confirm 1#256 2#256 1#512) st n)).vd 5).migr.moved = true :=
  ⟨(signed_by _ _ n 0).1, (signed_by _ _ n 0).2.1, rfl⟩

theorem witness_Answers (n : Nat) :
    ((taken (told (.ack 1#256 2#256 1#512) .committing n)).vd 5).migr.signed 1 1#256 2#256 1#512 = true ∧
      ((taken (told (.ack 1#256 2#256 1#512) .committing n)).vd 5).releaseWanted = false ∧
      ((taken (told (.lost 1#256 2#256 1#512) .committing n)).vd 5).migr.signed 2 1#256 2#256 1#512 = true :=
  ⟨(signed_by _ _ n 1).1, rfl, (signed_by _ _ n 2).1⟩

theorem witness_MigIn (b : List Byte) (key : BitVec 256)
    (_ : Config.readMessage ((commanding 8 [0xC000] {}).windowBytes 0 0x34000 0xC000) = some (.blob b key)) :
    commandMet (commanding 8 [0xC000] {}) 8 (fun _ c _ => decide (commandArg c 0 = 0xC000)) = true ∧
      ((commanding 8 [0xC000] {}).receive 5 (.blob b key)).1 = 0 := ⟨by decide +kernel, rfl⟩

/-- VD 5 holds a grant of an open window. -/
def granted (s : State) : State := { s with windows := [(windowKey 0 255, { open' := true, owner := 4, grants := [(5, 0, false)] })] }

theorem witness_Migration :
    commandMet (commanding 5 [] (vdIn .free)) 5 (fun k _ s => (s.vd k).state == .free) = true ∧
    commandMet (commanding 5 [] (vdIn .lost)) 5 (fun k _ s => (s.vd k).state != .free) = true ∧
    commandMet (commanding 6 [] (vdIn .stopped)) 6 (fun k _ s => (s.vd k).state == .stopped && !s.usesWindow k) = true ∧
    commandMet (commanding 6 [] (vdIn .running)) 6 (fun k _ s => (s.vd k).state != .stopped) = true ∧
    commandMet (granted (commanding 6 [] (vdIn .stopped))) 6 (fun k _ s => s.usesWindow k) = true ∧
    [VdState.exporting, .importing, .free].all (fun st => commandMet (commanding 7 [] (vdIn st)) 7 fun k _ s => (s.vd k).state == st) = true ∧
    commandMet (commanding 9 [] {}) 9 (fun k _ s => (s.vd k).migr.outbox == [] && (s.vd k).state != .sealed) = true ∧
    commandMet (commanding 9 [] { migr := { outbox := [.resend] } }) 9 (fun k _ s => (s.vd k).migr.outbox.head? == some .resend &&
      (s.vd k).state != .sealed) = true ∧
    commandMet (commanding 9 [] { state := .sealed, migr := { outbox := [.blob [] 0#256] } }) 9 (fun k _ s => (s.vd k).state == .sealed &&
      s.waitedOut k && ((s.loseVd k).vd k).migr.outbox == []) = true ∧
    [(0, true), (4 * 10 ^ 9, false)].all (fun x =>
      let s := commanding 8 [] { state := .importing, migr := { manifest := some 0#512, since := x.1 } }
      s.importOver 5 == x.2 && (s.vd 5).state == .importing && (s.vd 5).migr.manifest.isSome) = true ∧
    ((awaiting (.blob [] 0#256) .free {}).vd 5).state ≠ .importing ∧
    (awaiting (.blob [] 0#256) .importing { since := 4 * 10 ^ 9 }).blobOk 5 [] 0#256 [] = false ∧
    [VdState.sealed, .committing, .importing].all (fun st =>
      let s := awaiting (.blob [] 0#256) st { manifest := some 0#512 }
      (s.vd (vdKey 0 5)).state == st && (s.vd (vdKey 0 5)).migr.manifest.isSome &&
        decide ((s.vd (vdKey 0 5)).migr.since + 10 ^ 9 ≤ (s.die (s.dieOf 0 0)).clk.toNat)) = true ∧
    (vdIn .running).releaseWanted = false := by decide +kernel

/-- VDs 1 to 255 in a state. -/
def vf (st : VdState) : State := { vds := [(1, vdIn st), (255, vdIn st)] }

theorem witness_ResetsAndBringUp :
    [VdState.free, .configured, .stopped, .lost, .running, .sealed, .committing, .exporting, .importing].all (fun st =>
      ((vf st).vd (vdKey 0 1)).state == st && ((vf st).vd (vdKey 0 255)).state == st) = true ∧
    (State.reset.die 7).service = .reset ∧ State.reset.dieInModule 0 = 0 ∧
    [Service.test, .early].all (fun v => (({ dies := [(7, { service := v })] } : State).die 7).service == v) = true := by decide +kernel

/-- An image passes, or none does: each of the statement's two cases has its state in one of the two. -/
theorem witness_Boot (image factory : List Byte) (s : State) (e : s = { modules := [(0, { imageA := image, imageB := image, factory })] }) :
    (s.die 0).service = .reset ∧ (imageOk 0 image = true → (s.module (s.moduleOf 0)).bootImage = some image) ∧
    (imageOk 0 image = false → (s.module (s.moduleOf 0)).bootImage = none) := by
  subst e
  refine ⟨rfl, fun h => ?_, fun h => ?_⟩ <;>
    simp [State.moduleOf, State.coords, State.module, NMap.getD, NMap.find?, Module.bootImage, Module.active, Module.inactive, h]

/-- A die out of RESET; and one full for an hour and with a day's margins. -/
def worked : State :=
  { dies := [(0, { service := .full, clk := 0xFFFFFFFFFFFF#64, margins := List.range 24, means := List.range 90 })] }

theorem witness_FatalErrorsAndHealth :
    (worked.die 0).service ≠ .reset ∧ (worked.module (worked.moduleOf 0)).dump = none ∧
    (({ worked with modules := [(0, { dump := some [] })] } : State).module 0).dump.isSome = true ∧
    (worked.die 0).lastRecord + 10 ^ 7 ≤ (worked.die 0).clk.toNat ∧ (worked.die 0).service = .full ∧
    (worked.die 0).lastMargin + 3600 * 10 ^ 8 ≤ (worked.die 0).clk.toNat ∧ 24 ≤ (worked.die 0).margins.length ∧
    (worked.die 0).means.length ≤ 90 := by decide +kernel

end Sys2Proof.Tests
end

/-!
SUPPORT. The delay line of a sequencer (00 R5): what landing and the end of a slot do to the pending results and the registers of
the sequencer whose slot it is, and, by induction over slots, from which slot on a scalar result is read.
-/

namespace Sys2Proof.Proofs.DelayLine

open Sys2Proof.Machine Sys2Proof.Laws

/-! ### A sequencer under the parts of a landing -/

@[simp] theorem eng_wake (t : Task) (e : Engine) : t.wake.eng e = { t.eng e with stall := none } := by
  cases e <;> rfl

/-- Flags belong to the task: no sequencer sees them land. -/
@[simp] theorem eng_addFlags (t : Task) (f : Flags) (e : Engine) : (t.addFlags f).eng e = t.eng e := by
  unfold Task.addFlags
  extract_lets hit u
  split_ifs <;> cases e <;> rfl

@[simp] theorem eng_landFlags (t : Task) (e : Engine) : (t.landFlags e).eng e = { t.eng e with flagsDue := 0#9 } := by
  unfold Task.landFlags
  split_ifs with h
  · rw [← h]
  · simp

/-- The accumulator read changes only rows of the matrix engine (10 R232). -/
theorem eng_readAccumulators (t : Task) (no_row : ∀ p ∈ (t.eng .exe).pend, p.mat = none) :
    t.readAccumulators.eng .exe = t.eng .exe := by
  have same : t.readAccumulators.eng .exe = { t.eng .exe with pend := (t.eng .exe).pend } := by
    simp only [Task.readAccumulators, eng_modEng, Eng.mk.injEq, true_and, and_true]
    refine (List.map_congr_left fun p hp => ?_).trans (List.map_id _)
    simp [no_row p hp]
  exact same

/-! ### One slot -/

/-- What a landing starts from: the accumulators read, the flags of a VQNT landed. -/
def landStart (t : Task) (e : Engine) : Task := (if e = .exe then t.readAccumulators else t).landFlags e

theorem eng_landStart (t : Task) (e : Engine) (no_row : ∀ p ∈ (t.eng e).pend, p.mat = none) :
    (landStart t e).eng e = { t.eng e with flagsDue := 0#9 } := by
  unfold landStart
  split_ifs with exe
  · subst exe
    simp [eng_readAccumulators t no_row]
  · simp

/-- The results of a sequencer that are due. -/
def due (t : Task) (e : Engine) : List Pend := (t.eng e).pend.filter fun p => p.rem = 0

/-- The landing of results that are due: those with slots to go stay, and so do those whose queue is full (02 R35). -/
def landDue (t : Task) (e : Engine) (l : List Pend) : Task :=
  let (u, kept) := (t.modEng e fun x => { x with pend := x.pend.filter fun p => p.rem ≠ 0 }).landList e (dueOrder l)
  (u.modEng e fun x => { x with pend := kept ++ x.pend }).wake

theorem land_eq (t : Task) (e : Engine) :
    t.land e = if (due (landStart t e) e).isEmpty then landStart t e else landDue (landStart t e) e (due (landStart t e) e) := rfl

/-- While every pending result has slots to go, nothing lands. -/
theorem eng_land_of_waiting (t : Task) (e : Engine) (wait : ∀ p ∈ (t.eng e).pend, p.rem ≠ 0 ∧ p.mat = none) :
    (t.land e).eng e = { t.eng e with flagsDue := 0#9 } := by
  have start := eng_landStart t e fun p hp => (wait p hp).2
  have none_due : due (landStart t e) e = [] := by
    simpa [due, start] using fun p hp => (wait p hp).1
  simp [land_eq, none_due, start]

/-- A result alone in its slot has no order to land in. -/
@[simp] theorem dueOrder_singleton (p : Pend) : dueOrder [p] = [p] := by
  cases hs : p.slot <;> simp [dueOrder, hs]

/-- A scalar result with n slots to go. -/
def scalarResult (n : Nat) (r : GReg) (v : W64) : Pend := { rem := n, dest := .reg r, data := v.setWidth 4096 }

theorem landOne_scalarResult (t : Task) (e : Engine) (n : Nat) (r : GReg) (v : W64) :
    t.landOne e (scalarResult n r v) = some ((t.modEng e fun x => x.put r v).addFlags 0#9) := by
  simp [Task.landOne, scalarResult]

@[simp] theorem put_pend (x : Eng) (r : GReg) (v : W64) : (x.put r v).pend = x.pend := by
  unfold Eng.put
  split_ifs <;> rfl

theorem put_regs (x : Eng) (r : GReg) (v : W64) : (x.put r v).regs = if r = 0#5 then x.regs else x.regs.set r.toNat v := by
  unfold Eng.put
  split_ifs <;> rfl

theorem get_congr {x y : Eng} (h : x.regs = y.regs) (r : GReg) : x.get r = y.get r := by
  simp only [Eng.get, h]

/-- A scalar result that is due lands in its register, and with no other pending none is left. -/
theorem eng_land_of_due (t : Task) (e : Engine) (r : GReg) (v : W64) (h : (t.eng e).pend = [scalarResult 0 r v]) :
    ((t.land e).eng e).pend = [] ∧ ((t.land e).eng e).regs = ((t.eng e).put r v).regs := by
  have start := eng_landStart t e (by simp [h, scalarResult])
  have found : due (landStart t e) e = [scalarResult 0 r v] := by simp [due, start, h, scalarResult]
  simp only [land_eq, found, List.isEmpty_cons, Bool.false_eq_true, if_false, landDue, dueOrder_singleton, Task.landList,
    landOne_scalarResult, eng_wake, eng_modEng, eng_addFlags, List.nil_append, put_pend, start]
  exact ⟨by simp [h, scalarResult], by simp only [put_regs]⟩

/-- The end of a slot that writes nothing moves the delay line on by one and leaves the registers (00 R5). -/
theorem eng_endSlot (t : Task) (e : Engine) :
    ((t.endSlot e []).eng e).pend = (t.eng e).pend.map (fun p => { p with rem := p.rem - 1 }) ∧
      ((t.endSlot e []).eng e).regs = (t.eng e).regs := by
  unfold Task.endSlot
  extract_lets u counted
  have unread : counted.eng e = t.eng e := by
    unfold counted
    split_ifs
    · cases e <;> rfl
    · rfl
  simp [Eng.advance, unread]

/-! ### Slots in a row -/

/-- A slot in which what is due lands and nothing issues. -/
def slot (e : Engine) (t : Task) : Task := (t.land e).endSlot e []

/-- What the k-th slot from now reads from a register: what is due in it has landed. -/
def readAt (e : Engine) (r : GReg) (k : Nat) (t : Task) : W64 := ((((slot e)^[k] t).land e).eng e).get r

theorem readAt_zero (e : Engine) (r : GReg) (t : Task) : readAt e r 0 t = ((t.land e).eng e).get r := rfl

theorem readAt_succ (e : Engine) (r : GReg) (k : Nat) (t : Task) : readAt e r (k + 1) t = readAt e r k (slot e t) := rfl

theorem slot_of_idle (t : Task) (e : Engine) (h : (t.eng e).pend = []) :
    ((slot e t).eng e).pend = [] ∧ ((slot e t).eng e).regs = (t.eng e).regs := by
  obtain ⟨pend, regs⟩ := eng_endSlot (t.land e) e
  have land := eng_land_of_waiting t e (by simp [h])
  exact ⟨by simp [slot, pend, land, h], by simp [slot, regs, land]⟩

theorem slot_of_waiting (t : Task) (e : Engine) (n : Nat) (r : GReg) (v : W64) (h : (t.eng e).pend = [scalarResult (n + 1) r v]) :
    ((slot e t).eng e).pend = [scalarResult n r v] ∧ ((slot e t).eng e).regs = (t.eng e).regs := by
  obtain ⟨pend, regs⟩ := eng_endSlot (t.land e) e
  have land := eng_land_of_waiting t e (by simp [h, scalarResult])
  exact ⟨by simp [slot, pend, land, h, scalarResult], by simp [slot, regs, land]⟩

theorem slot_of_due (t : Task) (e : Engine) (r : GReg) (v : W64) (h : (t.eng e).pend = [scalarResult 0 r v]) :
    ((slot e t).eng e).pend = [] ∧ ((slot e t).eng e).regs = ((t.eng e).put r v).regs := by
  obtain ⟨pend, regs⟩ := eng_endSlot (t.land e) e
  obtain ⟨none_left, landed⟩ := eng_land_of_due t e r v h
  exact ⟨by simp [slot, pend, none_left], by simp [slot, regs, landed]⟩

/-- With nothing pending, every later slot reads what the register holds. -/
theorem readAt_of_idle (e : Engine) (r : GReg) (k : Nat) (t : Task) (h : (t.eng e).pend = []) :
    readAt e r k t = (t.eng e).get r := by
  induction k generalizing t with
  | zero =>
    rw [readAt_zero, eng_land_of_waiting t e (by simp [h])]
    exact get_congr rfl r
  | succ k ih =>
    obtain ⟨pend, regs⟩ := slot_of_idle t e h
    rw [readAt_succ, ih _ pend, get_congr regs]

/-- A scalar result with n slots to go is read from the n-th slot on; the slots before read what the register holds (00 R5). -/
theorem readAt_scalarResult (e : Engine) (r : GReg) (v : W64) (hr : r ≠ 0#5) (k n : Nat) (t : Task)
    (h : (t.eng e).pend = [scalarResult n r v]) : readAt e r k t = if n ≤ k then v else (t.eng e).get r := by
  induction k generalizing t n with
  | zero =>
    cases n with
    | zero =>
      obtain ⟨-, landed⟩ := eng_land_of_due t e r v h
      rw [readAt_zero, get_congr landed, get_put_same _ r v hr, if_pos (Nat.zero_le _)]
    | succ n =>
      rw [readAt_zero, eng_land_of_waiting t e (by simp [h, scalarResult]), if_neg (Nat.not_succ_le_zero n)]
      exact get_congr rfl r
  | succ k ih =>
    cases n with
    | zero =>
      obtain ⟨pend, regs⟩ := slot_of_due t e r v h
      rw [readAt_succ, readAt_of_idle e r k _ pend, get_congr regs, get_put_same _ r v hr, if_pos (Nat.zero_le _)]
    | succ n =>
      obtain ⟨pend, regs⟩ := slot_of_waiting t e n r v h
      rw [readAt_succ, ih n _ pend, get_congr regs]
      simp only [Nat.add_le_add_iff_right]

/-- Settles O10, by induction on the slots: each brings the result one place nearer, and none but the one in which it is due
touches its register. -/
theorem resultAvailable : Obligations.ResultAvailable := by
  intro t e r v n k _ hr _ u
  have added : u.eng e = { t.eng e with pend := [scalarResult n r v] } := eng_modEng ..
  calc readAt e r k u
      _ = if n ≤ k then v else (u.eng e).get r := readAt_scalarResult e r v hr k n u (by rw [added])
      _ = if n ≤ k then v else (t.eng e).get r := by rw [get_congr (x := u.eng e) (y := t.eng e) (by rw [added])]

end Sys2Proof.Proofs.DelayLine

/-!
SUPPORT. The registers of EXE (02 R28): what g0 takes, and what an instruction that names a register above 15 does.
-/

namespace Sys2Proof.Proofs.ExeRegisters

open Sys2Proof.Machine Sys2Proof.Laws

/-- A result for g0 is due nowhere (02 R28). -/
@[simp] theorem result_zero (s : State) (n : Nat) (v : W64) : s.result n 0#5 v = s := by
  simp [State.result, State.later]

/-- Of the checks of 04 R101 only that of the types comes before that of EXE's register fields. -/
theorem operandTrap_exeReg {i : Instr} (types : i.typesOk = true) (high : (i.exeRegs.any fun r => 16 ≤ r.toNat) = true) :
    i.operandTrap .exe = some Cause.exeReg := by
  simp [Instr.operandTrap, types, high]

/-- An instruction that fails a check of 04 R101 traps and does nothing else: its own checks and its effect are not reached. -/
theorem issueFrame_operandTrap {i : Instr} {s : State} {c : Nat} (trap : i.operandTrap s.cur.eng = some c) (cls : Option PathClass)
    (chk : State → Chk) (eff : State → State) : issueFrame i cls chk eff s = s.trapNow c (s.operandVal i c) := by
  simp only [issueFrame, trap]

/-- A register that EXE does not have is reported with the instruction's word (12 R268). -/
@[simp] theorem operandVal_exeReg (s : State) (i : Instr) : s.operandVal i Cause.exeReg = s.wordVal := rfl

/-- A scalar instruction with a register that EXE does not have traps, whatever its result would be. -/
theorem scalarOp_exeReg {i : Instr} {s : State} (exe : s.cur.eng = .exe) (types : i.typesOk = true)
    (high : (i.exeRegs.any fun r => 16 ≤ r.toNat) = true) (n : Nat) (d : GReg) (v : State → W64) :
    scalarOp i n d v s = .next (s.trapNow Cause.exeReg s.wordVal) := by
  have trap : i.operandTrap s.cur.eng = some Cause.exeReg := exe ▸ operandTrap_exeReg types high
  rw [scalarOp, issue, issueFrame_operandTrap trap, operandVal_exeReg]

/-- Settles O12: g0 by the laws of registers, the others by the order of the checks of 04 R101. -/
theorem registerZero : Obligations.RegisterZero := by
  refine ⟨get_zero, put_zero, result_zero, fun _ => operandTrap_exeReg, fun d a b s exe high => ?_⟩
  have named : ((Instr.add d a b).exeRegs.any fun r => 16 ≤ r.toNat) = true := by simp [Instr.exeRegs, high]
  exact scalarOp_exeReg exe rfl named 1 d _

end Sys2Proof.Proofs.ExeRegisters

/-!
SUPPORT. A bundle of EXE (02 R31, R32): what a sequencer's turn comes to, and what a bundle does whose members pass their checks.
-/

namespace Sys2Proof.Proofs.Bundle

open Sys2Proof.Machine Sys2Proof.Laws

/-! ### A turn -/

/-- The end of a slot (00 R5), on what its attempt answers. -/
def finished : Result State → Result State
  | .next t => .next t.finish
  | r => r

/-- A sequencer at a line, that neither stops nor drains at a crossing, attempts what stands at its code pointer. -/
theorem runSeq_attempt {s w u : State} {uid : Nat} {en : Engine} {l : Line} (run : ((s.task uid).eng en).run = .running)
    (line : ({ s with cur := { uid, eng := en } } : State).enterLine = .have l w) (waits : w.stopsWaiting uid en l = none)
    (meet : w.meetStop uid en = (false, u)) (crossing : u.crossing l = none) :
    s.runSeq uid en none = finished (u.attempt en l) := by
  have run : ((({ s with cur := { uid, eng := en } } : State).task uid).eng en).run = .running := run
  simp only [State.runSeq, run, line, waits, meet, State.proceed, crossing]
  cases u.attempt en l <;> rfl

/-- Nothing that comes before a turn keeps an active task on a core that runs from it (12 R263, R266, R272, R273). -/
theorem issueOn_runSeq {s : State} {core uid : Nat} {en : Engine} (active : s.activeOf core = some uid)
    (runs : s.coreRuns core = true) (place : (s.task uid).place = .active) (dying : (s.task uid).dying = false)
    (traps : (s.task uid).traps = false) (stop : s.mustStop uid en = false) (arith : en = .exe → s.arithDue uid = false)
    (vd : s.vdRuns (s.task uid).vdKey = true) (raised : (s.task uid).atIssue en = none) :
    s.issueOn core en none = s.runSeq uid en none := by
  have settled : (en == .exe && s.arithDue uid) = false := by
    by_cases exe : en = .exe
    · simp [arith exe]
    · simp [exe]
  simp [State.issueOn, active, runs, place, dying, traps, stop, settled, vd, raised]

/-- The step in which a sequencer takes its turn is an attempt at what stands at its code pointer, and the end of its slot. -/
theorem step_of_turn {s u : State} {core uid : Nat} {en : Engine} {rest : List Action} {l : Line}
    (turn : s.turn core uid en rest l u) : step s = finished (u.attempt en l) := by
  obtain ⟨agenda, active, runs, place, dying, traps, stop, arith, vd, raised, run, w, line, waits, meet, crossing⟩ := turn
  calc step s
      _ = ({ s with agenda := rest } : State).issueOn core en none := by simp only [step, agenda, State.act]
      _ = ({ s with agenda := rest } : State).runSeq uid en none :=
        issueOn_runSeq active runs place dying traps stop arith vd raised
      _ = finished (u.attempt en l) := runSeq_attempt run line waits meet crossing

/-! ### A bundle -/

/-- The state in which EXE reads the bundle at its code pointer, which the word `next` follows. -/
def atBundle (u : State) (l : Line) (next : Nat) : State :=
  { u with cur := { u.cur with line := l, word := ptrWord u.eng.pc, first := ptrWord u.eng.pc, next } }

/-- The members of a bundle whose guards hold (04 R94). -/
def liveMembers (sm : List (Slot × Member)) (live : List Bool) : List (Slot × Member) :=
  (sm.zip live).filterMap fun p => if p.2 then some p.1 else none

/-- The members beside an RDV (06 R133). -/
def besideJoin (act : List (Slot × Member)) : List (Slot × Member) := act.filter fun p => !p.2.joins

/-- A bundle that passes the checks of 04 R101 and BUNDLE_SLOT runs the members whose guards hold. -/
theorem runBundle_runMembers {u : State} {l : Line} {ms : List Member} {next : Nat} {sm : List (Slot × Member)}
    {live : List Bool} {n : Nat} {v : Bool} (err : u.cur.err = none)
    (read : readBundle l 16 (ptrWord u.eng.pc) [] = .ok (ms, next, true)) (slots : assignSlots ms = some sm)
    (forms : ms.filterMap (fun m => match formCheck m.ins (atBundle u l next) with | .trap c v => some (c, v) | _ => none) = [])
    (guards : guardWalk (fun r => ((atBundle u l next).modMe fun t => t.land .exe).reg r) ms u.eng.guardLeft u.eng.guardVal =
      (live, n, v)) :
    u.runBundle l = (atBundle u l next).runMembers (liveMembers sm live) n v := by
  simp only [State.runBundle, read, slots, if_true]
  split
  · next trap => cases trap.symm.trans forms
  · split
    · next damaged => cases err.symm.trans damaged
    · exact congrArg (fun r => (atBundle u l next).runMembers (liveMembers sm r.1) r.2.1 r.2.2) guards

/-- What a bundle leaves whose members have taken effect: the guard that they pass on, and at an RDV beside others a stream that
joins (06 R133). A bundle none of whose members takes effect is an issue slot all the same (04 R94). -/
def bundleEnd (act : List (Slot × Member)) (n : Nat) (v : Bool) (t : State) : State :=
  match t.cur.status with
  | .issued =>
    if (besideJoin act).length < act.length then (t.setGuard n v).modEng fun e => { e with run := .joining } else t.setGuard n v
  | .start => t.setStatus .issued
  | _ => t

/-- The end of a bundle, on what the effects of its members answer. -/
def ended (act : List (Slot × Member)) (n : Nat) (v : Bool) : Result State → Result State
  | .next t => .next (bundleEnd act n v t)
  | r => r

/-- The members that are tried: those beside an RDV, and where there are none the bundle has no member that takes effect. -/
theorem tried_besideJoin {act : List (Slot × Member)} (beside : besideJoin act ≠ [] ∨ act = []) :
    (if (besideJoin act).isEmpty then act else besideJoin act) = besideJoin act := by
  rcases beside with some | rfl
  · rw [if_neg (by simpa using some)]
  · rfl

/-- Once the members beside an RDV pass their checks on the state before the bundle, nothing that is due waits, and what they pop
has arrived (02 R34), they take effect in slot order (02 R32). -/
theorem runMembers_commitBundle {b : State} {act : List (Slot × Member)} (n : Nat) (v : Bool)
    (beside : besideJoin act ≠ [] ∨ act = []) (probe : b.probe (besideJoin act) = .next none)
    (landed : b.falseSlot.cur.status = .issued) (pops : b.falseSlot.bundlePops (besideJoin act) = true) :
    b.runMembers act n v =
      ended act n v (commitBundle ((b.falseSlot.setStatus .start).setGuard n v) (inSlotOrder (besideJoin act))) := by
  have tried := tried_besideJoin beside
  unfold besideJoin at *
  simp only [State.runMembers, tried, probe, landed, pops]
  cases commitBundle ((b.falseSlot.setStatus .start).setGuard n v) (inSlotOrder (act.filter fun p => !p.2.joins)) <;> rfl

/-- Settles O8: the turn comes to the bundle, the bundle to its members whose guards hold, and these to their effects in slot
order. -/
theorem stepRunsBundle : Obligations.StepRunsBundle := by
  intro s core uid rest l u ms next sm live n v turn err b act others read slots forms guards beside probe landed pops
  have bundle : u.attempt .exe l = b.runMembers act n v := runBundle_runMembers err read slots forms guards
  have members : b.runMembers act n v =
      ended act n v (commitBundle ((b.falseSlot.setStatus .start).setGuard n v) (inSlotOrder others)) :=
    runMembers_commitBundle n v beside probe landed pops
  rw [step_of_turn turn, bundle, members]
  cases commitBundle ((b.falseSlot.setStatus .start).setGuard n v) (inSlotOrder others) <;> rfl

end Sys2Proof.Proofs.Bundle

/-!
SUPPORT. Which task and sequencer issue is no concern of translation, of the fabric and of the homes: none of them changes
`State.cur`.
-/

namespace Sys2Proof.Proofs.Issuer

open Sys2Proof.Machine Sys2Proof.Laws

/-! ### Translation (08 R193, R194) -/

@[simp] theorem draw_cur (s : State) : s.draw.2.cur = s.cur := rfl

@[simp] theorem bindHwid_cur (s : State) (die : Nat) (pr : Nat × Nat) : (s.bindHwid die pr).cur = s.cur := by
  simp only [State.bindHwid]
  split_ifs
  · rfl
  · rfl
  · split <;> rfl

@[simp] theorem lookup_cur (s : State) (die core vdk asid va : Nat) : (s.lookup die core vdk asid va).2.cur = s.cur := by
  unfold State.lookup
  split
  · exact bindHwid_cur ..
  · split
    · exact bindHwid_cur ..
    · rfl

/-- A translation that is found leaves the issuing task and sequencer. -/
theorem translate1_cur {s t : State} {by' : WalkFor} {uid va : Nat} {acc : AccKind} {ps : List Piece}
    (found : s.translate1 by' uid va acc = .ok ps t) : t.cur = s.cur := by
  have kept := lookup_cur s (s.task uid).die ((s.task uid).core.getD 0) (s.task uid).vdKey (s.task uid).asid.toNat va
  simp only [State.translate1] at found
  split at found
  · cases found
  · split at found
    · split at found <;> cases found
    · split at found
      · cases found
      · cases found
        exact kept

/-! ### Routes (13 R277) -/

@[simp] theorem crossed_cur (s : State) (l : List (Nat × Nat)) : (s.crossed l).cur = s.cur :=
  List.foldlRecOn (motive := fun t : State => t.cur = s.cur) l _ rfl fun _ kept _ _ => kept

@[simp] theorem crossTo_cur (s : State) (die pa : Nat) : (s.crossTo die pa).cur = s.cur := by
  simp only [State.crossTo]
  split
  · rfl
  · split
    · simp
    · rfl

/-! ### Writes at a home (07 R162, 14 R309 to R312) -/

@[simp] theorem damage_cur (s : State) (pa : Nat) (i : Integ) : (s.damage pa i).cur = s.cur := by
  cases i <;> rfl

@[simp] theorem finishAtomics_cur (s : State) (pa n : Nat) : (s.finishAtomics pa n).cur = s.cur := by
  refine List.foldlRecOn (motive := fun t : State => t.cur = s.cur) s.accesses _ rfl fun t kept a _ => ?_
  refine List.foldlRecOn (motive := fun u : State => u.cur = s.cur) a.2.parts.zipIdx _ kept fun u kept p _ => ?_
  dsimp only
  split
  · split_ifs <;> exact kept
  · exact kept

@[simp] theorem seal_cur (s : State) (vd : Option Nat) (pa : Nat) : (s.seal vd pa).cur = s.cur := by
  unfold State.seal
  split <;> rfl

@[simp] theorem countNodes_cur (s : State) (pa : Nat) : (s.countNodes pa).cur = s.cur :=
  List.foldlRecOn (motive := fun t : State => t.cur = s.cur) _ _ rfl fun _ kept _ _ => kept

@[simp] theorem countWrite_cur (s : State) (pa : Nat) : (s.countWrite pa).cur = s.cur := by
  simp only [State.countWrite]
  split_ifs <;> simp

@[simp] theorem watchService_cur (s : State) (changed : List Nat) (vdk : Nat) : (s.watchService changed vdk).1.cur = s.cur := by
  simp only [State.watchService]
  split_ifs
  · rfl
  · split
    · rfl
    · split_ifs
      · rfl
      · split <;> rfl

@[simp] theorem watchServices_cur (s : State) (changed : List Nat) : (s.watchServices changed).1.cur = s.cur :=
  List.foldlRecOn (motive := fun r : State × Notes => r.1.cur = s.cur) s.vds _ rfl fun _ kept _ _ =>
    (watchService_cur ..).trans kept

@[simp] theorem ringBells_cur (s : State) (die line : Nat) (changed : List Nat) : (s.ringBells die line changed).1.cur = s.cur :=
  List.foldlRecOn (motive := fun r : State × Notes => r.1.cur = s.cur) _ _ rfl fun _ kept _ _ => kept

@[simp] theorem applyLine_cur (s : State) (w : Who) (rings : Bool) (va pa : Nat) (bs : List Byte) :
    (s.applyLine w rings va pa bs).1.cur = s.cur := by
  simp only [State.applyLine]
  split
  · cases rings <;> cases w.host <;> simp
  · split
    · rfl
    · cases rings <;> simp

@[simp] theorem applyWrite_cur (s : State) (w : Who) (rings : Bool) (va pa : Nat) (bs : List Byte) :
    (s.applyWrite w rings va pa bs).1.cur = s.cur :=
  List.foldlRecOn (motive := fun r : State × Notes => r.1.cur = s.cur) _ _ rfl fun _ kept _ _ => (applyLine_cur ..).trans kept

/-! ### Records (12 R274, R275) -/

@[simp] theorem logRecord_cur (s : State) (m : Nat) (r : Rec) : (s.logRecord m r).cur = s.cur := rfl

@[simp] theorem firmwareRecord_cur (s : State) (m : Nat) (r : Rec) : (s.firmwareRecord m r).cur = s.cur := rfl

/-- Records that reach the log and firmware's ring. -/
@[simp] theorem foldl_logged_cur (s : State) (m : Nat) (l : Notes) :
    (l.foldl (fun s p => (s.logRecord m p.2).firmwareRecord m p.2) s).cur = s.cur :=
  List.foldlRecOn (motive := fun t : State => t.cur = s.cur) l _ rfl fun _ kept _ _ => kept

@[simp] theorem putRecords_cur (n : Nat) (s : State) (l : Notes) : (s.putRecords n l).cur = s.cur := by
  induction n generalizing s l with
  | zero => rfl
  | succ n ih =>
    cases l with
    | nil => rfl
    | cons p rest =>
      simp only [State.putRecords]
      split
      · exact ih ..
      · split
        · exact ih ..
        · split
          · exact ih ..
          · split
            · simp [ih, apply_ite State.cur]
            · split <;> simp [ih, apply_ite State.cur]

@[simp] theorem records_cur (s : State) (l : Notes) : (s.records l).cur = s.cur := by
  unfold State.records State.flushRecords
  split
  · rfl
  · exact putRecords_cur ..

/-! ### Reads at a home (09 R207, 14 R310 to R313) -/

@[simp] theorem viewWord_cur (s : State) (w : Who) (k d : Nat) : (s.viewWord w k d).2.cur = s.cur := by
  simp only [State.viewWord]
  split <;> rfl

@[simp] theorem viewRead_cur (s : State) (w : Who) (pa n : Nat) (bs : List Byte) : (s.viewRead w pa n bs).2.cur = s.cur := by
  unfold State.viewRead
  split
  · rfl
  · next k _ =>
    split
    · rfl
    · refine List.foldlRecOn (motive := fun r : List Byte × State => r.2.cur = s.cur) _ _ rfl fun r kept d _ => ?_
      have word := viewWord_cur r.2 w k d
      split
      · exact kept
      · split
        · next read => exact (read ▸ word).trans kept
        · next read => exact (read ▸ word).trans kept

@[simp] theorem homeRead_cur (s : State) (w : Who) (i : Integ) (va pa n : Nat) : (s.homeRead w i va pa n).2.cur = s.cur := by
  simp only [State.homeRead]
  split
  · rfl
  · split
    · cases w.acc <;> simp
    · simp

end Sys2Proof.Proofs.Issuer

/-!
SUPPORT. The fetch of a code line (03 R58): the bytes of a line are the line, and a code pointer that passes the checks of 03 R54
names a word of it.
-/

namespace Sys2Proof.Proofs.Fetch

open Sys2Proof.Machine Sys2Proof.Proofs.Issuer

/-! ### A word and its bytes (00 R2) -/

/-- The lowest n bytes of a word, before bytes that make up m, are a number of n digits in base 256. -/
theorem foldr_toBytes {w : Nat} (v : BitVec w) (n m : Nat) :
    (toBytes n v).foldr (fun b acc => b.toNat + acc * 256) m = v.toNat % 256 ^ n + 256 ^ n * m := by
  induction n generalizing m with
  | zero => simp [toBytes, Nat.mod_one]
  | succ n ih =>
    have digit : (byteOf v n).toNat = v.toNat / 256 ^ n % 256 := by
      simp [byteOf, Nat.shiftRight_eq_div_pow, Nat.pow_mul]
    have last : toBytes (n + 1) v = toBytes n v ++ [byteOf v n] := by simp [toBytes, List.range_succ]
    rw [last, List.foldr_append, List.foldr_cons, List.foldr_nil, ih, digit, Nat.mod_pow_succ]
    ring

/-- A word is that of its bytes. -/
theorem ofBytes_toBytes (n : Nat) (v : BitVec (8 * n)) : ofBytes (8 * n) (toBytes n v) = v := by
  have small : v.toNat < 256 ^ n := by simpa [Nat.pow_mul] using v.isLt
  rw [ofBytes, foldr_toBytes, Nat.mul_zero, Nat.add_zero, Nat.mod_eq_of_lt small, BitVec.ofNat_toNat, BitVec.setWidth_eq]

/-! ### Entering a line -/

/-- A code pointer that passes the checks of 03 R54 names an instruction word. -/
theorem ptrWord_ne_zero {p : W64} (ok : pointerOk p = true) : ptrWord p ≠ 0 := by
  simp only [pointerOk, Bool.and_eq_true, bne_iff_ne] at ok
  exact ok.2

/-- Settles O9: translation, the way to the home and the read there leave who issues, so that the line's link word is checked for
the sequencer that enters it. -/
theorem fetchReadsTheLine : Obligations.FetchReadsTheLine := by
  intro s t ps l u fresh ok found routed served link word
  have same : t.cur = s.cur := translate1_cur found
  have kept : u.cur = s.cur := calc
    u.cur = (t.crossTo s.me.die (ps.headD {}).pa).cur := (congrArg (·.2.cur) served).symm.trans (homeRead_cur ..)
    _ = s.cur := (crossTo_cur ..).trans same
  have whole : ofBytes 512 (toBytes 64 l) = l := ofBytes_toBytes 64 l
  have inside : ¬ (linkCount l < ptrWord s.eng.pc ∨ ptrWord s.eng.pc = 0) := by
    have := ptrWord_ne_zero ok
    omega
  simp only [State.enterLine, fresh, ok, found, routed, same, served, whole, kept, link, inside, Bool.not_true, Bool.false_and,
    Bool.false_eq_true, if_false]

end Sys2Proof.Proofs.Fetch

/-!
SUPPORT. The fields of a packed word (04 R68): what is read back, at the bits where a field stands, from a word that was packed
of fields each in its width.
-/

namespace Sys2Proof.Proofs.Fields

/-- The bits that a list of fields takes. -/
def width : List (Nat × Nat) → Nat
  | [] => 0
  | (n, _) :: fs => n + width fs

/-- A value of n bits. -/
def InWidth (n v : Nat) : Prop := v < 2 ^ n

/-- Every field holds a value of its width. -/
def Fits : List (Nat × Nat) → Prop
  | [] => True
  | (n, v) :: fs => InWidth n v ∧ Fits fs

@[simp] theorem width_nil : width [] = 0 := by rw [width]

@[simp] theorem width_cons (n v : Nat) (fs : List (Nat × Nat)) : width ((n, v) :: fs) = n + width fs := by rw [width]

@[simp] theorem inWidth_of_lt {n v : Nat} (small : v < 2 ^ n) : InWidth n v := small

theorem inWidth_of_blt {n v : Nat} (small : v.blt (2 ^ n) = true) : InWidth n v := Nat.le_of_ble_eq_true small

@[simp] theorem inWidth_toNat {n : Nat} (v : BitVec n) : InWidth n v.toNat := v.isLt

@[simp] theorem inWidth_zero (n : Nat) : InWidth n 0 := Nat.two_pow_pos n

theorem inWidth_mono {m n v : Nat} (value : InWidth m v) (wider : m ≤ n) : InWidth n v :=
  lt_of_lt_of_le value (Nat.pow_le_pow_right (by decide) wider)

@[simp] theorem inWidth_bool {n : Nat} (b : Bool) (some_bit : 0 < n) : InWidth n b.toNat :=
  inWidth_mono (m := 1) b.toNat_lt some_bit

@[simp] theorem fits_nil : Fits [] := trivial

@[simp] theorem fits_cons (n v : Nat) (fs : List (Nat × Nat)) : Fits ((n, v) :: fs) ↔ InWidth n v ∧ Fits fs := by rw [Fits]

/-! ### A word as a number -/

theorem foldl_pack (fs : List (Nat × Nat)) (acc : Nat) :
    fs.foldl (fun acc f => acc * 2 ^ f.1 + f.2) acc = acc * 2 ^ width fs + pack fs := by
  induction fs generalizing acc with
  | nil => simp [pack]
  | cons f fs ih =>
    rw [pack, List.foldl_cons, List.foldl_cons, ih, ih (0 * 2 ^ f.1 + f.2), width_cons, Nat.pow_add]
    ring

/-- The first field of a word stands highest. -/
theorem pack_cons (n v : Nat) (fs : List (Nat × Nat)) : pack ((n, v) :: fs) = v * 2 ^ width fs + pack fs := by
  rw [pack, List.foldl_cons, foldl_pack]
  simp

theorem pack_lt {fs : List (Nat × Nat)} (fits : Fits fs) : pack fs < 2 ^ width fs := by
  induction fs with
  | nil => simp [pack]
  | cons f fs ih =>
    obtain ⟨v, rest⟩ := (fits_cons f.1 f.2 fs).mp fits
    rw [pack_cons, width_cons, Nat.pow_add]
    calc f.2 * 2 ^ width fs + pack fs
        < f.2 * 2 ^ width fs + 2 ^ width fs := Nat.add_lt_add_left (ih rest) _
      _ = (f.2 + 1) * 2 ^ width fs := by ring
      _ ≤ 2 ^ f.1 * 2 ^ width fs := Nat.mul_le_mul_right _ v

/-! ### Reading a field -/

/-- A field is read from the bits up to its highest. -/
theorem fld_eq_mod_div (w h l : Nat) : fld w h l = w % 2 ^ (h + 1) / 2 ^ l := by
  rw [fld]
  by_cases inside : l ≤ h + 1
  · obtain ⟨k, top⟩ := Nat.exists_eq_add_of_le inside
    rw [top, Nat.pow_add, Nat.add_sub_cancel_left, Nat.mod_mul_right_div_self]
  · have empty : w % 2 ^ (h + 1) < 2 ^ l :=
      lt_of_lt_of_le (Nat.mod_lt _ (Nat.two_pow_pos _)) (Nat.pow_le_pow_right (by decide) (by omega))
    rw [Nat.div_eq_of_lt empty, Nat.sub_eq_zero_of_le (by omega), Nat.pow_zero, Nat.mod_one]

@[simp] theorem fld_pack_nil (h l : Nat) : fld (pack []) h l = 0 := by simp [pack, fld]

/-- Bits below a field do not see it. -/
@[simp] theorem fld_below {fs : List (Nat × Nat)} {h : Nat} (n v l : Nat) (below : h < width fs) :
    fld (pack ((n, v) :: fs)) h l = fld (pack fs) h l := by
  have unseen : 2 ^ (h + 1) ∣ v * 2 ^ width fs := Dvd.dvd.mul_left (Nat.pow_dvd_pow 2 below) v
  rw [fld_eq_mod_div, fld_eq_mod_div, pack_cons, Nat.add_mod, Nat.mod_eq_zero_of_dvd unseen, Nat.zero_add, Nat.mod_mod]

/-- A field that holds 0 adds nothing to what is read over it. -/
@[simp] theorem fld_zero_field (n h l : Nat) (fs : List (Nat × Nat)) : fld (pack ((n, 0) :: fs)) h l = fld (pack fs) h l := by
  simp [pack_cons]

/-- Some bits of the first field are those bits of its value. -/
theorem fld_within {fs : List (Nat × Nat)} {h l : Nat} (n v : Nat) (low : width fs ≤ l) (high : l ≤ h) (fits : Fits fs) :
    fld (pack ((n, v) :: fs)) h l = fld v (h - width fs) (l - width fs) := by
  obtain ⟨j, rfl⟩ := Nat.exists_eq_add_of_le low
  have value : pack ((n, v) :: fs) / 2 ^ width fs = v := by
    rw [pack_cons, Nat.mul_comm, Nat.mul_add_div (Nat.two_pow_pos _), Nat.div_eq_of_lt (pack_lt fits), Nat.add_zero]
  rw [fld, fld, Nat.pow_add, ← Nat.div_div_eq_div_mul, value, Nat.add_sub_cancel_left]
  congr 2
  omega

/-- The bits of the first field are its value. -/
@[simp] theorem fld_field {fs : List (Nat × Nat)} {n v h l : Nat} (low : l = width fs) (high : h + 1 = width fs + n)
    (some_bit : 0 < n) (value : InWidth n v) (fits : Fits fs) : fld (pack ((n, v) :: fs)) h l = v := by
  rw [fld_within n v (by omega) (by omega) fits, low, Nat.sub_self, fld, Nat.pow_zero, Nat.div_one,
    show h - width fs + 1 - 0 = n by omega, Nat.mod_eq_of_lt value]

/-- A value is read from its own bits. -/
theorem fld_of_inWidth {v h : Nat} (value : InWidth (h + 1) v) : fld v h 0 = v := by
  rw [fld_eq_mod_div, Nat.mod_eq_of_lt value, Nat.pow_zero, Nat.div_one]

/-- Above the bits of a value there is nothing. -/
theorem fld_above {v l : Nat} (value : InWidth l v) (h : Nat) : fld v h l = 0 := by
  rw [fld, Nat.div_eq_of_lt value, Nat.zero_mod]

/-- Above its first field a word holds nothing. -/
theorem fld_beyond {fs : List (Nat × Nat)} {l : Nat} (beyond : width fs ≤ l) (fits : Fits fs) (h : Nat) :
    fld (pack fs) h l = 0 :=
  fld_above (lt_of_lt_of_le (pack_lt fits) (Nat.pow_le_pow_right (by decide) beyond)) h

/-! ### Fields that hold a multiple -/

/-- A value that stands k bits up is read from k upward. -/
theorem fld_shifted (v k : Nat) {h l : Nat} (inside : k ≤ l) (some_bit : l ≤ h) :
    fld (v * 2 ^ k) h l = fld v (h - k) (l - k) := by
  obtain ⟨j, rfl⟩ := Nat.exists_eq_add_of_le inside
  rw [fld, fld, Nat.pow_add, Nat.mul_comm v, Nat.mul_div_mul_left _ _ (Nat.two_pow_pos k), Nat.add_sub_cancel_left]
  congr 2
  omega

theorem fld_under (v k : Nat) {h : Nat} (under : h < k) (l : Nat) : fld (v * 2 ^ k) h l = 0 := by
  rw [fld_eq_mod_div, Nat.mod_eq_zero_of_dvd (Dvd.dvd.mul_left (Nat.pow_dvd_pow 2 under) v), Nat.zero_div]

/-- A whole register (04 R74). -/
theorem fld_whole (z : BitVec 3) :
    InWidth 12 (z.toNat * 512) ∧ fld (z.toNat * 512) 11 9 = z.toNat ∧ fld (z.toNat * 512) 8 0 = 0 := by
  refine ⟨?_, ?_, fld_under z.toNat 9 (by decide) 0⟩
  · exact inWidth_of_lt (by omega)
  · exact (fld_shifted z.toNat 9 (by decide) (by decide)).trans (fld_of_inWidth (inWidth_toNat z))

/-- A function code over an empty field (04 R88). -/
theorem fld_fn {fn : Nat} (small : InWidth 6 fn) : InWidth 12 (fn * 64) ∧ fld (fn * 64) 11 6 = fn ∧ fld (fn * 64) 5 0 = 0 := by
  have bound : fn < 64 := small
  refine ⟨inWidth_of_lt (by omega), ?_, fld_under fn 6 (by decide) 0⟩
  exact (fld_shifted fn 6 (by decide) (by decide)).trans (fld_of_inWidth small)

/-! ### A word of which only the lowest bits matter -/

/-- A word whose lowest bits are packed of some fields. -/
def Holds (w : Nat) (fs : List (Nat × Nat)) : Prop := w % 2 ^ width fs = pack fs

theorem holds_append {gs : List (Nat × Nat)} (fs : List (Nat × Nat)) (fits : Fits gs) : Holds (pack (fs ++ gs)) gs := by
  rw [Holds, pack, List.foldl_append, foldl_pack, Nat.mul_add_mod_self_right, Nat.mod_eq_of_lt (pack_lt fits)]

theorem Holds.fld {w : Nat} {fs : List (Nat × Nat)} (holds : Holds w fs) {h : Nat} (inside : h < width fs) (l : Nat) :
    fld w h l = Sys2Proof.fld (pack fs) h l := by
  have bits : w % 2 ^ (h + 1) = pack fs % 2 ^ (h + 1) := by
    rw [← show w % 2 ^ width fs = pack fs from holds, Nat.mod_mod_of_dvd _ (Nat.pow_dvd_pow 2 inside)]
  rw [fld_eq_mod_div, fld_eq_mod_div, bits]

theorem fb_eq_fld {n : Nat} (some_bit : 0 < n) (w l : Nat) : fb n w l = BitVec.ofNat n (fld w (l + n - 1) l) := by
  rw [fb, fld, show l + n - 1 + 1 - l = n by omega]
  exact BitVec.eq_of_toNat_eq (by simp)

theorem Holds.fb {w : Nat} {fs : List (Nat × Nat)} (holds : Holds w fs) {n : Nat} (l : Nat) (some_bit : 0 < n)
    (inside : l + n ≤ width fs) : fb n w l = BitVec.ofNat n (Sys2Proof.fld (pack fs) (l + n - 1) l) := by
  rw [fb_eq_fld some_bit, holds.fld (by omega)]

end Sys2Proof.Proofs.Fields

/-!
SUPPORT. The codes of the fields (04 R73 to R93): each fits its field and is read as the value it stands for, and so is a frame
operand in a position that accepts it.
-/

namespace Sys2Proof.Proofs.Codes

open Sys2Proof.Proofs.Fields

/-! ### Codes of one field -/

@[simp] theorem inWidth_engine (x : Engine) : InWidth 2 x.code := inWidth_of_blt (by cases x <;> rfl)
@[simp] theorem inWidth_scope (x : Scope) : InWidth 3 x.code := inWidth_of_blt (by cases x <;> rfl)
@[simp] theorem inWidth_ty (x : Ty) : InWidth 4 x.code := inWidth_of_blt (by cases x <;> rfl)
@[simp] theorem inWidth_rnd (x : Rnd) : InWidth 3 x.code := inWidth_of_blt (by cases x <;> rfl)
@[simp] theorem inWidth_cond (x : Cond) : InWidth 3 x.code := inWidth_of_blt (by cases x <;> rfl)
@[simp] theorem inWidth_width (x : Width) : InWidth 3 x.code := inWidth_of_blt (by cases x <;> rfl)
@[simp] theorem inWidth_atomOrd (x : AtomOrd) : InWidth 2 x.code := inWidth_of_blt (by cases x <;> rfl)
@[simp] theorem inWidth_pathClass (x : PathClass) : InWidth 3 x.code := inWidth_of_blt (by cases x <;> rfl)
@[simp] theorem inWidth_endKind (x : EndKind) : InWidth 2 x.code := inWidth_of_blt (by cases x <;> rfl)
@[simp] theorem inWidth_rop (x : Rop) : InWidth 4 x.code := inWidth_of_blt (by cases x <;> rfl)
@[simp] theorem inWidth_redOp (x : RedOp) : InWidth 6 x.code := inWidth_of_blt (by cases x <;> rfl)
@[simp] theorem inWidth_csr (x : Csr) : InWidth 12 x.code := inWidth_of_blt (by cases x <;> rfl)

@[simp] theorem engine_ofCode_code (x : Engine) : Engine.ofCode x.code = x := by cases x <;> rfl
@[simp] theorem scope_ofCode_code (x : Scope) : Scope.ofCode x.code = some x := by cases x <;> rfl
@[simp] theorem ty_ofCode_code (x : Ty) : Ty.ofCode x.code = some x := by cases x <;> rfl
@[simp] theorem rnd_ofCode_code (x : Rnd) : Rnd.ofCode x.code = some x := by cases x <;> rfl
@[simp] theorem cond_ofCode_code (x : Cond) : Cond.ofCode x.code = x := by cases x <;> rfl
@[simp] theorem width_ofCode_code (x : Width) : Width.ofCode x.code = some x := by cases x <;> rfl
@[simp] theorem atomOrd_ofCode_code (x : AtomOrd) : AtomOrd.ofCode x.code = x := by cases x <;> rfl
@[simp] theorem pathClass_ofCode_code (x : PathClass) : PathClass.ofCode x.code = some x := by cases x <;> rfl
@[simp] theorem endKindOf_code (x : EndKind) : endKindOf x.code = x := by cases x <;> rfl
@[simp] theorem rop_ofCode_code (x : Rop) : Rop.ofCode x.code = some x := by cases x <;> rfl
@[simp] theorem csr_ofCode_code (x : Csr) : Csr.ofCode x.code = some x := by cases x <;> rfl
@[simp] theorem vcond_ofCode_code (x : VCond) : VCond.ofCode x.code = x := by cases x <;> rfl
@[simp] theorem redOp_ofCode_code (x : RedOp) : RedOp.ofCode x.code = some x := by cases x <;> rfl

/-- WACQ and WREL hold their scope in a field of 4 bits (04 R82). -/
@[simp] theorem inWidth_scope_wide (x : Scope) : InWidth 4 x.code := inWidth_mono (inWidth_scope x) (by decide)

/-- VCVT holds its source type in a field of 12 bits (18 R433). -/
@[simp] theorem inWidth_ty_wide (x : Ty) : InWidth 12 x.code := inWidth_mono (inWidth_ty x) (by decide)

/-- VBCST holds its lane in a field of 12 bits (04 R88). -/
@[simp] theorem inWidth_lane_wide (l : BitVec 7) : InWidth 12 l.toNat := inWidth_mono (inWidth_toNat l) (by decide)

/-- The rounding mode of an operation that accepts no other (04 R77). -/
@[simp] theorem rnd_ofCode_zero : Rnd.ofCode 0 = some .rne := rfl

@[simp] theorem inWidth_ldOrd_fst (o : LdOrd) : InWidth 2 o.codes.1 := inWidth_of_blt (by cases o <;> rfl)
@[simp] theorem inWidth_stOrd_fst (o : StOrd) : InWidth 2 o.codes.1 := inWidth_of_blt (by cases o <;> rfl)

@[simp] theorem inWidth_ldOrd_snd (o : LdOrd) : InWidth 3 o.codes.2 := by
  cases o with
  | plain => exact inWidth_zero 3
  | acq s | sc s => exact inWidth_scope s

@[simp] theorem inWidth_stOrd_snd (o : StOrd) : InWidth 3 o.codes.2 := by
  cases o with
  | plain => exact inWidth_zero 3
  | rel s | sc s => exact inWidth_scope s

/-! ### Queues (04 R73) -/

@[simp] theorem inWidth_queue (q : Queue) : InWidth 4 q.code := by
  cases q <;> simp only [Queue.code, InWidth] <;> omega

@[simp] theorem queue_ofCode_code (q : Queue) : Queue.ofCode q.code = some q := by
  cases q with
  | qw => rfl
  | qa i => simp [Queue.ofCode, Queue.code, i.isLt]
  | qv i =>
    have := i.isLt
    simp [Queue.ofCode, Queue.code, show 4 + i.toNat < 8 by omega]
  | qs i =>
    have := i.isLt
    rw [Queue.code, Queue.ofCode, if_neg (by omega), if_neg (by omega), if_neg (by omega), if_neg (by omega), if_pos (by omega)]
    simp

@[simp] theorem in?_inQueue (q : InQueue) : q.queue.in? = some q := by cases q <;> rfl

/-! ### Frame operands (04 R73, R74) -/

/-- What the operand of a source position names. -/
def srcOpnd : VSrc → Opnd
  | .vec f => .vec f | .qv i => .queue (.qv i) | .bcast g => .bcast g

/-- What the operand of a destination position names. -/
def dstOpnd : VDst → Opnd
  | .vec f => .vec f | .qs i => .queue (.qs i)

/-- What the operand of VPUSH names. -/
def pushOpnd : PushSrc → Opnd
  | .vec f => .vec f | .bcast g => .bcast g

@[simp] theorem inWidth_fvec (f : FVec) : InWidth 12 f.field := by
  obtain ⟨z, dir, i⟩ := f
  cases dir <;> simp only [FVec.field, Dir.code, InWidth] <;> omega

@[simp] theorem inWidth_queueField (q : Queue) : InWidth 12 q.field := by
  have small : q.code < 16 := inWidth_queue q
  simp only [Queue.field, InWidth]
  omega

@[simp] theorem inWidth_bcastField (g : BitVec 4) : InWidth 12 (bcastField g) := by
  simp only [bcastField, InWidth]
  omega

@[simp] theorem inWidth_vsrc (a : VSrc) : InWidth 12 a.field := by
  cases a with
  | vec f => exact inWidth_fvec f
  | qv i => exact inWidth_queueField _
  | bcast g => exact inWidth_bcastField g

@[simp] theorem inWidth_vdst (d : VDst) : InWidth 12 d.field := by
  cases d with
  | vec f => exact inWidth_fvec f
  | qs i => exact inWidth_queueField _

@[simp] theorem inWidth_push (a : PushSrc) : InWidth 12 a.field := by
  cases a with
  | vec f => exact inWidth_fvec f
  | bcast g => exact inWidth_bcastField g

theorem dir_code_lt (x : Dir) : x.code < 3 := Nat.le_of_ble_eq_true (by cases x <;> rfl)

@[simp] theorem ofField_fvec (f : FVec) : Opnd.ofField f.field = some (.vec f) := by
  obtain ⟨z, dir, i⟩ := f
  have hi := i.isLt
  have hd := dir_code_lt dir
  have kind : FVec.field ⟨z, dir, i⟩ / 128 % 4 = dir.code := by simp only [FVec.field]; omega
  have reg : FVec.field ⟨z, dir, i⟩ / 512 = z.toNat := by simp only [FVec.field]; omega
  have idx : FVec.field ⟨z, dir, i⟩ % 128 = i.toNat := by simp only [FVec.field]; omega
  simp only [Opnd.ofField, kind, reg, idx]
  cases dir <;> simp [Dir.code]

@[simp] theorem ofField_queue (q : Queue) : Opnd.ofField q.field = some (.queue q) := by
  have small : q.code < 16 := inWidth_queue q
  simp [Opnd.ofField, Queue.field, show (384 + q.code) / 128 % 4 = 3 by omega, show (384 + q.code) / 16 % 8 = 0 by omega,
    show (384 + q.code) / 512 % 8 = 0 by omega, show (384 + q.code) % 16 = q.code by omega]

@[simp] theorem ofField_bcast (g : BitVec 4) : Opnd.ofField (bcastField g) = some (.bcast g) := by
  have := g.isLt
  simp [Opnd.ofField, bcastField, show (896 + g.toNat) / 128 % 4 = 3 by omega, show (896 + g.toNat) / 16 % 8 = 0 by omega,
    show (896 + g.toNat) / 512 % 8 = 1 by omega, show (896 + g.toNat) % 16 = g.toNat by omega]

@[simp] theorem ofField_vsrc (a : VSrc) : Opnd.ofField a.field = some (srcOpnd a) := by
  cases a with
  | vec f => exact ofField_fvec f
  | qv i => exact ofField_queue _
  | bcast g => exact ofField_bcast g

@[simp] theorem ofField_vdst (d : VDst) : Opnd.ofField d.field = some (dstOpnd d) := by
  cases d with
  | vec f => exact ofField_fvec f
  | qs i => exact ofField_queue _

@[simp] theorem ofField_push (a : PushSrc) : Opnd.ofField a.field = some (pushOpnd a) := by
  cases a with
  | vec f => exact ofField_fvec f
  | bcast g => exact ofField_bcast g

@[simp] theorem vsrc?_srcOpnd (a : VSrc) : (srcOpnd a).vsrc? = some a := by cases a <;> rfl
@[simp] theorem vdst?_dstOpnd (d : VDst) : (dstOpnd d).vdst? = some d := by cases d <;> rfl
@[simp] theorem in?_queue (q : InQueue) : (Opnd.queue q.queue).in? = some q := in?_inQueue q
@[simp] theorem qs?_queue (i : BitVec 2) : (Opnd.queue (.qs i)).qs? = some i := rfl
@[simp] theorem qv?_queue (i : BitVec 2) : (Opnd.queue (.qv i)).qv? = some i := rfl
@[simp] theorem fvec?_vec (f : FVec) : (Opnd.vec f).fvec? = some f := rfl
@[simp] theorem bcast?_bcast (g : BitVec 4) : (Opnd.bcast g).bcast? = some g := rfl
@[simp] theorem push?_pushOpnd (a : PushSrc) : (pushOpnd a).push? = some a := by cases a <;> rfl

/-! ### Codes that a check compares -/

@[simp] theorem rop_code_lt (x : Rop) : x.code < 4 := Nat.le_of_ble_eq_true (by cases x <;> rfl)
@[simp] theorem ty_code_ne (x : Ty) : (x.code != 15) = true := by cases x <;> rfl
@[simp] theorem endKind_code_ne_two (x : EndKind) : (x.code != 2) = true := by cases x <;> rfl
@[simp] theorem endKind_code_ne_three (x : EndKind) : (x.code != 3) = true := by cases x <;> rfl

/-! ### Checks that pass -/

@[simp] theorem toNat_beq_one (b : Bool) : (b.toNat == 1) = b := by cases b <;> rfl

@[simp] theorem need_true {α : Type} (cause : Nat) (k : Except Nat α) : need true cause k = k := rfl
@[simp] theorem needSome_some {α β : Type} (a : α) (cause : Nat) (k : α → Except Nat β) :
    needSome (some a) cause k = k a := rfl

@[simp] theorem zeros_eq_need {α : Type} (w h l : Nat) (k : Except Nat α) :
    zeros w h l k = need (fld w h l == 0) Cause.rsvdField k := rfl

end Sys2Proof.Proofs.Codes

/-!
SUPPORT. The decoder and the encoder (04 R68, R99 to R101). An instruction of one or two words comes back from them if the reader
of its major reads it from their fields; then each engine's instructions, format by format.
-/

namespace Sys2Proof.Proofs.Decoding

open Sys2Proof.Proofs.Fields Sys2Proof.Proofs.Codes

/-- Decoding what the encoder writes gives the instruction back, for every engine that can be given it. -/
def RoundTrip (i : Instr) : Prop :=
  ∀ e b, i.wf e = true → (e = .exe ∨ b = true) → decode e ((encode b i).headD 0) ((encode b i).getD 1 0) = .ok i

/-- An event has no words and no engine. -/
theorem roundTrip_event {i : Instr} (event : i.engines = []) : RoundTrip i := by
  intro e b wf
  simp [Instr.wf, event] at wf

/-! ### First words -/

theorem holds_word0 (s : Bool) (maj : Nat) {fs : List (Nat × Nat)} (fits : Fits fs) : Holds (word0 s maj fs) fs :=
  holds_append [(1, s.toNat), (7, maj)] fits

theorem holds_word1 (s : Bool) {fs : List (Nat × Nat)} (fits : Fits fs) : Holds (word1 s fs) fs :=
  holds_append [(1, s.toNat)] fits

/-- The major opcode of a first word. -/
theorem major_word0 (s : Bool) {maj : Nat} {fs : List (Nat × Nat)} (major : InWidth 7 maj) (full : width fs = 24)
    (fits : Fits fs) : fld (word0 s maj fs) 30 24 = maj := by
  simp [word0, full, major, fits]

theorem s_word0 (s : Bool) {maj : Nat} {fs : List (Nat × Nat)} (major : InWidth 7 maj) (full : width fs = 24) (fits : Fits fs) :
    fld (word0 s maj fs) 31 31 = s.toNat := by
  simp [word0, full, major, fits]

theorem s_word1 (s : Bool) {fs : List (Nat × Nat)} (full : width fs = 31) (fits : Fits fs) :
    fld (word1 s fs) 31 31 = s.toNat := by
  simp [word1, full, fits]

/-! ### Decoding -/

theorem wf_iff (e : Engine) (i : Instr) :
    i.wf e = true ↔ i.engines.contains e = true ∧ i.encodable = true ∧ i.operandTrap e = none := by
  simp only [Instr.wf, Bool.and_eq_true, beq_iff_eq, and_assoc]

theorem typesOk_of_operandTrap {e : Engine} {i : Instr} (trap : i.operandTrap e = none) : i.typesOk = true := by
  cases types : i.typesOk with
  | true => rfl
  | false => simp [Instr.operandTrap, types] at trap

/-- The checks 3 to 6 of 04 R101 pass where the major is one that the engine accepts, S is 1 outside EXE, and the two words of an
instruction agree on it. -/
theorem decode_of_read {e : Engine} {i : Instr} {b : Bool} {maj w0 w1 : Nat} (given : (majorEngines maj).contains e = true)
    (major : fld w0 30 24 = maj) (s : fld w0 31 31 = b.toNat) (same : twoWord maj = true → fld w1 31 31 = b.toNat)
    (closed : e = .exe ∨ b = true) (trap : i.operandTrap e = none) (read : readFields maj w0 w1 = .ok i) :
    decode e w0 w1 = .ok i := by
  have some_engine : majorEngines maj ≠ [] := by
    intro none
    simp [none] at given
  have s_outside : (e != .exe && fld w0 31 31 == 0) = false := by
    rcases closed with rfl | rfl
    · rfl
    · simp [s]
  have s_agrees : (twoWord maj && fld w0 31 31 != fld w1 31 31) = false := by
    cases two : twoWord maj
    · rfl
    · simp [s, same two]
  have fields : readInstr e w0 w1 = .ok i := by
    simp only [readInstr, major, some_engine, given, read, s_outside, s_agrees, Bool.or_self, Bool.not_true, Bool.false_eq_true,
      if_false]
  simp only [decode, fields, trap]

/-- An instruction of one word. -/
theorem oneWord {i : Instr} (maj : Nat) {fs : List (Nat × Nat)} (words : ∀ s, encode s i = [word0 s maj fs])
    (read : ∀ w, Holds w fs → i.typesOk = true → i.encodable = true → readFields maj w 0 = .ok i)
    (fits : Fits fs := by simp) (full : width fs = 24 := by rfl) (engines : majorEngines maj = i.engines := by rfl)
    (major : InWidth 7 maj := by exact inWidth_of_blt rfl) (single : twoWord maj = false := by rfl) : RoundTrip i := by
  intro e b wf closed
  obtain ⟨given, encodable, trap⟩ := (wf_iff e i).mp wf
  rw [words b]
  exact decode_of_read (engines ▸ given) (major_word0 b major full fits) (s_word0 b major full fits) (by simp [single]) closed
    trap (read _ (holds_word0 b maj fits) (typesOk_of_operandTrap trap) encodable)

/-- An instruction of two words. -/
theorem twoWords {i : Instr} (maj : Nat) {fs gs : List (Nat × Nat)} (words : ∀ s, encode s i = [word0 s maj fs, word1 s gs])
    (read : ∀ w0 w1, Holds w0 fs → Holds w1 gs → i.typesOk = true → i.encodable = true → readFields maj w0 w1 = .ok i)
    (fits : Fits fs := by simp) (fits1 : Fits gs := by simp) (full : width fs = 24 := by rfl) (full1 : width gs = 31 := by rfl)
    (engines : majorEngines maj = i.engines := by rfl) (major : InWidth 7 maj := by exact inWidth_of_blt rfl) : RoundTrip i := by
  intro e b wf closed
  obtain ⟨given, encodable, trap⟩ := (wf_iff e i).mp wf
  rw [words b]
  exact decode_of_read (engines ▸ given) (major_word0 b major full fits) (s_word0 b major full fits)
    (fun _ => s_word1 b full1 fits1) closed trap
    (read _ _ (holds_word0 b maj fits) (holds_word1 b fits1) (typesOk_of_operandTrap trap) encodable)

/-! ### Words without fields -/

/-- Z format (04 R82). -/
theorem roundTrip_bare {i : Instr} {maj : Nat} (words : ∀ s, encode s i = encZ s maj)
    (read : ∀ w, readFields maj w 0 = zeros w 23 0 (.ok i)) (engines : majorEngines maj = i.engines := by rfl)
    (major : InWidth 7 maj := by simp) (single : twoWord maj = false := by rfl) : RoundTrip i :=
  oneWord maj words (fun w h _ _ => by simp [read, h.fld]) (engines := engines) (major := major) (single := single)

/-! ### The ALU family (04 R86) -/

/-- Three registers and no condition. -/
theorem roundTrip_alu {i : Instr} {d a b : GReg} {fn : Nat} (words : ∀ s, encode s i = encRR s d a b 0 fn)
    (read : ∀ w, fld w 5 0 = fn → fb 5 w 19 = d → fb 5 w 14 = a → fb 5 w 9 = b → readAlu w = zeros w 8 6 (.ok i))
    (small : InWidth 6 fn := by simp) (engines : majorEngines 0x10 = i.engines := by rfl) : RoundTrip i :=
  oneWord 0x10 words (fun w h _ _ => by
    have alu : readAlu w = zeros w 8 6 (.ok i) := by apply read <;> simp [h.fld, h.fb, small]
    simp [readFields, alu, h.fld, small]) (fits := by simp [small]) (engines := engines)

/-- Two registers. -/
theorem roundTrip_alu_two {i : Instr} {d a : GReg} {fn : Nat} (words : ∀ s, encode s i = encRR s d a 0 0 fn)
    (read : ∀ w, fld w 5 0 = fn → fb 5 w 19 = d → fb 5 w 14 = a → readAlu w = zeros w 13 9 (zeros w 8 6 (.ok i)))
    (small : InWidth 6 fn := by simp) (engines : majorEngines 0x10 = i.engines := by rfl) : RoundTrip i :=
  oneWord 0x10 words (fun w h _ _ => by
    have alu : readAlu w = zeros w 13 9 (zeros w 8 6 (.ok i)) := by apply read <;> simp [h.fld, h.fb, small]
    simp [readFields, alu, h.fld, small]) (fits := by simp [small]) (engines := engines)

/-! ### Immediates (04 R82) -/

/-- RI format with an immediate of 14 bits. -/
theorem roundTrip_imm {i : Instr} {maj : Nat} {d a : GReg} {imm : BitVec 14} (words : ∀ s, encode s i = encRI s maj d a imm.toNat)
    (read : ∀ w, fb 5 w 19 = d → fb 5 w 14 = a → fb 14 w 0 = imm → readFields maj w 0 = .ok i)
    (engines : majorEngines maj = i.engines := by rfl) (major : InWidth 7 maj := by simp) (single : twoWord maj = false := by rfl) :
    RoundTrip i :=
  oneWord maj words (fun w h _ _ => by apply read <;> simp [h.fb]) (engines := engines) (major := major) (single := single)

/-- RI format with a shift count. -/
theorem roundTrip_shift {i : Instr} {maj : Nat} {d a : GReg} {n : BitVec 6} (words : ∀ s, encode s i = encRI s maj d a n.toNat)
    (read : ∀ w, fb 5 w 19 = d → fb 5 w 14 = a → fb 6 w 0 = n → readFields maj w 0 = zeros w 13 6 (.ok i))
    (engines : majorEngines maj = i.engines := by rfl) (major : InWidth 7 maj := by simp) (single : twoWord maj = false := by rfl) :
    RoundTrip i := by
  have wide : InWidth 14 n.toNat := inWidth_mono (inWidth_toNat n) (by decide)
  refine oneWord maj words (fun w h _ _ => ?_) (fits := by simp [wide]) (engines := engines) (major := major) (single := single)
  have count : fld w 5 0 = n.toNat := by simp [h.fld, fld_within, fld_of_inWidth]
  have rest : fld w 13 6 = 0 := by simp [h.fld, fld_within, fld_above]
  rw [read w (by simp [h.fb, wide]) (by simp [h.fb, wide]) (by simp [fb_eq_fld, count]), zeros_eq_need, rest]
  rfl

/-! ### Tokens (04 R83) -/

/-- A count in the word (m = 0). -/
theorem roundTrip_token_imm {i : Instr} {maj : Nat} {k : BitVec 3} {n : BitVec 8} {imm : BitVec 3 → BitVec 8 → Instr}
    {reg : BitVec 3 → GReg → Instr}
    (words : ∀ s, encode s i = [word0 s maj [(3, k.toNat), (1, 0), (8, n.toNat), (5, 0), (7, 0)]])
    (read : ∀ w, readFields maj w 0 = readToken w imm reg) (form : imm k n = i) (engines : majorEngines maj = i.engines := by rfl)
    (major : InWidth 7 maj := by simp) (single : twoWord maj = false := by rfl) : RoundTrip i :=
  oneWord maj words (fun w h _ _ => by simp [read, readToken, h.fld, h.fb, form]) (engines := engines) (major := major)
    (single := single)

/-- A count in a register (m = 1). -/
theorem roundTrip_token_reg {i : Instr} {maj : Nat} {k : BitVec 3} {a : GReg} {imm : BitVec 3 → BitVec 8 → Instr}
    {reg : BitVec 3 → GReg → Instr}
    (words : ∀ s, encode s i = [word0 s maj [(3, k.toNat), (1, 1), (8, 0), (5, a.toNat), (7, 0)]])
    (read : ∀ w, readFields maj w 0 = readToken w imm reg) (form : reg k a = i) (engines : majorEngines maj = i.engines := by rfl)
    (major : InWidth 7 maj := by simp) (single : twoWord maj = false := by rfl) : RoundTrip i :=
  oneWord maj words (fun w h _ _ => by simp [read, readToken, h.fld, h.fb, form]) (engines := engines) (major := major)
    (single := single)

/-! ### Instructions of every engine -/

theorem roundTrip_everyEngine {i : Instr} (only : i.engines = [.ctl, .lda, .exe, .sta]) : RoundTrip i := by
  cases i with
  | nop | rdv => exact roundTrip_bare (fun _ => rfl) fun _ => rfl
  | grd r b sense span | movhi d hw imm | bfx d a l n | bfi d a l n =>
    exact oneWord _ (fun _ => rfl) fun w h _ _ => by simp [readFields, readScalar, h.fld, h.fb]
  | br delta word | loop a delta word | movi d imm =>
    exact oneWord _ (fun _ => rfl) fun w h _ _ => by simp [readFields, readScalar, h.fb]
  | add d a b | sub d a b | mul d a b | mulh d a b | mulhn d a b | div d a b | divn d a b | rem d a b | remn d a b | and d a b
  | or d a b | xor d a b | andn d a b | shl d a b | shr d a b | sar d a b | rotr d a b | min d a b | max d a b | minn d a b
  | maxn d a b => exact roundTrip_alu (fun _ => rfl) fun w fn d a b => by rw [readAlu, fn, d, a, b]; rfl
  | clz d a | ctz d a | popc d a | mov d a => exact roundTrip_alu_two (fun _ => rfl) fun w fn d a => by rw [readAlu, fn, d, a]; rfl
  | cmp d a b c => exact oneWord _ (fun _ => rfl) fun w h _ _ => by simp [readFields, readAlu, h.fld, h.fb]
  | addi d a imm | andi d a imm | ori d a imm | xori d a imm =>
    exact roundTrip_imm (fun _ => rfl) fun w d a imm => by subst d a imm; rfl
  | shli d a n | shri d a n | sari d a n => exact roundTrip_shift (fun _ => rfl) fun w d a n => by subst d a n; rfl
  | sigtImm k n | waittImm k n => exact roundTrip_token_imm (fun _ => rfl) (fun _ => rfl) rfl
  | sigtReg k a | waittReg k a => exact roundTrip_token_reg (fun _ => rfl) (fun _ => rfl) rfl
  | trap n payload => exact oneWord _ (fun _ => rfl) fun w h _ _ => by simp [readFields, readTask, h.fb]
  | _ => cases only

/-! ### Instructions of CTL, LDA and STA -/

theorem roundTrip_notExe {i : Instr} (only : i.engines = [.ctl, .lda, .sta]) : RoundTrip i := by
  cases i with
  | ret => exact roundTrip_bare (fun _ => rfl) fun _ => rfl
  | call delta word => exact oneWord _ (fun _ => rfl) fun w h _ _ => by simp [readFields, readScalar, h.fb]
  | jr a => exact oneWord _ (fun _ => rfl) fun w h _ _ => by simp [readFields, readScalar, h.fld, h.fb]
  | waitc c n | drain m => exact oneWord _ (fun _ => rfl) fun w h _ _ => by simp [readFields, readTask, h.fld, h.fb]
  | fence s | fenceAcq s | fenceRel s =>
    exact oneWord _ (fun _ => rfl) fun w h _ _ => by simp [readFields, readTask, readFence, scopeAt, h.fld]
  | fencex s p q => exact oneWord _ (fun _ => rfl) fun w h _ _ => by simp [readFields, readTask, readFencex, scopeAt, h.fld]
  | wacq a s | wrel a s =>
    exact oneWord _ (fun _ => rfl) fun w h _ _ => by
      simp [readFields, readUnit, scopeAt, h.fld, h.fb, fld_within, fld_above, fld_of_inWidth]
  | _ => cases only

/-! ### Instructions of CTL -/

/-- A FORK is encodable for a stream engine only. -/
theorem roundTrip_fork (e : Engine) (a b c : GReg) : RoundTrip (.fork e a b c) :=
  oneWord 0x20 (fun _ => rfl) fun w h _ encodable => by
    have stream : (e.code != 0) = true := by cases e <;> simp_all [Instr.encodable, Engine.code]
    simp [readFields, readTask, h.fld, h.fb, stream]

theorem roundTrip_ctl {i : Instr} (only : i.engines = [.ctl]) : RoundTrip i := by
  cases i with
  | yield | exit | tret => exact roundTrip_bare (fun _ => rfl) fun _ => rfl
  | fork e a b c => exact roundTrip_fork e a b c
  | bar s id => exact oneWord _ (fun _ => rfl) fun w h _ _ => by simp [readFields, readTask, scopeAt, h.fld, h.fb]
  | spawn d a b => exact oneWord _ (fun _ => rfl) fun w h _ _ => by simp [readFields, readTask, h.fld, h.fb]
  | csrr d c | csrw d a c | csrs d a c | csrc d a c =>
    exact oneWord _ (fun _ => rfl) fun w h _ _ => by simp [readFields, readTask, readCsr, h.fld, h.fb]
  | tlbiVa s a b | tlbiIpa s a b | tlbiAsid s b | tlbiS2Vd s b =>
    exact oneWord _ (fun _ => rfl) fun w h _ _ => by simp [readFields, readTask, readTlbi, scopeAt, h.fld, h.fb]
  | tlbiVd s => exact oneWord _ (fun _ => rfl) fun w h _ _ => by simp [readFields, readTask, readTlbi, scopeAt, h.fld]
  | bellset d a b c | bellclr a | bellqry d a | talloc n d a len lvl | tfree n | tdraft n d a | tcommit n d a | mjoin d a b
  | mclose d a b | rngadv a b => exact oneWord _ (fun _ => rfl) fun w h _ _ => by simp [readFields, readUnit, h.fld, h.fb]
  | _ => cases only

/-! ### Instructions of LDA -/

theorem roundTrip_waitv (d a b : GReg) (c : Cond) (wide : Bool) : RoundTrip (.waitv d a b c wide) := by
  have sub : InWidth 4 (c.code * 2 + wide.toNat) := inWidth_of_blt (by cases c <;> cases wide <;> rfl)
  have cond : fld (c.code * 2 + wide.toNat) 3 1 = c.code := by cases c <;> cases wide <;> rfl
  have width : fld (c.code * 2 + wide.toNat) 0 0 = wide.toNat := by cases c <;> cases wide <;> rfl
  refine oneWord _ (fun _ => rfl) (fun w h _ _ => ?_) (fits := by simp [sub])
  simp [readFields, readTask, h.fld, h.fb, fld_within, sub, cond, width]

theorem roundTrip_nest (ch : BitVec 2) (level : BitVec 3) (a b c : GReg) : RoundTrip (.nest ch level a b c) := by
  refine oneWord _ (fun _ => rfl) fun w h _ encodable => ?_
  have stride : level.toNat < 6 := by simpa [Instr.encodable] using encodable
  have special : level.toNat ≠ 6 ∧ level.toNat ≠ 7 := by omega
  simp [readFields, readUnit, readNest, h.fld, h.fb, special]

theorem roundTrip_lda {i : Instr} (only : i.engines = [.lda]) : RoundTrip i := by
  cases i with
  | waitv d a b c wide => exact roundTrip_waitv d a b c wide
  | ld t a w off => exact oneWord _ (fun _ => rfl) fun w h _ _ => by simp [readFields, readMem, widthAt, h.fld, h.fb]
  | ldLong t a w ord off =>
    exact twoWords _ (fun _ => rfl) fun w0 w1 h0 h1 _ _ => by
      cases ord <;> simp [readFields, readMem, widthAt, ldOrdAt, scopeAt, LdOrd.codes, h0.fld, h0.fb, h1.fb]
  | ldq q a off | ldr q a n => exact oneWord _ (fun _ => rfl) fun w h _ _ => by simp [readFields, readMem, opndAt, h.fld, h.fb]
  | mldr q a b c bf16 =>
    exact twoWords _ (fun _ => rfl) fun w0 w1 h0 h1 _ _ => by
      cases bf16 <;> simp [readFields, readMem, opndAt, h0.fld, h0.fb, h1.fld, h1.fb]
  | pref a off | prefTree a off => exact oneWord _ (fun _ => rfl) fun w h _ _ => by simp [readFields, readMem, h.fld, h.fb]
  | trd n a off q => exact oneWord _ (fun _ => rfl) fun w h _ _ => by simp [readFields, readUnit, h.fld, h.fb]
  | nest ch level a b c => exact roundTrip_nest ch level a b c
  | nestEvent ch a b => exact oneWord _ (fun _ => rfl) fun w h _ _ => by simp [readFields, readUnit, readNest, h.fld, h.fb]
  | copy ch d a b dk sk ctr | copyw ch d a b c dk sk ctr | copyg ch d a b c dk sk ctr | copys ch d a b c dk sk ctr =>
    exact twoWords _ (fun _ => rfl) fun w0 w1 h0 h1 _ _ => by
      simp [readFields, readUnit, readCopy, h0.fld, h0.fb, h1.fld, h1.fb, fld_beyond]
  | copyr ch d a b dk sk rop t ctr =>
    exact twoWords _ (fun _ => rfl) fun w0 w1 h0 h1 types _ => by
      rw [Instr.typesOk] at types
      simp [readFields, readUnit, readCopy, types, h0.fld, h0.fb, h1.fld, h1.fb]
  | wbf ch d a b sk ctr =>
    exact twoWords _ (fun _ => rfl) fun w0 w1 h0 h1 _ _ => by
      simp [readFields, readUnit, readCopy, h0.fld, h0.fb, h1.fld, h1.fb, fld_beyond]
  | mctb a b c => exact oneWord _ (fun _ => rfl) fun w h _ _ => by simp [readFields, readUnit, h.fld, h.fb]
  | _ => cases only

/-! ### Instructions of STA -/

theorem roundTrip_st (t a : GReg) (w : Width) (off : BitVec 11) : RoundTrip (.st t a w off) := by
  refine oneWord _ (fun _ => rfl) fun x h _ encodable => ?_
  have unsigned : fld w.code 2 2 = 0 := by cases w <;> simp_all [Instr.encodable, Width.code, fld]
  simp [readFields, readMem, widthAt, h.fld, h.fb, fld_within, unsigned]

theorem roundTrip_stLong (t a : GReg) (w : Width) (ord : StOrd) (off : BitVec 31) : RoundTrip (.stLong t a w ord off) := by
  refine twoWords _ (fun _ => rfl) fun w0 w1 h0 h1 _ encodable => ?_
  have unsigned : fld w.code 2 2 = 0 := by cases w <;> simp_all [Instr.encodable, Width.code, fld]
  cases ord <;> simp [readFields, readMem, widthAt, stOrdAt, scopeAt, StOrd.codes, h0.fld, h0.fb, h1.fb, fld_within, unsigned]

theorem roundTrip_sta {i : Instr} (only : i.engines = [.sta]) : RoundTrip i := by
  cases i with
  | st t a w off => exact roundTrip_st t a w off
  | stLong t a w ord off => exact roundTrip_stLong t a w ord off
  | stq q a off | str q a n => exact oneWord _ (fun _ => rfl) fun w h _ _ => by simp [readFields, readMem, opndAt, h.fld, h.fb]
  | atomSwap d a b s wide ord | atomAdd d a b s wide ord | atomAnd d a b s wide ord | atomOr d a b s wide ord
  | atomXor d a b s wide ord | atomMin d a b s wide ord | atomMax d a b s wide ord | atomMinn d a b s wide ord
  | atomMaxn d a b s wide ord | atomFadd d a b s ord =>
    exact twoWords _ (fun _ => rfl) fun w0 w1 h0 h1 _ _ => by
      simp [readFields, readMem, readAtom, scopeAt, Bool.toNat_le, h0.fld, h0.fb, h1.fld]
  | atomCas d a b c s wide ord =>
    exact twoWords _ (fun _ => rfl) fun w0 w1 h0 h1 _ _ => by
      simp [readFields, readMem, readAtom, scopeAt, Bool.toNat_le, h0.fld, h0.fb, h1.fld, h1.fb]
  | mst q a b n c =>
    exact twoWords _ (fun _ => rfl) fun w0 w1 h0 h1 _ _ => by simp [readFields, readMem, opndAt, h0.fld, h0.fb, h1.fld, h1.fb]
  | twr n a off q | tzero n a off nm1 => exact oneWord _ (fun _ => rfl) fun w h _ _ => by simp [readFields, readUnit, h.fld, h.fb]
  | _ => cases only

/-! ### Vector formats (04 R85, R88) -/

/-- Two sources: the function selects the reader's row, whose check of the types is the instruction's. -/
theorem roundTrip_vbin {i : Instr} {d : VDst} {a b : VSrc} {t : Ty} {r : Rnd} {fn : Nat} {ok : Bool}
    (words : ∀ s, encode s i = encVX s 0x60 d.field a.field b.field (fn * 64) t.code r.code)
    (read : ∀ x y z, x.vdst? = some d → y.vsrc? = some a → z.vsrc? = some b →
      readVbin x y z fn t r = need ok Cause.typeMode (.ok i))
    (types : i.typesOk = ok := by rfl) (assigned : (fn < 10 || (16 ≤ fn && fn < 24)) = true := by rfl)
    (engines : majorEngines 0x60 = i.engines := by rfl) : RoundTrip i := by
  have small : InWidth 6 fn := by
    simp only [Bool.or_eq_true, Bool.and_eq_true, decide_eq_true_eq] at assigned
    exact inWidth_of_lt (by omega)
  obtain ⟨wide, above, under⟩ := fld_fn small
  refine twoWords 0x60 words (fun w0 w1 h0 h1 ok _ => ?_) (fits1 := by simp [wide]) (engines := engines)
  have op : readVbin (dstOpnd d) (srcOpnd a) (srcOpnd b) fn t r = .ok i := by
    rw [read _ _ _ (vdst?_dstOpnd d) (vsrc?_srcOpnd a) (vsrc?_srcOpnd b), ← types, ok]
    rfl
  simp [readFields, readVx, opndAt, tyAt, rndAt, h0.fld, h1.fld, fld_within, wide, above, under, assigned, op]

/-- One source. -/
theorem roundTrip_vun {i : Instr} {d : VDst} {a : VSrc} {t : Ty} {r : Rnd} {fn : Nat} {ok : Bool}
    (words : ∀ s, encode s i = encVX s 0x61 d.field a.field 0 (fn * 64) t.code r.code)
    (read : ∀ x y, x.vdst? = some d → y.vsrc? = some a → readVun x y fn t r = need ok Cause.typeMode (.ok i))
    (types : i.typesOk = ok := by rfl) (assigned : (fn < 4 || (8 ≤ fn && fn < 14)) = true := by rfl)
    (engines : majorEngines 0x61 = i.engines := by rfl) : RoundTrip i := by
  have small : InWidth 6 fn := by
    simp only [Bool.or_eq_true, Bool.and_eq_true, decide_eq_true_eq] at assigned
    exact inWidth_of_lt (by omega)
  obtain ⟨wide, above, under⟩ := fld_fn small
  refine twoWords 0x61 words (fun w0 w1 h0 h1 ok _ => ?_) (fits1 := by simp [wide]) (engines := engines)
  have op : readVun (dstOpnd d) (srcOpnd a) fn t r = .ok i := by
    rw [read _ _ (vdst?_dstOpnd d) (vsrc?_srcOpnd a), ← types, ok]
    rfl
  simp [readFields, readVx, opndAt, tyAt, rndAt, h0.fld, h1.fld, fld_within, wide, above, under, assigned, op]

/-! ### Instructions of EXE -/

theorem roundTrip_mzero (z : ZTarget) : RoundTrip (.mzero z) := by
  cases z with
  | vec f => exact oneWord _ (fun _ => rfl) fun w h _ _ => by simp [readFields, readMatrix, opndAt, h.fld]
  | whole z =>
    obtain ⟨wide, reg, rest⟩ := fld_whole z
    exact oneWord _ (fun _ => rfl) (fun w h _ _ => by simp [readFields, readMatrix, h.fld, h.fb, fld_within, reg, rest])
      (fits := by simp [wide])

theorem roundTrip_selk (zi zv zs : BitVec 3) (g : BitVec 4) (t : Ty) : RoundTrip (.selk zi zv zs g t) := by
  obtain ⟨wi, ri, -⟩ := fld_whole zi
  obtain ⟨wv, rv, -⟩ := fld_whole zv
  obtain ⟨ws, rs, -⟩ := fld_whole zs
  refine twoWords 0x6F (fun _ => rfl) (fun w0 w1 h0 h1 types encodable => ?_) (fits := by simp [wi, ws]) (fits1 := by simp [wv])
  have differ : (zi.toNat * 512 != zv.toNat * 512) = true := by
    simpa [Instr.encodable, BitVec.toNat_inj] using encodable
  rw [Instr.typesOk] at types
  simp [readFields, readVx, opndAt, tyAt, rndAt, isWhole, types, differ, h0.fld, h0.fb, h1.fld, h1.fb, fld_within, wi, ws, wv,
    ri, rs, rv]

theorem roundTrip_exe {i : Instr} (only : i.engines = [.exe]) : RoundTrip i := by
  cases i with
  | wld t e =>
    exact oneWord _ (fun _ => rfl) fun w h types _ => by
      rw [Instr.typesOk] at types
      simp [readFields, readMatrix, tyAt, types, h.fld, h.fb]
  | mma z k t q ov =>
    exact oneWord _ (fun _ => rfl) fun w h types _ => by
      rw [Instr.typesOk] at types
      simp [readFields, readMatrix, opndAt, tyAt, rowOf, types, h.fld, h.fb]
  | mmat z k t q ov g off =>
    exact twoWords _ (fun _ => rfl) fun w0 w1 h0 h1 types _ => by
      rw [Instr.typesOk] at types
      simp [readFields, readMatrix, opndAt, tyAt, rowOf, types, h0.fld, h0.fb, h1.fld, h1.fb]
  | mzero z => exact roundTrip_mzero z
  | vadd d a b t r | vsub d a b t r | vmul d a b t r =>
    exact roundTrip_vbin (fun _ => rfl) fun x y z d a b => by unfold readVbin; rw [d, a, b]; rfl
  | vmin d a b t | vmax d a b t | vand d a b t | vor d a b t | vxor d a b t | vshl d a b t | vshr d a b t =>
    exact roundTrip_vbin (r := .rne) (fun _ => rfl) fun x y z d a b => by unfold readVbin; rw [d, a, b]; rfl
  | vcmp c d a b t =>
    cases c <;> exact roundTrip_vbin (r := .rne) (fun _ => rfl) fun x y z d a b => by unfold readVbin; rw [d, a, b]; rfl
  | vexp d a t r | vlog d a t r | vrcp d a t r | vrsq d a t r | vsqrt d a t r | vtanh d a t r =>
    exact roundTrip_vun (fun _ => rfl) fun x y d a => by unfold readVun; rw [d, a]; rfl
  | vabs d a t | vneg d a t | vnot d a t | vmov d a t =>
    exact roundTrip_vun (r := .rne) (fun _ => rfl) fun x y d a => by unfold readVun; rw [d, a]; rfl
  | vfma d a b c t r | vfms d a b c t r | vfnma d a b c t r | vqnt d a b g t r | vdq d a b t r | vlut d a b t r =>
    exact twoWords _ (fun _ => rfl) fun w0 w1 h0 h1 types _ => by
      rw [Instr.typesOk] at types
      simp [readFields, readVx, opndAt, tyAt, rndAt, types, h0.fld, h1.fld]
  | vmaxi d a t | rngv d t =>
    exact twoWords _ (fun _ => rfl) fun w0 w1 h0 h1 types _ => by
      rw [Instr.typesOk] at types
      simp [readFields, readVx, opndAt, tyAt, rndAt, types, h0.fld, h1.fld, fld_beyond]
  | vcvt d a dst src r =>
    exact twoWords _ (fun _ => rfl) fun w0 w1 h0 h1 types _ => by
      rw [Instr.typesOk] at types
      simp [readFields, readVx, opndAt, tyAt, rndAt, types, h0.fld, h1.fld, fld_within, fld_above, fld_of_inWidth]
  | vsel d a b c t =>
    exact twoWords _ (fun _ => rfl) fun w0 w1 h0 h1 _ _ => by
      simp [readFields, readVx, opndAt, tyAt, rndAt, okBitwise, h0.fld, h1.fld]
  | vred op d a t r | vscan op d a t r =>
    obtain ⟨wide, above, under⟩ := fld_fn (inWidth_redOp op)
    refine twoWords _ (fun _ => rfl) (fun w0 w1 h0 h1 types _ => ?_) (fits1 := by simp [wide])
    rw [Instr.typesOk] at types
    simp [readFields, readVx, opndAt, tyAt, rndAt, types, h0.fld, h1.fld, fld_within, fld_above wide, above, under]
  | vperm d a b => exact twoWords _ (fun _ => rfl) fun w0 w1 h0 h1 _ _ => by simp [readFields, readVx, opndAt, h0.fld, h1.fld]
  | vbcst d a lane =>
    exact twoWords _ (fun _ => rfl) fun w0 w1 h0 h1 _ _ => by
      simp [readFields, readVx, opndAt, h0.fld, h1.fld, h1.fb, fld_within, fld_above, fld_of_inWidth]
  | selk zi zv zs g t => exact roundTrip_selk zi zv zs g t
  | smpl d a g =>
    exact twoWords _ (fun _ => rfl) fun w0 w1 h0 h1 _ _ => by
      simp [readFields, readVx, opndAt, tyAt, rndAt, okSmpl, show Ty.ofCode 0 = some .f32 from rfl, h0.fld, h1.fld]
  | vpop f q | vpush q a => exact oneWord _ (fun _ => rfl) fun w h _ _ => by simp [readFields, readVq, opndAt, h.fld]
  | _ => cases only

/-! ### All instructions -/

/-- The sets of engines that accept an instruction (04 R97). -/
def engineSets : List (List Engine) := [[.ctl, .lda, .exe, .sta], [.ctl, .lda, .sta], [.ctl], [.lda], [.sta], [.exe], []]

theorem engines_mem (i : Instr) : i.engines ∈ engineSets := by
  have known : engineSets.contains i.engines = true := by cases i <;> rfl
  simpa using known

/-- Settles O5: an engine that can be given an instruction is one of those that accept it, and for each set of engines the rows of
its table come back; an event has no engine. -/
theorem roundTripAll : Obligations.RoundTripAll := by
  intro e i b wf closed
  refine (?_ : RoundTrip i) e b wf closed
  have mem := engines_mem i
  simp only [engineSets, List.mem_cons, List.not_mem_nil, or_false] at mem
  rcases mem with every | notExe | ctl | lda | sta | exe | event
  · exact roundTrip_everyEngine every
  · exact roundTrip_notExe notExe
  · exact roundTrip_ctl ctl
  · exact roundTrip_lda lda
  · exact roundTrip_sta sta
  · exact roundTrip_exe exe
  · exact roundTrip_event event

end Sys2Proof.Proofs.Decoding

/-!
SUPPORT. Words of the manual: each is what the encoder writes for its instruction.
-/

namespace Sys2Proof.Proofs.Samples

open Sys2Proof.Proofs.Decoding

/-- A word that the encoder writes for an instruction of an engine, with S = 1, decodes to it. -/
theorem decode_of_encode {e : Engine} {i : Instr} {w : Nat} (wf : i.wf e = true) (word : encode true i = [w]) :
    decode e w 0 = .ok i := by
  simpa [word] using roundTripAll e i true wf (.inr rfl)

/-- Settles O6: each word is what the encoder writes for its instruction. -/
theorem decodeSamples : Obligations.DecodeSamples :=
  ⟨decode_of_encode rfl rfl, decode_of_encode rfl rfl, decode_of_encode rfl rfl, decode_of_encode rfl rfl,
    decode_of_encode rfl rfl, decode_of_encode rfl rfl⟩

end Sys2Proof.Proofs.Samples

/-!
SUPPORT. One slot of CTL, LDA or STA (04 R94, R95): what its guard lets it run, and what it leaves of the guard's span.
-/

namespace Sys2Proof.Proofs.WordSlot

open Sys2Proof.Machine Sys2Proof.Proofs.Bundle Sys2Proof.Laws

/-! ### Guards -/

/-- Neither a GRD nor a TRET, which no guard covers (04 R95). -/
def coverable : Instr → Bool
  | .grd _ _ _ _ | .tret => false
  | _ => true

/-- Whether what is left of a span covers an instruction (04 R94, R95). -/
def covered (i : Instr) (s : State) : Bool := 0 < s.eng.guardLeft && coverable i

/-- Whether an instruction runs (04 R94, R95): nothing covers it, its guard holds, or it is an RDV. -/
def live (i : Instr) (s : State) : Bool := !covered i s || s.eng.guardVal || match i with | .rdv => true | _ => false

/-- The state in which an instruction runs: a covered TRAP has left its place in the span. -/
def ahead (i : Instr) (s : State) : State :=
  if covered i s && match i with | .trap _ _ => true | _ => false then s.setGuard (s.eng.guardLeft - 1) s.eng.guardVal else s

/-- What a covered instruction leaves of the span of its guard. -/
def leaves (x : Eng) (t : State) : State :=
  match t.cur.status with
  | .issued => t.setGuard (x.guardLeft - 1) x.guardVal
  | .stalled _ | .empty => t.setGuard x.guardLeft x.guardVal
  | _ => t

/-- What the slot of an instruction leaves, of what its execution left. -/
def slotEnd (i : Instr) (s t : State) : State := if !covered i s then t else leaves s.eng t

/-- An answer in whose state a last change is made. -/
def thenLeft (f : State → State) : Result State → Result State
  | .next t => .next (f t)
  | r => r

/-- The slot of an instruction that passes the checks made before its guard. -/
def wordSlot (i : Instr) (s : State) : Result State :=
  thenLeft (fun t => slotEnd i s (if live i s then t.offering i else t))
    (if live i s then exec i (ahead i s) else .next s.falseSlot)

theorem runWord_wordSlot {u : State} {l : Line} {i : Instr} (err : u.cur.err = none) (reads : u.reads l i) :
    u.runWord l = wordSlot i (u.atWord l) := by
  obtain ⟨read, form⟩ := reads
  unfold State.runWord
  dsimp only
  split
  · next b bad => cases read.symm.trans bad
  · next j good =>
    cases read.symm.trans good
    split
    · next trap => cases trap.symm.trans form
    · split
      · next some => cases err.symm.trans some
      · rfl

/-- The step in which a sequencer other than EXE takes its turn is the slot of the instruction at its code pointer, and its end. -/
theorem step_wordSlot {s u : State} {core uid : Nat} {en : Engine} {rest : List Action} {l : Line} {i : Instr} (other : en ≠ .exe)
    (turn : s.turn core uid en rest l u) (err : u.cur.err = none) (reads : u.reads l i) :
    step s = finished (wordSlot i (u.atWord l)) := by
  rw [step_of_turn turn, State.attempt, if_neg other, runWord_wordSlot err reads]

/-! ### What a slot does -/

/-- An instruction that nothing covers runs, and the span is left as the instruction leaves it. -/
theorem wordSlot_free {i : Instr} {s : State} (free : covered i s = false) :
    wordSlot i s = thenLeft (fun t => t.offering i) (exec i s) := by
  simp [wordSlot, live, ahead, slotEnd, free]

/-- Only a TRAP leaves its place in the span before it runs. -/
theorem ahead_of_ne_trap {i : Instr} (no_trap : ∀ n p, i ≠ .trap n p) (s : State) : ahead i s = s := by
  unfold ahead
  split
  · next n p => exact absurd rfl (no_trap n p)
  · simp

/-- A covered instruction that runs leaves its place in the span. -/
theorem wordSlot_covered {i : Instr} {s : State} (cover : covered i s = true) (runs : live i s = true) :
    wordSlot i s = thenLeft (fun t => leaves s.eng (t.offering i)) (exec i (ahead i s)) := by
  simp [wordSlot, slotEnd, cover, runs]

/-- A covered instruction that does not run leaves what lands in its slot. -/
theorem wordSlot_false {i : Instr} {s : State} (cover : covered i s = true) (runs : live i s = false) :
    wordSlot i s = .next (leaves s.eng s.falseSlot) := by
  simp [wordSlot, slotEnd, cover, runs, thenLeft]

/-! ### TRAP (12 R270, 17 R406) -/

/-- What TRAP leaves where it is admitted: a slot that has ended, its trap taken. -/
theorem exec_trap_admits {n : BitVec 5} {p : BitVec 19} {s : State} (admitted : s.admits (.trap n p) none = true) :
    ∃ t, exec (.trap n p) s = .next t ∧ t.cur.status = .gone :=
  ⟨_, issue_admits admitted noCheck _ rfl, rfl⟩

theorem offering_of_gone {t : State} (gone : t.cur.status = .gone) (i : Instr) : t.offering i = t := by
  rw [State.offering, gone]

theorem leaves_of_gone {x : Eng} {t : State} (gone : t.cur.status = .gone) : leaves x t = t := by
  rw [leaves, gone]

/-- A covered TRAP that is admitted leaves its place in the span and then runs. -/
theorem wordSlot_trap {n : BitVec 5} {p : BitVec 19} {s : State} (within : 0 < s.eng.guardLeft) (holds : s.eng.guardVal = true)
    (admitted : (s.setGuard (s.eng.guardLeft - 1) true).admits (.trap n p) none = true) :
    wordSlot (.trap n p) s = exec (.trap n p) (s.setGuard (s.eng.guardLeft - 1) true) := by
  have cover : covered (.trap n p) s = true := by simp [covered, within, show coverable (.trap n p) = true from rfl]
  have first : ahead (.trap n p) s = s.setGuard (s.eng.guardLeft - 1) true := by
    rw [← holds]
    exact if_pos (by rw [cover]; rfl)
  obtain ⟨t, taken, gone⟩ := exec_trap_admits admitted
  rw [wordSlot_covered cover (by simp [live, holds]), first, taken]
  simp only [thenLeft, offering_of_gone gone, leaves_of_gone gone]

/-! ### The slots of the obligation -/

theorem covered_eq_true {i : Instr} {s : State} (within : 0 < s.eng.guardLeft)
    (guarded : ¬ ((∃ r b sense span, i = .grd r b sense span) ∨ i = .tret)) : covered i s = true := by
  have can : coverable i = true := by
    cases i with
    | grd r b sense span => exact absurd (.inl ⟨r, b, sense, span, rfl⟩) guarded
    | tret => exact absurd (.inr rfl) guarded
    | _ => rfl
  simp [covered, within, can]

theorem covered_eq_false {i : Instr} {s : State}
    (free : s.eng.guardLeft = 0 ∨ (∃ r b sense span, i = .grd r b sense span) ∨ i = .tret) : covered i s = false := by
  rcases free with none_left | ⟨r, b, sense, span, rfl⟩ | rfl
  · simp [covered, none_left]
  · exact Bool.and_false _
  · exact Bool.and_false _

@[simp] theorem atWord_eng (u : State) (l : Line) : (u.atWord l).eng = u.eng := rfl

/-- Settles O7: the step is the slot of the word, and each clause is one of its ways. -/
theorem stepRunsWord : Obligations.StepRunsWord := by
  refine ⟨fun s core uid en rest l u i other turn free err reads => ?_,
    fun s core uid en rest l u i other turn within guarded holds no_trap err reads => ?_,
    fun s core uid en rest l u n p other turn within holds err reads admitted => ?_,
    fun s core uid en rest l u i other turn within fails err reads guarded no_rdv issued => ?_⟩
  · rw [step_wordSlot other turn err reads, wordSlot_free (s := u.atWord l) (covered_eq_false free)]
    cases exec i (u.atWord l) <;> rfl
  · have runs : live i (u.atWord l) = true := by
      rcases holds with holds | rfl
      · simp [live, holds]
      · simp [live]
    rw [step_wordSlot other turn err reads, wordSlot_covered (s := u.atWord l) (covered_eq_true within guarded) runs,
      ahead_of_ne_trap no_trap]
    cases exec i (u.atWord l) <;> rfl
  · rw [step_wordSlot other turn err reads, wordSlot_trap (s := u.atWord l) within holds admitted, atWord_eng]
    cases exec (.trap n p) ((u.atWord l).setGuard (u.eng.guardLeft - 1) true) <;> rfl
  · have cover : covered i (u.atWord l) = true := covered_eq_true within guarded
    have stops : live i (u.atWord l) = false := by
      unfold live
      split
      · exact absurd rfl no_rdv
      · simp [cover, fails]
    have left : leaves u.eng (u.atWord l).falseSlot = (u.atWord l).falseSlot.setGuard (u.eng.guardLeft - 1) false := by
      simp only [leaves, issued, fails]
    rw [step_wordSlot other turn err reads, wordSlot_false cover stops, atWord_eng, left, finished]

end Sys2Proof.Proofs.WordSlot

/-!
SUPPORT. NOP, the guard, the transfers and the control registers (04 R93 to R96, 16 R356 to R361): each issues or traps as its own
check does.
-/

namespace Sys2Proof.Proofs.Control

open Sys2Proof.Machine Sys2Proof.Laws

/-! ### From an instruction's frame -/

/-- An instruction issues with its effect where its check passes. -/
theorem issues_of_check {i : Instr} {chk : State → Chk} {eff : State → State} {cond : State → Prop}
    (arm : ∀ s, exec i s = issue i chk eff s) (pass : ∀ s, cond s → chk s = .ok) : Issues i none cond eff :=
  fun s admitted holds => (arm s).trans (issue_admits admitted chk eff (pass s.landed holds))

/-- An instruction traps where its check does. -/
theorem traps_of_check {i : Instr} {chk : State → Chk} {eff : State → State} {cond : State → Prop} {code : State → Nat}
    {val : State → W64} (arm : ∀ s, exec i s = issue i chk eff s) (fail : ∀ s, cond s → chk s = .trap (code s) (val s)) :
    Traps i none cond code val :=
  fun s admitted holds => (arm s).trans (issue_traps admitted chk eff (fail s.landed holds))

/-- The effect of an instruction that issues may be told by what it is where the condition holds. -/
theorem issues_congr {i : Instr} {cls : Option PathClass} {cond : State → Prop} {eff eff' : State → State}
    (issues : Issues i cls cond eff) (same : ∀ s, cond s → eff s = eff' s) : Issues i cls cond eff' := fun s admitted holds =>
  (issues s admitted holds).trans (by rw [same s.landed holds])

/-! ### NOP -/

/-- Settles O11: NOP's frame has no check, and its effect is none. -/
theorem nopChangesNothing : Obligations.NopChangesNothing :=
  ⟨issues_of_check (fun _ => rfl) fun _ _ => rfl, rfl, rfl, rfl⟩

/-! ### Guards and transfers (04 R94, 16 R356 to R359, R369, R376) -/

theorem targetCheck_ok {w : BitVec 4} (named : w ≠ 0#4) (s : State) (d : Int) : targetCheck s d w = .ok := if_neg named

theorem targetCheck_zero (s : State) (d : Int) :
    targetCheck s d 0#4 = .trap Cause.targetWord (codePtr (lineOffset (ptrLine s.eng.pc) d) 0) := rfl

theorem pointerCheck_ok {r : GReg} {s : State} (ok : pointerOk (s.reg r) = true) : pointerCheck r s = .ok := if_pos ok

theorem pointerCheck_trap {r : GReg} {s : State} (bad : pointerOk (s.reg r) = false) :
    pointerCheck r s = .trap Cause.targetPointer (s.reg r) := by
  simp [pointerCheck, bad]

/-- A result that is still to land leaves the code pointer. -/
@[simp] theorem result_pc (s : State) (n : Nat) (r : GReg) (v : W64) : (s.result n r v).eng.pc = s.eng.pc := by
  simp only [State.result, State.later]
  split_ifs
  · rfl
  · simp

theorem grd_issues (r : GReg) (b : BitVec 6) (sense : Bool) (span : BitVec 2) :
    Issues (.grd r b sense span) none (fun s => grdTrap s.cur.line s.cur.word span = none) fun s =>
      s.modEng fun e => { e with guardLeft := span.toNat + 1, guardVal := (s.reg r).getLsbD b.toNat != sense } :=
  issues_of_check (fun _ => rfl) fun s spans => by simp only [spans]

theorem br_issues (d : BitVec 20) {w : BitVec 4} (named : w ≠ 0#4) :
    Issues (.br d w) none (fun _ => True) fun s => s.transfer ⟨lineOffset (ptrLine s.eng.pc) d.toInt, w.toNat, .delta⟩ :=
  issues_of_check (fun _ => rfl) fun s _ => targetCheck_ok named s d.toInt

theorem call_issues (d : BitVec 20) {w : BitVec 4} (named : w ≠ 0#4) :
    Issues (.call d w) none (fun _ => True) fun s =>
      (s.result 1 31#5 (returnPoint s.cur.line (ptrLine s.eng.pc) s.cur.next)).transfer
        ⟨lineOffset (ptrLine s.eng.pc) d.toInt, w.toNat, .delta⟩ :=
  issues_of_check (fun _ => rfl) fun s _ => targetCheck_ok named s d.toInt

/-- What a LOOP does, by what its register holds (16 R376). -/
def loopEffect (a : GReg) (d : BitVec 15) (w : BitVec 4) (s : State) : State :=
  if s.reg a = 0#64 then s
  else if s.reg a = 1#64 then s.result 1 a (s.reg a - 1#64)
  else (s.result 1 a (s.reg a - 1#64)).transfer ⟨lineOffset (ptrLine s.eng.pc) d.toInt, w.toNat, .delta⟩

theorem loop_issues (a : GReg) (d : BitVec 15) {w : BitVec 4} (named : w ≠ 0#4) {cond : State → Prop} {eff : State → State}
    (effect : ∀ s, cond s → loopEffect a d w s = eff s) : Issues (.loop a d w) none cond eff := by
  refine issues_congr (issues_of_check (fun _ => rfl) fun s _ => targetCheck_ok named s d.toInt) fun s holds => ?_
  simp only [← effect s holds, loopEffect, deltaTarget, result_pc]

/-- Settles O15: each transfer's own check decides, and a LOOP's effect is a case of its register. -/
theorem transfers : Obligations.Transfers := by
  refine ⟨grd_issues, fun d w named => ⟨br_issues d named, call_issues d named⟩,
    fun d => traps_of_check (fun _ => rfl) fun s _ => targetCheck_zero s d.toInt,
    fun d => traps_of_check (fun _ => rfl) fun s _ => targetCheck_zero s d.toInt,
    fun a d => traps_of_check (fun _ => rfl) fun s _ => targetCheck_zero s d.toInt,
    fun a => ⟨issues_of_check (fun _ => rfl) fun _ => pointerCheck_ok,
      traps_of_check (fun _ => rfl) fun _ => pointerCheck_trap⟩,
    issues_of_check (fun _ => rfl) fun _ => pointerCheck_ok, traps_of_check (fun _ => rfl) fun _ => pointerCheck_trap,
    fun a d w named => ⟨loop_issues a d named fun s zero => ?_, loop_issues a d named fun s one => ?_,
      loop_issues a d named fun s more => ?_⟩⟩
  · simp [loopEffect, zero]
  · simp [loopEffect, one]
  · have some_left : s.reg a ≠ 0#64 ∧ s.reg a ≠ 1#64 := by
      constructor <;> intro few <;> simp [few] at more
    simp [loopEffect, some_left]

/-! ### Control registers (04 R93, 16 R361) -/

/-- A register whose level a task does not reach. -/
theorem csrCheck_unread {c : Csr} {s : State} (write : Bool) (low : s.me.priv.covers (csrLevels c).1 = false) :
    csrCheck c write s = .trap Cause.priv 1#64 := by
  simp [csrCheck, low]

/-- A register that every level reads and none writes. -/
theorem csrCheck_unwritten {c : Csr} (levels : csrLevels c = (.t, none)) (s : State) :
    csrCheck c true s = .trap Cause.priv 2#64 := by
  have readable : s.me.priv.covers .t = true := by cases s.me.priv <;> rfl
  simp [csrCheck, levels, readable]

/-- An exchange traps as its check does. -/
theorem exchanges_trap {c : Csr} {cond : State → Prop} {why : W64}
    (fail : ∀ s, cond s → csrCheck c true s = .trap Cause.priv why) (d a : GReg) :
    Traps (.csrw d a c) none cond (fun _ => Cause.priv) (fun _ => why) ∧
    Traps (.csrs d a c) none cond (fun _ => Cause.priv) (fun _ => why) ∧
    Traps (.csrc d a c) none cond (fun _ => Cause.priv) (fun _ => why) :=
  ⟨traps_of_check (fun _ => rfl) fail, traps_of_check (fun _ => rfl) fail, traps_of_check (fun _ => rfl) fail⟩

/-- A register whose level a task does not reach traps, in a read or an exchange. -/
theorem unread {c : Csr} {cond : State → Prop} (low : ∀ s, cond s → s.me.priv.covers (csrLevels c).1 = false) :
    (∀ d, Traps (.csrr d c) none cond (fun _ => Cause.priv) (fun _ => 1#64)) ∧ ∀ d a,
      Traps (.csrw d a c) none cond (fun _ => Cause.priv) (fun _ => 1#64) ∧
      Traps (.csrs d a c) none cond (fun _ => Cause.priv) (fun _ => 1#64) ∧
      Traps (.csrc d a c) none cond (fun _ => Cause.priv) (fun _ => 1#64) :=
  ⟨fun _ => traps_of_check (fun _ => rfl) fun s holds => csrCheck_unread false (low s holds),
    exchanges_trap fun s holds => csrCheck_unread true (low s holds)⟩

theorem not_covers_s {l : Level} (low : l = .t) : l.covers .s = false := by rw [low]; rfl

theorem not_covers_f {l : Level} (low : l ≠ .f) : l.covers .f = false := by
  cases l with
  | f => exact absurd rfl low
  | s | t => rfl

/-- Settles O22: each instruction issues or traps as the check of its register's levels does. -/
theorem controlRegisters : Obligations.ControlRegisters := by
  refine ⟨fun d a c => ⟨issues_of_check (fun _ => rfl) fun _ ok => ok, issues_of_check (fun _ => rfl) fun _ ok => ok,
    issues_of_check (fun _ => rfl) fun _ ok => ok, issues_of_check (fun _ => rfl) fun _ ok => ok,
    issues_of_check (fun _ => rfl) fun _ _ => rfl⟩, fun c mem => ?_, fun c mem => ?_, fun c mem => ?_⟩
  · have needs : (csrLevels c).1 = .s := by fin_cases mem <;> rfl
    exact unread fun s low => needs ▸ not_covers_s low
  · have needs : (csrLevels c).1 = .f := by fin_cases mem <;> rfl
    exact unread fun s low => needs ▸ not_covers_f low
  · have levels : csrLevels c = (.t, none) := by fin_cases mem <;> rfl
    exact exchanges_trap fun s _ => csrCheck_unwritten levels s

end Sys2Proof.Proofs.Control

/-!
SUPPORT. Tokens, counters and DRAIN (06 R136 to R142): the count of a token queue under what SIGT gives and WAITT takes, and the
count that a SIGT meets.
-/

namespace Sys2Proof.Proofs.Tokens

open Sys2Proof.Machine Sys2Proof.Laws Sys2Proof.Proofs.Control

/-! ### The count of a queue -/

theorem tokenSum_cons (x : Nat × OrdCtx) (l : List (Nat × OrdCtx)) : tokenSum (x :: l) = x.1 + tokenSum l := by
  have shift : ∀ a, l.foldl (fun acc y => acc + y.1) a = a + tokenSum l := by
    unfold tokenSum
    induction l with
    | nil => simp
    | cons y l ih =>
      intro a
      rw [List.foldl_cons, List.foldl_cons, ih, ih (0 + y.1)]
      omega
  rw [tokenSum, List.foldl_cons, shift, Nat.zero_add]

theorem tokenSum_concat (l : List (Nat × OrdCtx)) (x : Nat × OrdCtx) : tokenSum (l ++ [x]) = tokenSum l + x.1 := by
  simp [tokenSum]

/-- Taking n tokens leaves n fewer. -/
theorem tokenSum_takeTokens (n : Nat) (l : List (Nat × OrdCtx)) (c : OrdCtx) :
    tokenSum (takeTokens n l c).1 = tokenSum l - n := by
  induction l generalizing n c with
  | nil => simp [takeTokens, tokenSum]
  | cons y l ih =>
    simp only [takeTokens]
    split_ifs with none_wanted part
    · rw [none_wanted, Nat.sub_zero]
    · simp only [tokenSum_cons]
      omega
    · rw [ih, tokenSum_cons]
      omega

/-! ### What SIGT gives and WAITT takes (06 R136) -/

theorem tokens_addTokens (t : Task) (k n : Nat) (c : OrdCtx) :
    (t.addTokens k n c).tokens = if n = 0 then t.tokens else t.tokens.set k (t.tokens.getD k [] ++ [(n, c)]) := by
  unfold Task.addTokens
  split_ifs <;> rfl

theorem tokenCount_addTokens_same (t : Task) (k : BitVec 3) (n : Nat) (c : OrdCtx) :
    (t.addTokens k.toNat n c).tokenCount k = t.tokenCount k + n := by
  unfold Task.tokenCount
  rw [tokens_addTokens]
  split_ifs with nothing
  · rw [nothing, Nat.add_zero]
  · simp only [NMap.getD, find_set_same, Option.getD_some, tokenSum_concat]

theorem tokenCount_addTokens_other (t : Task) {k j : BitVec 3} (n : Nat) (c : OrdCtx) (other : j ≠ k) :
    (t.addTokens k.toNat n c).tokenCount j = t.tokenCount j := by
  unfold Task.tokenCount
  rw [tokens_addTokens]
  split_ifs
  · rfl
  · simp only [NMap.getD, find_set_other _ _ fun same => other (BitVec.eq_of_toNat_eq same)]

theorem tokens_setEng (t : Task) (e : Engine) (x : Eng) : (t.setEng e x).tokens = t.tokens := by
  cases e <;> rfl

theorem tokenCount_take (s : State) (k : BitVec 3) (n : Nat) : (s.take k n).me.tokenCount k = s.me.tokenCount k - n := by
  simp only [State.take, State.modEng, me_modMe, Task.tokenCount, Task.modEng, tokens_setEng, NMap.getD, find_set_same,
    Option.getD_some, tokenSum_takeTokens]

/-! ### The count that a SIGT meets (06 R137) -/

theorem countMet_of_free {s : State} {k : BitVec 3} (alone : k ≠ 7#3 ∨ s.cur.eng = .ctl) : s.countMet k = s.me.tokenCount k := by
  unfold State.countMet
  rcases alone with other | ctl
  · exact if_neg other
  · simp [ctl, admittedBefore]

/-- Stalled producers only add. -/
theorem le_offers (t : Task) (l : List Engine) (c : Nat) :
    c ≤ l.foldl (fun c e => match (t.eng e).offered with | some n => if c + n ≤ 255 then c + n else c | none => c) c := by
  induction l generalizing c with
  | nil => exact Nat.le_refl c
  | cons e l ih =>
    rw [List.foldl_cons]
    refine Nat.le_trans ?_ (ih _)
    split
    · split_ifs
      · exact Nat.le_add_right _ _
      · exact Nat.le_refl c
    · exact Nat.le_refl c

theorem tokenCount_le_countMet (s : State) (k : BitVec 3) : s.me.tokenCount k ≤ s.countMet k := by
  unfold State.countMet
  split_ifs
  · exact le_offers s.me _ _
  · exact Nat.le_refl _

/-! ### The checks -/

theorem sigtCheck_ok {s : State} {k : BitVec 3} {n : Nat} (room : s.countMet k + n ≤ 255) : sigtCheck k n s = .ok := if_pos room

theorem waittCheck_ok {s : State} {k : BitVec 3} {n : Nat} (enough : n ≤ s.me.tokenCount k) : waittCheck k n s = .ok :=
  if_pos enough

theorem countCheck_of_le {v : W64} (small : v.toNat ≤ 255) (c : Nat → State → Chk) (s : State) : countCheck v c s = c v.toNat s :=
  if_neg (Nat.not_lt.mpr small)

theorem countCheck_trap {v : W64} (large : 255 < v.toNat) (c : Nat → State → Chk) (s : State) :
    countCheck v c s = .trap Cause.tokenCount v := if_pos large

/-- Settles O17: each instruction issues or traps as its check does; the counts by induction on the tokens of the queue. -/
theorem tokens : Obligations.Tokens := by
  refine ⟨⟨fun k n => issues_of_check (fun _ => rfl) fun _ => sigtCheck_ok,
      fun k a => issues_of_check (fun _ => rfl) fun s holds => ?_,
      fun k n => issues_of_check (fun _ => rfl) fun _ => waittCheck_ok,
      fun k a => issues_of_check (fun _ => rfl) fun s holds => ?_,
      fun k a => ⟨traps_of_check (fun _ => rfl) fun s large => countCheck_trap large _ s,
        traps_of_check (fun _ => rfl) fun s large => countCheck_trap large _ s⟩,
      fun c n => issues_of_check (fun _ => rfl) fun _ low => if_pos low,
      fun m => issues_of_check (fun _ => rfl) fun _ done => if_pos done⟩,
    fun s k n => ?_, fun s k n _ => tokenCount_take s k n, fun s k j n other => ?_,
    fun s k => countMet_of_free, tokenCount_le_countMet⟩
  · obtain ⟨small, room⟩ := holds
    rw [countCheck_of_le small, sigtCheck_ok room]
  · obtain ⟨small, enough⟩ := holds
    rw [countCheck_of_le small, waittCheck_ok enough]
  · rw [State.give, me_modMe, tokenCount_addTokens_same]
  · rw [State.give, me_modMe, tokenCount_addTokens_other _ _ _ other]

end Sys2Proof.Proofs.Tokens

/-!
SUPPORT. A key taken out of a map.
-/

namespace Sys2Proof.Proofs.Maps

open Sys2Proof.Machine

@[simp] theorem find_erase_same {α : Type} (m : NMap α) (k : Nat) : NMap.find? (NMap.erase m k) k = none := by
  induction m with
  | nil => rfl
  | cons c m ih =>
    obtain ⟨a, b⟩ := c
    by_cases here : a = k
    · simpa [NMap.erase, here] using ih
    · simpa [NMap.erase, NMap.find?, here] using ih

theorem find_erase_other {α : Type} (m : NMap α) {k j : Nat} (other : j ≠ k) :
    NMap.find? (NMap.erase m k) j = NMap.find? m j := by
  induction m with
  | nil => rfl
  | cons c m ih =>
    obtain ⟨a, b⟩ := c
    by_cases here : a = k
    · simpa [NMap.erase, NMap.find?, here, Ne.symm other] using ih
    · by_cases found : a = j
      · simp [NMap.erase, NMap.find?, found, other]
      · simpa [NMap.erase, NMap.find?, here, found] using ih

end Sys2Proof.Proofs.Maps

/-!
SUPPORT. Streams and the life of a task (06 R130 to R135): what FORK starts, how an RDV joins, what SPAWN, YIELD and EXIT do.
-/

namespace Sys2Proof.Proofs.Streams

open Sys2Proof.Machine Sys2Proof.Laws Sys2Proof.Proofs.Maps Sys2Proof.Proofs.DelayLine Sys2Proof.Proofs.Control

/-! ### FORK (06 R132, 16 R367) -/

theorem forkCheck_ok {e : Engine} {a : GReg} {s : State} (ok : pointerOk (s.reg a) = true) (idle : (s.me.eng e).run = .idle) :
    forkCheck e a s = .ok := by
  simp [forkCheck, ok, idle]

theorem forkCheck_pointer {e : Engine} {a : GReg} {s : State} (bad : pointerOk (s.reg a) = false) :
    forkCheck e a s = .trap Cause.targetPointer (s.reg a) := by
  simp [forkCheck, bad]

theorem forkCheck_busy {e : Engine} {a : GReg} {s : State} (ok : pointerOk (s.reg a) = true) (busy : (s.me.eng e).run ≠ .idle) :
    forkCheck e a s = .trap Cause.forkBusy (BitVec.ofNat 64 e.code) := by
  simp [forkCheck, ok, busy]

/-- Outside a handler, or in one that owns EXE, a FORK has nothing to spill (12 R269). -/
theorem fork_issues (e : Engine) (a b c : GReg) :
    Issues (.fork e a b c) none
      (fun s => pointerOk (s.reg a) = true ∧ (s.me.eng e).run = .idle ∧ (s.me.trBusy = false ∨ s.me.exeOwn = true))
      fun s => s.start e (s.reg a) (s.reg b) (s.reg c) := by
  refine issues_congr (issues_of_check (fun _ => rfl) fun s holds => ?_) fun s holds => ?_
  · obtain ⟨ok, idle, -⟩ := holds
    exact forkCheck_ok ok idle
  · obtain ⟨-, -, owns⟩ := holds
    refine if_neg ?_
    rcases owns with owns | owns <;> simp [owns]

/-- The sequencer that a FORK starts. -/
theorem eng_start (s : State) (e : Engine) (pc v w : W64) :
    ((s.start e pc v w).me.eng e).run = .running ∧ ((s.start e pc v w).me.eng e).pc = pc ∧
      ((s.start e pc v w).me.eng e).regs = (((s.me.eng e).put 1#5 v).put 2#5 w).regs := by
  simp [State.start]

/-! ### RDV (06 R133, 17 R390) -/

/-- CTL stalls at its RDV while another stream is not idle. -/
theorem rdv_waits {s : State} (admitted : s.admits .rdv none = true) (ctl : s.cur.eng = .ctl) (busy : s.landed.me.joined = false) :
    exec .rdv s = .next (s.landed.stallNow true) := by
  have here : s.landed.cur.eng = .ctl := ctl
  exact congrArg Host.Outcome.next ((issueFrame_admits admitted _ _).trans (by simp only [here, busy]; rfl))

theorem ctl_rdv_issues :
    Issues .rdv none (fun s => s.cur.eng = .ctl ∧ s.me.joined = true) fun s => s.modEng fun e =>
      { e with ord := ((e.ord.join s.me.lda.ord).join s.me.exe.ord).join s.me.sta.ord } := by
  refine issues_congr (issues_of_check (fun _ => rfl) fun s holds => ?_) fun s holds => ?_
  · obtain ⟨ctl, joined⟩ := holds
    simp only [ctl, joined, if_true]
  · obtain ⟨ctl, -⟩ := holds
    simp only [ctl]

theorem other_rdv_issues :
    Issues .rdv none (fun s => s.cur.eng ≠ .ctl) fun s => (s.modEng fun e => { e with run := .joining }).joinSlot := by
  refine issues_congr (issues_of_check (fun _ => rfl) fun s other => ?_) fun s other => ?_
  · split
    · next ctl => exact absurd ctl other
    · rfl
  · split
    · next ctl => exact absurd ctl other
    · rfl

@[simp] theorem endSlot_pc (t : Task) (e : Engine) : ((t.endSlot e []).eng e).pc = (t.eng e).pc := by
  unfold Task.endSlot
  extract_lets u counted
  have unread : counted.eng e = t.eng e := by
    unfold counted
    split_ifs
    · cases e <;> rfl
    · rfl
  simp [Eng.advance, unread]

theorem eng_setStatus (s : State) (x : Status) : (s.setStatus x).eng = s.eng := rfl

theorem eng_modMe (s : State) (f : Task → Task) : (s.modMe f).eng = (f s.me).eng s.cur.eng := by
  show (s.modMe f).me.eng s.cur.eng = _
  rw [me_modMe]

/-- A stream whose RDV has issued. -/
def atRest (e : Eng) : Eng :=
  { e with run := .idle, line := none, stop := match e.stop with | .none => .none | _ => .stopped }

/-- With nothing pending and no access open, a joining stream's slot is its RDV's. -/
theorem joinSlot_eq {s : State} (landed : s.landed.eng.pend = []) (arrived : s.landed.eng.async = []) (quiet : s.accesses = []) :
    s.joinSlot =
      (s.landed.modMe fun t => (t.endSlot s.cur.eng []).modEng s.cur.eng atRest).setStatus .gone := by
  have unblocked : ¬ s.landed.eng.blocked = true := by simp [Eng.blocked, landed]
  have nothing : ¬ (!s.landed.eng.pend.isEmpty || !s.landed.eng.async.isEmpty) = true := by simp [landed, arrived]
  have none_open (p : Nat × Access → Bool) : ¬ s.landed.accesses.any p = true := by
    rw [show s.landed.accesses = [] from quiet]
    simp
  exact (if_neg unblocked).trans ((if_neg nothing).trans (if_neg (none_open _)))

/-- A joining stream without results or queue accesses becomes idle, its code pointer at the RDV. -/
theorem joinSlot_idle {s : State} (landed : s.landed.eng.pend = []) (arrived : s.landed.eng.async = []) (quiet : s.accesses = []) :
    s.joinSlot.eng.run = .idle ∧ s.joinSlot.eng.pc = s.landed.eng.pc ∧ s.joinSlot.cur.status = .gone := by
  have rests : s.joinSlot.eng = atRest ((s.landed.me.endSlot s.cur.eng []).eng s.cur.eng) := by
    rw [joinSlot_eq landed arrived quiet, eng_setStatus, eng_modMe]
    exact eng_modEng _ _ _
  have ends : s.joinSlot.cur.status = .gone := by rw [joinSlot_eq landed arrived quiet, setStatus_status]
  rw [rests]
  exact ⟨rfl, endSlot_pc _ _, ends⟩

/-! ### SPAWN, YIELD, EXIT (06 R130, R134, R135) -/

theorem spawnCheck_bad {a : GReg} {s : State} (bad : pointerOk (s.reg a) = false) : spawnCheck a s = .ok := by
  simp [spawnCheck, bad]

theorem spawnChild_bad {s : State} {entry : W64} (bad : pointerOk entry = false) (arg : W64) :
    s.spawnChild entry arg = (spawnStatus 1, s) := by
  simp [State.spawnChild, bad]

theorem spawn_issues (d a b : GReg) :
    Issues (.spawn d a b) none (fun s => spawnCheck a s = .ok)
      fun s => (s.spawnChild (s.reg a) (s.reg b)).2.asyncResult d (s.spawnChild (s.reg a) (s.reg b)).1 :=
  issues_of_check (fun _ => rfl) fun _ ok => ok

theorem bad_spawn_issues (d a b : GReg) :
    Issues (.spawn d a b) none (fun s => pointerOk (s.reg a) = false)
      fun s => s.asyncResult d (BitVec.ofNat 64 (2 ^ 63 + 1)) := by
  refine issues_congr (issues_of_check (fun _ => rfl) fun _ => spawnCheck_bad) fun s bad => ?_
  simp only [spawnChild_bad bad]
  rfl

/-- A task that retires is not found any more. -/
theorem find_retire (s : State) (uid : Nat) : NMap.find? (s.retire uid).tasks uid = none := by
  unfold State.retire
  exact find_erase_same _ uid

/-- Settles O16: FORK, SPAWN, YIELD and EXIT issue or trap as their checks do; an RDV by the sequencer that it is on. -/
theorem streamsAndTasks : Obligations.StreamsAndTasks := by
  refine ⟨⟨fork_issues, fun e a b c => traps_of_check (fun _ => rfl) fun _ => forkCheck_pointer,
      fun e a b c => traps_of_check (fun _ => rfl) fun s holds => forkCheck_busy holds.1 holds.2,
      fun s e pc v w _ => ?_, ctl_rdv_issues, other_rdv_issues, fun s => joinSlot_idle, fun s => rdv_waits⟩,
    bad_spawn_issues, spawn_issues, issues_of_check (fun _ => rfl) fun _ _ => rfl,
    issues_of_check (fun _ => rfl) fun s holds => ?_, find_retire⟩
  · obtain ⟨run, pc_eq, regs⟩ := eng_start s e pc v w
    refine ⟨run, pc_eq, ?_, ?_⟩
    · rw [get_congr regs, get_put_other _ _ (by decide), get_put_same _ _ _ (by decide)]
    · rw [get_congr regs, get_put_same _ _ _ (by decide)]
  · obtain ⟨joined, quiet⟩ := holds
    simp [joined, quiet]

end Sys2Proof.Proofs.Streams

/-!
SUPPORT. What a translation by stage 2 and an entry of the gang table do not depend on: the tasks, what tasks may still see, and the
barriers.
-/

namespace Sys2Proof.Proofs.Mapping

open Sys2Proof.Machine

/-- A state without its tasks, its views and its barriers. -/
def bare (s : State) : State := { s with tasks := [], views := [], barriers := [] }

theorem paOk_bare (s : State) (m pa : Nat) : (bare s).paOk m pa = s.paOk m pa := rfl

theorem wired_bare (s : State) (m pa : Nat) : (bare s).wired m pa = s.wired m pa := rfl

theorem fetch_bare (s : State) (vd : Option Nat) (pa n : Nat) : (bare s).fetch vd pa n = s.fetch vd pa n := rfl

theorem walk2_bare (s : State) (m : Nat) (acc : AccKind) (va ipa lvl table : Nat) (reads : List Read) :
    (bare s).walk2 m acc va ipa lvl table reads = s.walk2 m acc va ipa lvl table reads := by
  induction lvl generalizing table reads with
  | zero =>
    unfold State.walk2
    simp only [paOk_bare, wired_bare, fetch_bare]
    generalize readDesc false 0 _ = d
    cases d <;> rfl
  | succ n ih =>
    unfold State.walk2
    simp only [paOk_bare, wired_bare, fetch_bare]
    generalize readDesc false (n + 1) _ = d
    cases d with
    | table t => simp only [ih]
    | _ => rfl

theorem stage2_bare (s : State) (vdk : Nat) (acc : AccKind) (va ipa : Nat) :
    (bare s).stage2 vdk acc va ipa = s.stage2 vdk acc va ipa := by
  unfold State.stage2 State.map2
  simp only [walk2_bare]
  rfl

theorem gangEntry_bare (s : State) (vdk gang : Nat) : (bare s).gangEntry vdk gang = s.gangEntry vdk gang := by
  unfold State.gangEntry State.devicePa
  simp only [stage2_bare]
  rfl

theorem gangEntry_congr {s t : State} (same : bare s = bare t) (vdk gang : Nat) : s.gangEntry vdk gang = t.gangEntry vdk gang := by
  rw [← gangEntry_bare s, ← gangEntry_bare t, same]

end Sys2Proof.Proofs.Mapping

/-!
SUPPORT. Barriers (06 R143, R144, 13 R285): what BAR checks and does, and how arrivals, releases and lowered counts end.
-/

namespace Sys2Proof.Proofs.Barriers

open Sys2Proof.Machine Sys2Proof.Laws Sys2Proof.Proofs.Maps Sys2Proof.Proofs.Mapping

/-! ### A member at a barrier -/

/-- The key of the barrier of a scope that a task meets (06 R143). -/
def keyOf (s : State) (sc : Scope) (id : BitVec 8) : Nat := barKey sc (s.barInstance s.me sc) id.toNat

/-- The member count of a scope for the task's gang. -/
def members (s : State) (sc : Scope) : Nat := (s.gangEntry s.me.vdKey s.me.gang.toNat).barCount sc

/-- A full fence (06 R144). -/
def fenced (s : State) : State := (s.modEng fun e => { e with ord := e.ord.fenceAll }).acquireNow

/-- The member has arrived and waits. -/
def waiting (s : State) (key : Nat) : State :=
  (fenced s).modMe fun t => { t with bars := t.bars ++ [(key, t.trBusy, false)] }

/-- The member goes on. -/
def pass (s : State) (key : Nat) : State :=
  (s.modMe fun t => { t with bars := t.bars.filter fun b => !(b.1 = key && b.2.1 == t.trBusy) }).acquireViews s.me

/-- The member's arrival is counted. -/
def arrive (s : State) (sc : Scope) (id : BitVec 8) : State :=
  (waiting s (keyOf s sc id)).arriveAt (keyOf s sc id) s.me.vdKey s.me.gang.toNat (s.cur.uid * 2 + b2n s.me.trBusy) []

/-- The arrival of a member goes to the barrier's home unit (13 R285). -/
def asksFor (s : State) (id : BitVec 8) (who : Nat) : State :=
  let u := (waiting s (keyOf s .pod id)).newId
  let p : Packet :=
    { kind := 12, vd := s.me.vd, gang := s.me.gang.toNat, src := s.me.die, at' := s.me.die, a := id.setWidth 64
      links := [who], dst := u.2.barrierHome s.me.module s.me.vd s.me.gang.toNat id.toNat }
  { u.2 with packets := u.2.packets.set u.1 p }

/-- The task's arrival goes to the barrier's home unit. -/
def asks (s : State) (id : BitVec 8) : State := asksFor s id (s.cur.uid * 2 + b2n s.me.trBusy)

/-! ### What a fence leaves -/

theorem acquireNow_eq (s : State) : s.acquireNow = s.acquireViews s.me ∨ s.acquireNow = s := by
  unfold State.acquireNow
  extract_lets t
  split_ifs
  · exact .inl rfl
  · exact .inr rfl

/-- An acquire changes what may still be seen, and nothing else. -/
theorem acquireNow_keeps {α : Type} (f : State → α) (blind : ∀ s t, f (s.acquireViews t) = f s) (s : State) :
    f s.acquireNow = f s := by
  rcases acquireNow_eq s with same | same
  · rw [same, blind]
  · rw [same]

@[simp] theorem fenced_cur (s : State) : (fenced s).cur = s.cur := acquireNow_keeps State.cur (fun _ _ => rfl) _

theorem fenced_me (s : State) : (fenced s).me = s.me.modEng s.cur.eng fun e => { e with ord := e.ord.fenceAll } :=
  (acquireNow_keeps State.me (fun _ _ => rfl) _).trans (me_modMe _ _)

theorem setEng_bars (t : Task) (e : Engine) (x : Eng) : (t.setEng e x).bars = t.bars := by
  cases e <;> rfl

theorem setEng_trBusy (t : Task) (e : Engine) (x : Eng) : (t.setEng e x).trBusy = t.trBusy := by
  cases e <;> rfl

theorem fenced_arrivalOf (s : State) (key : Nat) : (fenced s).arrivalOf key = s.arrivalOf key := by
  simp only [State.arrivalOf, fenced_me, Task.modEng, setEng_bars, setEng_trBusy]

theorem bare_fenced (s : State) : bare (fenced s) = bare s := acquireNow_keeps bare (fun _ _ => rfl) _

theorem bare_arrive (s : State) (sc : Scope) (id : BitVec 8) : bare (arrive s sc id) = bare s :=
  (show bare (arrive s sc id) = bare (fenced s) from rfl).trans (bare_fenced s)

/-- The fence before an arrival leaves the task that arrives. -/
theorem arrive_eq (s : State) (sc : Scope) (id : BitVec 8) :
    arrive s sc id = (waiting s (keyOf s sc id)).arriveAt (keyOf s sc id) s.me.vdKey s.me.gang.toNat
      ((fenced s).cur.uid * 2 + b2n s.me.trBusy) [] := by
  rw [fenced_cur, arrive]

theorem asks_eq (s : State) (id : BitVec 8) : asks s id = asksFor s id ((fenced s).cur.uid * 2 + b2n s.me.trBusy) := by
  rw [fenced_cur, asks]

/-! ### What BAR does -/

theorem barrier_of_arrived {s : State} {sc : Scope} {id : BitVec 8} {done : Bool} (been : s.arrivalOf (keyOf s sc id) = some done) :
    s.barrier sc id = pass (fenced s) (keyOf s sc id) := by
  have been : (fenced s).arrivalOf (keyOf s sc id) = some done := (fenced_arrivalOf ..).trans been
  unfold State.barrier
  extract_lets t key u go
  split
  · rfl
  · next absent => cases been.symm.trans absent

theorem barrier_pod {s : State} {id : BitVec 8} (new : s.arrivalOf (keyOf s .pod id) = none) :
    s.barrier .pod id = (asks s id).stallNow false := by
  have new : (fenced s).arrivalOf (keyOf s .pod id) = none := (fenced_arrivalOf ..).trans new
  unfold State.barrier
  extract_lets t key u go who
  split
  · next been => cases new.symm.trans been
  · rw [asks_eq]
    rfl

theorem barrier_near {s : State} {sc : Scope} {id : BitVec 8} (near : sc ≠ .pod) (new : s.arrivalOf (keyOf s sc id) = none) :
    s.barrier sc id =
      if members s sc ≤ ((arrive s sc id).barriers.getD (keyOf s sc id) {}).arrived.length then
        pass ((arrive s sc id).completeBarrier (keyOf s sc id)) (keyOf s sc id)
      else (arrive s sc id).stallNow false := by
  have new : (fenced s).arrivalOf (keyOf s sc id) = none := (fenced_arrivalOf ..).trans new
  have count : members s sc = ((arrive s sc id).gangEntry s.me.vdKey s.me.gang.toNat).barCount sc := by
    rw [members, gangEntry_congr (bare_arrive s sc id)]
  unfold State.barrier
  extract_lets t key u go who
  split
  · next been => cases new.symm.trans been
  · rw [count, arrive_eq]
    split
    · exact absurd rfl near
    · rfl

/-! ### How a BAR ends its slot -/

theorem start_of_admits {i : Instr} {cls : Option PathClass} {s : State} (admitted : s.admits i cls = true) :
    s.cur.status = .start := by
  simp only [State.admits, Bool.and_eq_true, beq_iff_eq] at admitted
  tauto

theorem landed_start {i : Instr} {cls : Option PathClass} {s : State} (admitted : s.admits i cls = true) :
    s.landed.cur.status = .start :=
  show s.cur.status = .start from start_of_admits admitted

theorem reads_of_admits {i : Instr} {cls : Option PathClass} {s : State} (admitted : s.admits i cls = true) :
    ((i.operandTrap s.cur.eng).isNone && !s.cur.commit) = true := by
  simp only [State.admits, Bool.and_eq_true] at admitted ⊢
  tauto

/-- What BAR leaves where its slot does not end in a trap. -/
theorem exec_bar {sc : Scope} {id : BitVec 8} {s t : State} (admitted : s.admits (.bar sc id) none = true)
    (ok : barCheck sc id s.landed = .ok) (effect : s.landed.barrier sc id = t) (untrapped : t.issued.cur.status ≠ .trapped) :
    exec (.bar sc id) s = .next t.issued := by
  have frame : issueFrame (.bar sc id) none (barCheck sc id) (fun s => s.barrier sc id) s = t.issued := by
    rw [issueFrame_admits admitted, ok, ← effect]
  show execBar sc id s = _
  unfold execBar
  rw [frame]
  dsimp only
  split
  · next trapped => exact absurd trapped untrapped
  · rfl

/-- What BAR leaves where it traps: the failed read of the gang's entry is recorded (12 R256). -/
theorem exec_bar_trap {sc : Scope} {id : BitVec 8} {s : State} {c : Nat} {v : W64} (admitted : s.admits (.bar sc id) none = true)
    (trap : barCheck sc id s.landed = .trap c v) :
    exec (.bar sc id) s = .next ((s.landed.trapNow c v).gangRecords s.me.vdKey s.me.die s.me.gang.toNat) := by
  have frame : issueFrame (.bar sc id) none (barCheck sc id) (fun s => s.barrier sc id) s = s.landed.trapNow c v := by
    rw [issueFrame_admits admitted, trap]
  show execBar sc id s = _
  unfold execBar
  rw [frame]
  simp only [reads_of_admits admitted, if_true]
  rfl

theorem issued_of_start {t : State} (start : t.cur.status = .start) : t.issued.cur.status = .issued := by
  simp only [State.issued, start, setStatus_status]

/-- A BAR that goes on ends its slot as issued. -/
theorem untrapped_of_start {t : State} (start : t.cur.status = .start) : t.issued.cur.status ≠ .trapped := by
  rw [issued_of_start start]
  decide

/-- A BAR that waits ends its attempt stalled. -/
theorem untrapped_stallNow (t : State) (sync : Bool) : (t.stallNow sync).issued.cur.status ≠ .trapped :=
  fun trapped : Status.stalled sync = .trapped => by cases trapped

/-- Tasks that go on leave everything but the tasks. -/
theorem releaseArrived_keeps {α : Type} (f : State → α) (blind : ∀ s u g, f (State.modTask s u g) = f s) (s : State) (key : Nat)
    (l : List Nat) : f (s.releaseArrived key l) = f s :=
  List.foldlRecOn (motive := fun t : State => f t = f s) l _ rfl fun _ kept _ _ => (blind _ _ _).trans kept

theorem completeBarrier_cur (s : State) (key : Nat) : (s.completeBarrier key).cur = s.cur := by
  unfold State.completeBarrier
  split
  · rfl
  · exact releaseArrived_keeps State.cur (fun _ _ _ => rfl) _ _ _

theorem completeBarrier_free (s : State) (key : Nat) : NMap.find? (s.completeBarrier key).barriers key = none := by
  unfold State.completeBarrier
  split
  · next free => exact free
  · rw [releaseArrived_keeps State.barriers fun _ _ _ => rfl]
    exact find_erase_same _ _

/-! ### The checks of BAR (06 R143) -/

theorem barCheck_passed {sc : Scope} {id : BitVec 8} {s : State} (met : s.arrivalOf (keyOf s sc id) = some true)
    (fence : s.pendingIds s.cur.uid Access.fences = []) : barCheck sc id s = .ok := by
  unfold barCheck
  extract_lets t key
  rw [show s.arrivalOf key = some true from met]
  simp [fence]

section
variable {sc : Scope} {id : BitVec 8} {s : State} (new : s.arrivalOf (keyOf s sc id) = none)
  (near : s.gangAway s.me.vdKey s.me.die s.me.gang.toNat = false)
include new near

theorem barCheck_arrives (gang : s.me.gang ≠ 0#16) (count : members s sc ≠ 0) (done : s.classesDone s.cur.uid = true)
    (free : sc = .pod ∨ s.barrierOpen (keyOf s sc id) s.me.vdKey s.me.gang.toNat = true) : barCheck sc id s = .ok := by
  have grouped : ¬ (s.me.gang = 0#16 ∨ (s.gangEntry s.me.vdKey s.me.gang.toNat).barCount sc = 0) := by
    rintro (bad | bad)
    · exact gang bad
    · exact count bad
  have opens : ¬ (sc != .pod && !s.barrierOpen (keyOf s sc id) s.me.vdKey s.me.gang.toNat) = true := by
    rcases free with rfl | opens
    · simp
    · simp [opens]
  unfold barCheck
  extract_lets t key
  rw [show s.arrivalOf key = none from new]
  simp only [t, key, near, grouped, done]
  exact if_neg opens

theorem barCheck_barNone (ungrouped : s.me.gang = 0#16 ∨ members s sc = 0) :
    barCheck sc id s = .trap Cause.barNone (BitVec.ofNat 64 (s.me.gang.toNat + sc.code * 2 ^ 16)) := by
  unfold barCheck
  extract_lets t key
  rw [show s.arrivalOf key = none from new]
  simp only [t, near]
  exact if_pos ungrouped

end

/-! ### BAR by a member -/

section
variable {sc : Scope} {id : BitVec 8} {s : State} (admitted : s.admits (.bar sc id) none = true)
include admitted

theorem bar_passes (met : s.landed.arrivalOf (keyOf s.landed sc id) = some true)
    (fence : s.landed.pendingIds s.cur.uid Access.fences = []) :
    exec (.bar sc id) s = .next (pass (fenced s.landed) (keyOf s.landed sc id)).issued :=
  exec_bar admitted (barCheck_passed met fence) (barrier_of_arrived met)
    (untrapped_of_start ((congrArg Cur.status (fenced_cur s.landed)).trans (landed_start admitted)))

variable (new : s.landed.arrivalOf (keyOf s.landed sc id) = none)
  (near : s.landed.gangAway s.landed.me.vdKey s.landed.me.die s.landed.me.gang.toNat = false)
include new near

theorem bar_traps (ungrouped : s.landed.me.gang = 0#16 ∨ members s.landed sc = 0) :
    exec (.bar sc id) s = .next ((s.landed.trapNow Cause.barNone
      (BitVec.ofNat 64 (s.landed.me.gang.toNat + sc.code * 2 ^ 16))).gangRecords s.me.vdKey s.me.die s.me.gang.toNat) :=
  exec_bar_trap admitted (barCheck_barNone new near ungrouped)

variable (gang : s.landed.me.gang ≠ 0#16)
include gang

theorem bar_asks (count : members s.landed .pod ≠ 0) (done : s.landed.classesDone s.cur.uid = true) (pod : sc = .pod) :
    exec (.bar sc id) s = .next ((asks s.landed id).stallNow false).issued := by
  subst pod
  exact exec_bar admitted (barCheck_arrives new near gang count done (.inl rfl)) (barrier_pod new) (untrapped_stallNow _ _)

variable (count : members s.landed sc ≠ 0) (done : s.landed.classesDone s.cur.uid = true)
include count done

variable (inside : sc ≠ .pod) (free : s.landed.barrierOpen (keyOf s.landed sc id) s.landed.me.vdKey s.landed.me.gang.toNat = true)
include inside free

theorem bar_completes
    (all : members s.landed sc ≤ ((arrive s.landed sc id).barriers.getD (keyOf s.landed sc id) {}).arrived.length) :
    exec (.bar sc id) s = .next
      (pass ((arrive s.landed sc id).completeBarrier (keyOf s.landed sc id)) (keyOf s.landed sc id)).issued := by
  refine exec_bar admitted (barCheck_arrives new near gang count done (.inr free))
    ((barrier_near inside new).trans (if_pos all)) (untrapped_of_start ?_)
  have kept : ((arrive s.landed sc id).completeBarrier (keyOf s.landed sc id)).cur = s.cur :=
    (completeBarrier_cur _ _).trans (fenced_cur s.landed)
  exact (congrArg Cur.status kept).trans (start_of_admits admitted)

theorem bar_waits
    (more : ((arrive s.landed sc id).barriers.getD (keyOf s.landed sc id) {}).arrived.length < members s.landed sc) :
    exec (.bar sc id) s = .next ((arrive s.landed sc id).stallNow false).issued :=
  exec_bar admitted (barCheck_arrives new near gang count done (.inr free))
    ((barrier_near inside new).trans (if_neg (Nat.not_le.mpr more))) (untrapped_stallNow _ _)

end

/-! ### Arrivals, releases and lowered counts (13 R285) -/

theorem kind_of_packet {s : State} {k kind : Nat} {p : Packet} (found : s.packet k kind = some p) : p.kind = kind := by
  unfold State.packet at found
  split at found
  · split_ifs at found with is
    · cases found
      exact is
  · cases found

/-- A packet that may go on arrives. -/
theorem arrives_of {s : State} {k kind : Nat} {p : Packet} {l : List (Nat × Nat)} (found : s.packet k kind = some p)
    (route : s.route (vcOf kind) p.at' p.dst = some l) (first : s.behind k p = false) (may : s.mayApply p = true)
    (go : Packet → State → State) : s.arrives k kind go = .next (go p ((s.dropPacket k).crossed l)) := by
  simp only [State.arrives, found, route, first, may]
  rfl

theorem barrierArrival_counts {s : State} {k : Nat} {p : Packet} {l : List (Nat × Nat)} (found : s.packet k 12 = some p)
    (route : s.route 2 p.at' p.dst = some l) (first : s.behind k p = false)
    (free : s.barrierOpen (podBarrier (bits p.a 7 0)) p.vd p.gang = true)
    (near : s.gangAway (vdKey (s.moduleOf p.dst) p.vd) p.dst p.gang = false) :
    let key := podBarrier (bits p.a 7 0)
    let x := (s.dropPacket k).crossed l
    let u := (x.arriveAt key p.vd p.gang (p.links.headD 0) [p.src]).gangRecords (vdKey (x.moduleOf p.dst) p.vd) p.dst p.gang
    exec (.barrierArrival k) s = .next (if u.podCount p.dst p.vd p.gang ≤ (u.barriers.getD key {}).arrived.length then
      u.completePod key p.dst (bits p.a 7 0) else u) := by
  have may : s.mayApply p = true := by
    unfold State.mayApply
    rw [kind_of_packet found]
    exact free
  show execBarrierArrival k s = _
  unfold execBarrierArrival
  rw [if_neg (by simp [State.packetWaits, found, near])]
  exact arrives_of found route first may _

theorem barrierRelease_delivered (k : Nat) : Delivered (.barrierRelease k) k 13 (fun _ _ => True) fun p s =>
    s.releaseArrived (podBarrier (bits p.a 7 0)) (p.links.filter fun w => (NMap.find? s.tasks (w / 2)).isSome) := by
  intro s p l found route first may _
  show execBarrierRelease k s = _
  exact arrives_of found route first may _

section
variable {s : State} {vd gang inst id : Nat} {sc : Scope} {b : Barrier}
  (held : NMap.find? s.barriers (barKey sc inst id) = some b) (vds : b.vd = vd) (gangs : b.gang = gang)
include held vds gangs

/-- A barrier of a narrower scope, by the gang table as its first member's die reads it. -/
theorem countLowered_near (inside : sc ≠ .pod) :
    let die := b.arrived.head?.elim 0 fun w => (s.task (w / 2)).die
    let u := s.gangRecords vd die gang
    s.gangAway vd die gang = false → (u.gangEntry vd gang).barCount sc ≤ b.arrived.length →
    exec (.barrierCountLowered vd gang sc inst id) s = .next (u.completeBarrier (barKey sc inst id)) := by
  intro die u near enough
  subst vds gangs
  show execBarrierCountLowered b.vd b.gang sc inst id s = _
  unfold execBarrierCountLowered
  simp only [held, bne_self_eq_false, Bool.or_self]
  cases sc with
  | pod => exact absurd rfl inside
  | _ => exact (if_neg (Bool.eq_false_iff.mp near)).trans (if_pos enough)

theorem countLowered_pod (pod : sc = .pod) :
    let home := s.barrierHome (s.moduleOf (b.dies.headD 0)) vd gang id
    let u := s.gangRecords (vdKey (s.moduleOf home) vd) home gang
    s.gangAway (vdKey (s.moduleOf home) vd) home gang = false → u.podCount home vd gang ≤ b.arrived.length →
    exec (.barrierCountLowered vd gang sc inst id) s = .next (u.completePod (barKey sc inst id) home id) := by
  intro home u near enough
  subst vds gangs pod
  show execBarrierCountLowered b.vd b.gang .pod inst id s = _
  unfold execBarrierCountLowered
  simp only [held, bne_self_eq_false, Bool.or_self]
  exact (if_neg (Bool.eq_false_iff.mp near)).trans (if_pos enough)

end

/-- Settles O18: BAR by what its check and its effect come to, the events of barriers over the pod by the arrival of their packets. -/
theorem barriers : Obligations.Barriers := by
  refine ⟨⟨fun sc id s admitted => bar_passes admitted, fun sc id s admitted new near =>
      ⟨bar_asks admitted new near, fun gang count done inside free =>
        ⟨bar_completes admitted new near gang count done inside free, bar_waits admitted new near gang count done inside free⟩,
      fun ungrouped => ⟨rfl, bar_traps admitted new near ungrouped⟩⟩⟩,
    fun k s p l => barrierArrival_counts, barrierRelease_delivered, fun s vd gang sc inst id b held vds gangs =>
      ⟨countLowered_near held vds gangs, countLowered_pod held vds gangs⟩,
    completeBarrier_free⟩

end Sys2Proof.Proofs.Barriers

/-!
SUPPORT. Events of a core (06 R145, R147, 10 R228, R229, R232, 16 R374): results that land, and entries of queues that move.
-/

namespace Sys2Proof.Proofs.Landings

open Sys2Proof.Machine Sys2Proof.Laws Sys2Proof.Proofs.Maps Sys2Proof.Proofs.DelayLine

/-! ### What the parts of a landing leave -/

theorem keepsMemory_of_mem {s t : State} (same : t.mem = s.mem) : KeepsMemory s t := fun a => by
  rw [State.byte, State.byte, same]

/-- Flags that are ORed in change the flags and the pending trap alone. -/
theorem addFlags_eq (t : Task) (f : Flags) : ∃ pend set slots stop,
    t.addFlags f = { t with arFlags := t.arFlags ||| f, arPend := pend, arSet := set, arSlots := slots, arStop := stop } := by
  unfold Task.addFlags
  extract_lets hit u
  split_ifs
  · exact ⟨_, _, _, _, rfl⟩
  · exact ⟨_, _, _, _, rfl⟩
  · exact ⟨_, _, _, _, rfl⟩

@[simp] theorem addFlags_arFlags (t : Task) (f : Flags) : (t.addFlags f).arFlags = t.arFlags ||| f := by
  obtain ⟨_, _, _, _, same⟩ := addFlags_eq t f
  rw [same]

@[simp] theorem setEng_arFlags (t : Task) (e : Engine) (x : Eng) : (t.setEng e x).arFlags = t.arFlags := by
  cases e <;> rfl

@[simp] theorem modEng_arFlags (t : Task) (e : Engine) (f : Eng → Eng) : (t.modEng e f).arFlags = t.arFlags := setEng_arFlags ..

theorem landFlags_arFlags (t : Task) (e : Engine) : (t.landFlags e).arFlags = t.arFlags ||| (t.eng e).flagsDue := by
  unfold Task.landFlags
  split_ifs with nothing
  · simp [nothing]
  · simp

@[simp] theorem readAccumulators_arFlags (t : Task) : t.readAccumulators.arFlags = t.arFlags := modEng_arFlags ..

/-! ### A due register result (06 R147) -/

section
variable {t : Task} {e : Engine} {sl : Slot} {r : GReg} {v : Entry} {f : Flags}
  (only : (t.eng e).pend = [{ rem := 0, slot := sl, dest := .reg r, data := v, flags := f }])
include only

theorem landStart_arFlags : (landStart t e).arFlags = t.arFlags ||| (t.eng e).flagsDue := by
  unfold landStart
  rw [landFlags_arFlags]
  split_ifs with exe
  · subst exe
    rw [readAccumulators_arFlags, eng_readAccumulators t (by simp [only])]
  · rfl

/-- A register result that is due, alone in the delay line, lands with its flags. -/
theorem land_register :
    ((t.land e).eng e).pend = [] ∧ ((t.land e).eng e).regs = ((t.eng e).put r (v.setWidth 64)).regs ∧
      (t.land e).arFlags = t.arFlags ||| (t.eng e).flagsDue ||| f := by
  have start := eng_landStart t e (by simp [only])
  have found : due (landStart t e) e = [{ rem := 0, slot := sl, dest := .reg r, data := v, flags := f }] := by
    simp [due, start, only]
  simp only [land_eq, found, List.isEmpty_cons, Bool.false_eq_true, if_false, landDue, dueOrder_singleton, Task.landList,
    Task.landOne, eng_wake, eng_modEng, eng_addFlags, List.nil_append, put_pend, start, put_regs]
  refine ⟨by simp [only], True.intro, ?_⟩
  show (Task.modEng _ _ _).arFlags = _
  simp [landStart_arFlags only]

end

/-! ### The accumulator read and the plane switch (10 R229, R232) -/

theorem readAccumulators_pend {t : Task} {p : Pend} {m : MatOp} {f : FVec} (only : t.exe.pend = [p]) (due : p.rem = 0)
    (row : p.mat = some m) (dest : p.dest = .vec f) :
    let w := m.result (if m.plane then t.plane1 else t.plane0) f.idx.toNat (t.vec f)
    t.readAccumulators.exe.pend = [{ p with data := w.1, flags := p.flags ||| w.2, mat := none }] := by
  show t.exe.pend.map _ = _
  rw [only, List.map_singleton]
  simp only [due, row, dest]

/-- What a plane switch leaves of its task. -/
def switched (t : Task) (p : Pend) : Task :=
  ({ t with activePlane := !t.activePlane, side := [] }.addFlags p.flags).modEng .exe fun e => { e with pend := e.pend.erase p }

theorem switched_storage (t : Task) (p : Pend) :
    (switched t p).activePlane = (!t.activePlane) ∧ (switched t p).side = [] ∧ (switched t p).exe.pend = t.exe.pend.erase p ∧
      (switched t p).arFlags = t.arFlags ||| p.flags ∧ (switched t p).plane0 = t.plane0 ∧ (switched t p).plane1 = t.plane1 := by
  obtain ⟨_, _, _, _, same⟩ := addFlags_eq { t with activePlane := !t.activePlane, side := [] } p.flags
  rw [switched, same]
  exact ⟨rfl, rfl, rfl, rfl, rfl, rfl⟩

/-! ### An asynchronous result (06 R145) -/

theorem dropAccess_mem (s : State) (id : Nat) : (s.dropAccess id).mem = s.mem := by
  unfold State.dropAccess
  split
  · rfl
  · dsimp only
    split_ifs <;> rfl

theorem dropAccess_accesses {s : State} {id : Nat} {a : Access} (found : NMap.find? s.accesses id = some a) :
    (s.dropAccess id).accesses = NMap.erase s.accesses id := by
  simp only [State.dropAccess, found]
  split_ifs <;> rfl

/-- The end of an access wakes the task that made it. -/
theorem dropAccess_eq {s : State} {id : Nat} {a : Access} (found : NMap.find? s.accesses id = some a)
    (lives : (NMap.find? s.tasks a.uid).isSome = true) :
    s.dropAccess id = ({ s with accesses := NMap.erase s.accesses id } : State).modTask a.uid Task.wake := by
  simp only [State.dropAccess, found]
  exact if_pos lives

theorem isSome_modTask (s : State) (uid : Nat) (f : Task → Task) : (NMap.find? (s.modTask uid f).tasks uid).isSome = true := by
  simp [State.modTask]

theorem arrive_regs (x : Eng) (rd : GReg) (v : W64) : (x.arrive rd v).regs = (x.put rd v).regs := rfl

theorem landResult_lands {s : State} {id : Nat} {a : Access} {rd : GReg} (v : W64) (found : NMap.find? s.accesses id = some a)
    (lives : (NMap.find? s.tasks a.uid).isSome = true) (own : a.handler = (s.task a.uid).trBusy) (named : rd ≠ 0#5) :
    let t := s.landResult id a rd v
    KeepsMemory s t ∧ ((t.task a.uid).eng a.eng).get rd = v ∧
      ((t.task a.uid).eng a.eng).async = ((s.task a.uid).eng a.eng).async.erase rd ∧ NMap.find? t.accesses id = none := by
  intro t
  have drops := dropAccess_eq found lives
  have lands : t = (s.dropAccess id).modTask a.uid fun t => (t.modStream a.handler a.eng fun e => e.arrive rd v).wake :=
    if_pos (by rw [drops, isSome_modTask])
  have woken : (s.dropAccess id).task a.uid = (s.task a.uid).wake := by
    rw [drops, task_modTask]
    rfl
  have eng : (t.task a.uid).eng a.eng = { ((s.task a.uid).wake.eng a.eng).arrive rd v with stall := none } := by
    have here : a.handler = (s.task a.uid).wake.trBusy := own
    rw [lands, task_modTask, eng_wake, woken, Task.modStream, if_pos here, eng_modEng]
  refine ⟨keepsMemory_of_mem ?_, ?_, ?_, ?_⟩
  · rw [lands, modTask_mem, dropAccess_mem]
  · rw [eng]
    exact get_put_same ((s.task a.uid).wake.eng a.eng) rd v named
  · rw [eng, eng_wake]
    rfl
  · rw [lands, modTask_accesses, dropAccess_accesses found, find_erase_same]

/-- The result of an access whose value has returned lands (06 R145). -/
theorem asyncResultLanding_lands {s : State} {id : Nat} {a : Access} {rd : GReg} {v : W64}
    (found : NMap.find? s.accesses id = some a)
    (value : a.purpose = .result rd v ∨ (a.parts.all (·.stat == .done) = true ∧
       ((∃ w, a.purpose = .load rd w ∧ v = widthValue w (leNat a.data)) ∨
         ∃ op n b c, a.purpose = .atom rd op n b c ∧ v = BitVec.ofNat 64 (leNat a.data)))) :
    exec (.asyncResultLanding id) s = .next (s.landResult id a rd v) := by
  show execAsyncResultLanding id s = _
  unfold execAsyncResultLanding
  rcases value with result | ⟨back, ⟨w, load, rfl⟩ | ⟨op, n, b, c, atom, rfl⟩⟩
  · simp only [found, result]
  · simp only [found, load, back, if_true]
  · simp only [found, atom, back, if_true]

/-! ### Entries of queues (16 R374, 10 R228) -/

theorem find_upd {α : Type} (m : NMap α) (k : Nat) (f : α → α) : NMap.find? (m.upd k f) k = (NMap.find? m k).map f := by
  induction m with
  | nil => rfl
  | cons c m ih =>
    obtain ⟨a, b⟩ := c
    by_cases here : a = k
    · simp [NMap.upd, NMap.find?, here]
    · simpa [NMap.upd, NMap.find?, here] using ih

/-- An entry whose bytes have returned enters its queue (16 R374). -/
theorem queueEntryArrival_enters {s : State} {id code tag : Nat} {a : Access} (found : NMap.find? s.accesses id = some a)
    (entry : a.purpose = .entry code tag ∨ ∃ h row, a.purpose = .tileRead h row code tag) (some_part : a.parts ≠ [])
    (back : a.parts.all (·.stat == .done) = true) :
    exec (.queueEntryArrival id) s = .next (s.enterQueue id a.uid code tag (ofBytes 4096 a.data)) := by
  have due : ¬ (a.parts.isEmpty || !(a.parts.all (·.stat == .done))) = true := by simp [some_part, back]
  show execQueueEntryArrival id s = _
  unfold execQueueEntryArrival
  rcases entry with entry | ⟨h, row, entry⟩
  · simp only [found, entry]
    exact if_neg due
  · simp only [found, entry]
    exact if_neg due

/-- The place of an entry of an active task is filled once the earlier ones are. -/
theorem enterQueue_active {s : State} {id uid code tag : Nat} {e : Entry} (active : (s.task uid).place = .active)
    (first : earlierFilled ((s.task uid).placesOf code tag) tag = true) :
    s.enterQueue id uid code tag e = (s.modTask uid fun t => (t.fill code tag e).wake).entered id code := by
  simp only [State.enterQueue, active, first]
  rfl

theorem getD_set_same {α : Type} (m : NMap α) (k : Nat) (v d : α) : (m.set k v).getD k d = v := by
  simp [NMap.getD]

theorem getD_set_other {α : Type} (m : NMap α) {k j : Nat} (v d : α) (other : j ≠ k) : (m.set k v).getD j d = m.getD j d := by
  simp [NMap.getD, find_set_other _ _ other]

/-- The end of an access leaves the queues of the task that made it. -/
theorem dropAccess_queues {s : State} {id : Nat} {a : Access} (found : NMap.find? s.accesses id = some a) :
    ((s.dropAccess id).task a.uid).queues = (s.task a.uid).queues := by
  by_cases lives : (NMap.find? s.tasks a.uid).isSome = true
  · rw [dropAccess_eq found lives, task_modTask]
    rfl
  · simp only [State.dropAccess, found]
    rw [if_neg lives]
    rfl

/-- An entry that has entered its queue: the queue, and what becomes of the access. -/
theorem entered_after {s : State} {id code : Nat} {a : Access} (found : NMap.find? s.accesses id = some a) :
    let t := s.entered id code
    KeepsMemory s t ∧ (t.task a.uid).queues = (s.task a.uid).queues ∧
      (code ≠ Queue.code .qw → NMap.find? t.accesses id = none) ∧
      (code = Queue.code .qw → NMap.find? t.accesses id = some { a with entered := true, parts := [] }) := by
  intro t
  by_cases qw : code = Queue.code .qw
  · have stays : t = { s with accesses := s.accesses.upd id fun a => { a with entered := true, parts := [] } } := if_pos qw
    rw [stays]
    exact ⟨fun _ => rfl, rfl, fun other => absurd qw other, fun _ => by simp only [find_upd, found, Option.map_some]⟩
  · have goes : t = s.dropAccess id := if_neg qw
    rw [goes]
    exact ⟨keepsMemory_of_mem (dropAccess_mem s id), dropAccess_queues found,
      fun _ => by rw [dropAccess_accesses found, find_erase_same], fun same => absurd same qw⟩

/-! ### The fill port (10 R228) -/

/-- What the write of the oldest entry of QW leaves of its task. -/
def filled (t : Task) (e : Entry) : Task :=
  Task.wake { (t.pop .qw) with wbuf := t.wbuf.set t.fillCur e, fillCur := (t.fillCur + 1) % 512 }

theorem fillPortWrite_fills {s : State} {uid : Nat} {e : Entry} (front : (s.task uid).front .qw = some e)
    (free : (s.task uid).latches (s.task uid).fillCur = false) (runs : s.frozen uid = false) :
    exec (.fillPortWrite uid) s = .next { s.setTask uid (filled (s.task uid) e) with
      accesses := NMap.erase s.accesses (((s.task uid).queue .qw).headD {}).tag } := by
  show execFillPortWrite uid s = _
  simp only [execFillPortWrite, free, runs, front]
  rfl

theorem filled_queue (t : Task) (e : Entry) : (filled t e).queue .qw = (t.queue .qw).tail := getD_set_same ..

/-! ### The obligation -/

/-- Nothing of the delay line and of the fill port moves while the core is frozen (12 R273). -/
theorem frozen_stands {s : State} {uid : Nat} (frozen : s.frozen uid = true) (e : Engine) :
    exec (.delayLineLanding uid e) s = .next s ∧ exec (.mmaAccumulatorRead uid) s = .next s ∧
      exec (.wldPlaneSwitch uid) s = .next s ∧ exec (.fillPortWrite uid) s = .next s := by
  refine ⟨?_, ?_, ?_, ?_⟩
  · exact congrArg Host.Outcome.next (if_pos frozen)
  · exact congrArg Host.Outcome.next (if_pos frozen)
  · exact if_pos frozen
  · exact if_pos (by rw [frozen, Bool.or_true])

/-- Settles O40: each event leaves what its own lemma says, in a state whose memory nothing has written. -/
theorem landings : Obligations.Landings := by
  refine ⟨⟨fun s uid e sl r v f only named runs => ?_, fun s uid p m f only due row dest runs => ?_,
      fun s uid p found runs => ?_, fun s id a rd v found lives own named value => ?_⟩,
    fun s id a code tag found entry some_part back active first => ?_, fun s uid e front free runs => ?_,
    fun s uid e frozen => frozen_stands frozen e⟩
  · obtain ⟨none_left, regs, flags⟩ := land_register only
    refine ⟨s.modTask uid fun t => t.land e, congrArg Host.Outcome.next (if_neg (by simp [runs])), fun _ => rfl, ?_⟩
    rw [task_modTask]
    refine ⟨?_, none_left, flags, fun q other => ?_⟩
    · rw [get_congr regs, get_put_same _ _ _ named]
    · rw [get_congr regs, get_put_other _ _ other]
  · refine ⟨s.modTask uid Task.readAccumulators, congrArg Host.Outcome.next (if_neg (by simp [runs])), fun _ => rfl, ?_⟩
    rw [task_modTask]
    exact ⟨rfl, readAccumulators_pend only due row dest⟩
  · refine ⟨s.setTask uid (switched (s.task uid) p), ?_, fun _ => rfl, ?_⟩
    · show execWldPlaneSwitch uid s = _
      simp only [execWldPlaneSwitch, runs, found]
      rfl
    · rw [task_setTask]
      exact switched_storage _ p
  · exact ⟨_, asyncResultLanding_lands found value, landResult_lands v found lives own named⟩
  · refine ⟨_, queueEntryArrival_enters found entry some_part back, ?_⟩
    rw [enterQueue_active active first]
    obtain ⟨memory, queues, gone, stays⟩ := entered_after (s := s.modTask a.uid fun t => (t.fill code tag (ofBytes 4096 a.data)).wake)
      (code := code) found
    refine ⟨memory, ?_, gone, stays⟩
    rw [queues, task_modTask]
    exact getD_set_same ..
  · have task (accesses : NMap Access) :
        ({ s.setTask uid (filled (s.task uid) e) with accesses } : State).task uid = filled (s.task uid) e := task_setTask s uid _
    refine ⟨_, fillPortWrite_fills front free runs, fun _ => rfl, ?_⟩
    rw [task]
    exact ⟨getD_set_same .., rfl, filled_queue _ e, fun i other => getD_set_other _ _ _ other⟩

end Sys2Proof.Proofs.Landings

/-!
SUPPORT. Traps and freezes that come by themselves (06 R152, 12 R259, R265, R272, R273), and the polls of a WAITV.
-/

namespace Sys2Proof.Proofs.TrapEvents

open Sys2Proof.Machine Sys2Proof.Laws Sys2Proof.Proofs.Landings

/-! ### A trap that is taken (12 R265) -/

/-- A trap outside a handler, with a vector that passes 03 R54: what is saved, where CTL goes on, and what stays. -/
theorem takeTrap_taken {s : State} {uid : Nat} (free : (s.task uid).trBusy = false) (vector : pointerOk (s.task uid).trVec = true)
    (en : Engine) (code : Nat) (val epc src : W64) :
    let u := s.takeTrap uid en code val epc src
    let t := u.task uid
    KeepsMemory s u ∧ t.trBusy = true ∧ t.trCode = BitVec.ofNat 9 code ∧ t.trVal = val ∧ t.trEpc = epc ∧
      t.ctl.pc = (s.task uid).trVec ∧ t.raised = (s.task uid).raised ∧ t.arPend = (s.task uid).arPend := by
  intro u t
  obtain ⟨tlbis, x, taken, saved⟩ : ∃ tlbis x, u = ({ s with tlbis } : State).setTask uid x ∧
      (x.trBusy = true ∧ x.trCode = BitVec.ofNat 9 code ∧ x.trVal = val ∧ x.trEpc = epc ∧
        x.ctl.pc = (s.task uid).trVec ∧ x.raised = (s.task uid).raised ∧ x.arPend = (s.task uid).arPend) :=
    ⟨_, _, (if_neg (by simp [free])).trans (if_neg (by simp [vector])), rfl, rfl, rfl, rfl, rfl, rfl, rfl⟩
  have task : t = x := (congrArg (State.task · uid) taken).trans (task_setTask _ uid x)
  rw [task]
  exact ⟨keepsMemory_of_mem (by rw [taken]; rfl), saved⟩

/-! ### Deadlock (06 R152) -/

/-- The engines that satisfy a condition as a number: bit n is engine n's. -/
theorem engineBits_getLsbD (p : Engine → Bool) (e : Engine) :
    (BitVec.ofNat 64 (engines.foldl (fun acc e => acc + if p e then 2 ^ e.code else 0) 0)).getLsbD e.code = p e := by
  have bits : ∀ a b c d : Bool, ∀ n : Fin 4,
      (BitVec.ofNat 64 (0 + (if a then 2 ^ 0 else 0) + (if b then 2 ^ 1 else 0) + (if c then 2 ^ 2 else 0) +
        if d then 2 ^ 3 else 0)).getLsbD n = [a, b, c, d][n] := by decide
  have here := bits (p .ctl) (p .lda) (p .exe) (p .sta)
  cases e with
  | ctl => exact here 0
  | lda => exact here 1
  | exe => exact here 2
  | sta => exact here 3

/-! ### Polls (12 R259) -/

/-- A WAITV's poll whose condition does not hold is counted, and its tick kept. -/
theorem waitvPoll_fails {s : State} {uid : Nat} {ra rb : GReg} {c : Cond} {wide : Bool} {e : TlbEntry}
    (waiting : s.waitingAt uid = some (ra, rb, c, wide)) (due : s.pollDue (s.task uid) = true) (runs : s.ldaPolls uid = true) :
    let t := s.task uid
    let va := (t.lda.get ra).toNat / atomBytes wide * atomBytes wide
    let found := s.lookup t.die (t.core.getD 0) t.vdKey t.asid.toNat va
    let r := found.2.poll uid [{ e.piece va with len := atomBytes wide }]
    found.1 = some e → e.refuses t.priv.isS .read = none → found.2.routed t.die (e.phys va) = true →
    waitvHolds c wide r.1 (t.lda.get rb) = false →
    exec (.waitvPoll uid) s = .next (r.2.modTask uid fun t =>
      { t with polls := t.polls + 1, lastPoll := some ((r.2.die t.die).clk.toNat) }) := by
  intro t va found r hit allowed routed fails
  have looked : s.lookup t.die (t.core.getD 0) t.vdKey t.asid.toNat va = (some e, found.2) := Prod.ext hit rfl
  show execWaitvPoll uid s = _
  unfold execWaitvPoll
  simp only [waiting]
  refine (if_neg (by simp [due, runs])).trans ?_
  split
  · next miss => cases miss.symm.trans looked
  · next e' z hit' =>
    obtain ⟨rfl, rfl⟩ : e' = e ∧ z = found.2 := by simpa using hit'.symm.trans looked
    have goes : ¬ ((e'.refuses t.priv.isS .read).isSome || !found.2.routed t.die (e'.phys va)) = true := by simp [allowed, routed]
    exact (if_neg goes).trans (if_neg (Bool.eq_false_iff.mp fails))

/-! ### Traps raised outside an instruction (12 R265, R272) -/

section
variable {s : State} {uid : Nat} (free : (s.task uid).trBusy = false) (vector : pointerOk (s.task uid).trVec = true)
include free vector

/-- A task that nothing can release traps in CTL. -/
theorem streamDeadlock_traps (stuck : s.deadlocked uid = true) :
    ∃ t, exec (.streamDeadlock uid) s = .next t ∧ KeepsMemory s t ∧ (t.task uid).trBusy = true ∧
      (t.task uid).trCode = BitVec.ofNat 9 Cause.streamDeadlock ∧ (t.task uid).ctl.pc = (s.task uid).trVec ∧
      ∀ e : Engine, (t.task uid).trVal.getLsbD e.code =
        (((s.task uid).eng e).run != .idle && ((s.task uid).eng e).stall == some true) := by
  refine ⟨_, if_pos stuck, ?_⟩
  obtain ⟨memory, busy, code, val, -, pc, -, -⟩ := takeTrap_taken free vector .ctl Cause.streamDeadlock
    (BitVec.ofNat 64 (engines.foldl (fun acc e => acc + if ((s.task uid).eng e).run != .idle &&
      ((s.task uid).eng e).stall == some true then 2 ^ e.code else 0) 0)) (s.task uid).ctl.pc 0#64
  refine ⟨memory, busy, code, pc, fun e => ?_⟩
  rw [val]
  exact engineBits_getLsbD (fun e => ((s.task uid).eng e).run != .idle && ((s.task uid).eng e).stall == some true) e

/-- The first raised trap is taken, and the others wait. -/
theorem trapEntry_takes {r : Raised} (first : (s.task uid).firstRaised = some r) (may : s.mayTrap uid = true) :
    ∃ t, exec (.trapEntry uid) s = .next t ∧ KeepsMemory s t ∧ (t.task uid).trBusy = true ∧
      (t.task uid).trCode = BitVec.ofNat 9 r.code ∧ (t.task uid).trVal = r.val ∧
      (t.task uid).trEpc = ((s.task uid).eng r.eng).pc ∧ (t.task uid).ctl.pc = (s.task uid).trVec ∧
      ∀ x, x ∈ (t.task uid).raised → x.later = true := by
  let left := s.modTask uid fun t => { t with raised := (t.raised.erase r).map fun x => { x with later := true } }
  have task : left.task uid = { s.task uid with raised := ((s.task uid).raised.erase r).map fun x => { x with later := true } } :=
    task_modTask ..
  have takes : exec (.trapEntry uid) s =
      .next (left.takeTrap uid r.eng r.code r.val ((left.task uid).eng r.eng).pc 0#64) := by
    show execTrapEntry uid s = _
    simp only [execTrapEntry, first, may]
    rfl
  obtain ⟨memory, busy, code, val, epc, pc, raised, -⟩ := takeTrap_taken (s := left) (uid := uid) (by rw [task]; exact free)
    (by rw [task]; exact vector) r.eng r.code r.val ((left.task uid).eng r.eng).pc 0#64
  refine ⟨_, takes, memory, busy, code, val, ?_, ?_, fun x later => ?_⟩
  · rw [epc, task]
    rfl
  · rw [pc, task]
  · rw [raised, task] at later
    obtain ⟨y, -, rfl⟩ := List.mem_map.mp later
    rfl

/-- The pending arithmetic trap is taken with its flags. -/
theorem arith_takes (may : s.mayTrap uid = true) (none_raised : (s.task uid).traps = false) (due : s.arithDue uid = true)
    (runs : (s.task uid).exe.run ≠ .idle) :
    ∃ t, exec (.arith uid) s = .next t ∧ KeepsMemory s t ∧ (t.task uid).trBusy = true ∧
      (t.task uid).trCode = BitVec.ofNat 9 Cause.arith ∧ (t.task uid).trVal = (s.task uid).arSet.setWidth 64 ∧
      (t.task uid).trEpc = (s.task uid).exe.pc ∧ (t.task uid).arPend = false := by
  let left := s.modTask uid fun t => { t with arPend := false, arSet := 0#9, arSlots := 0, arStop := false }
  have task : left.task uid = { s.task uid with arPend := false, arSet := 0#9, arSlots := 0, arStop := false } := task_modTask ..
  have takes : exec (.arith uid) s =
      .next (left.takeTrap uid .exe Cause.arith ((s.task uid).arSet.setWidth 64) (s.task uid).exe.pc 0#64) :=
    if_neg (by simp [may, none_raised, due, runs])
  obtain ⟨memory, busy, code, val, epc, -, -, pend⟩ := takeTrap_taken (s := left) (uid := uid) (by rw [task]; exact free)
    (by rw [task]; exact vector) .exe Cause.arith ((s.task uid).arSet.setWidth 64) (s.task uid).exe.pc 0#64
  exact ⟨_, takes, memory, busy, code, val, epc, by rw [pend, task]⟩

end

/-! ### Freezes (12 R273) -/

theorem core_modCore (s : State) (k : Nat) (f : Core → Core) : (s.modCore k f).core k = f (s.core k) := by
  simp [State.modCore, State.core, NMap.getD]

theorem die_modDie (s : State) (d : Nat) (f : Die → Die) : (s.modDie d f).die d = f (s.die d) := by
  simp [State.modDie, State.die, NMap.getD]

theorem correctedErrorFreeze_freezes {s : State} {core : Nat} (runs : (s.core core).freeze = false)
    (serves : (s.die (core / 144)).inService = true) :
    ∃ t, exec (.correctedErrorFreeze core) s = .next t ∧ KeepsMemory s t ∧ (t.core core).freeze = true ∧
      (t.die (core / 144)).frz = (s.die (core / 144)).frz + 1 ∧ t.tasks = s.tasks := by
  let frozen := s.modCore core fun c => { c with freeze := true }
  refine ⟨frozen.modDie (core / 144) fun d => { d with frz := d.frz + 1#64 }, if_neg (by simp [runs, serves, coresPerDie]),
    fun _ => rfl, ?_, ?_, rfl⟩
  · exact congrArg Core.freeze (core_modCore s core fun c => { c with freeze := true })
  · exact congrArg Die.frz (die_modDie frozen (core / 144) _)

theorem freezeEnd_ends (s : State) (core : Nat) :
    ∃ t, exec (.freezeEnd core) s = .next t ∧ (t.core core).freeze = false ∧ KeepsMemory s t ∧ t.tasks = s.tasks ∧
      (t.core core).tlb = (s.core core).tlb := by
  refine ⟨s.modCore core fun c => { c with freeze := false }, rfl, ?_, fun _ => rfl, rfl, ?_⟩
  · rw [core_modCore]
  · rw [core_modCore]

/-- Settles O50: the traps by what a trap that is taken saves, the poll and the freezes by their steps. -/
theorem trapEvents : Obligations.TrapEvents :=
  ⟨⟨fun _ _ stuck free vector => streamDeadlock_traps free vector stuck,
      fun _ _ _ _ _ _ _ waiting due => fun runs => waitvPoll_fails waiting due runs⟩,
    fun _ _ _ first may free vector => trapEntry_takes free vector first may,
    fun _ _ may none_raised due runs free vector => arith_takes free vector may none_raised due runs,
    fun _ _ => correctedErrorFreeze_freezes, freezeEnd_ends⟩

end Sys2Proof.Proofs.TrapEvents

/-!
SUPPORT. What a write at a home (07 R162, 14 R308 to R312) and the records that it or a read gives rise to (12 R274, R275) can
change, as equalities of states with those fields left out.
-/

namespace Sys2Proof.Proofs.Homes

open Sys2Proof.Machine

/-! ### The integrity of lines and what is seen of them -/

/-- A state without the integrity of its lines (14 R308 to R311), what tasks may still see (09 R211, R222) and the count of free
values. -/
def plain (s : State) : State :=
  { s with bad := [], sealed := [], minors := [], nodes := [], majors := [], views := [], fresh := 0 }

theorem mem_of_plain {s t : State} (same : plain s = plain t) : s.mem = t.mem := congrArg (·.mem) same

@[simp] theorem plain_seal (s : State) (vd : Option Nat) (pa : Nat) : plain (s.seal vd pa) = plain s := by
  unfold State.seal
  split
  · rfl
  · rfl

@[simp] theorem plain_countNodes (s : State) (pa : Nat) : plain (s.countNodes pa) = plain s :=
  List.foldlRecOn (motive := fun t => plain t = plain s) _ _ rfl fun _ kept _ _ => kept

@[simp] theorem plain_countWrite (s : State) (pa : Nat) : plain (s.countWrite pa) = plain s := by
  simp only [State.countWrite]
  split
  · exact plain_countNodes s pa
  · exact plain_countNodes s pa

theorem rememberViews_eq (s : State) (w : Who) (pa : Nat) (dws : List Nat) :
    s.rememberViews w pa dws = { s with views := (s.rememberViews w pa dws).views } := by
  unfold State.rememberViews
  split
  · rfl
  · dsimp only
    split_ifs <;> rfl

/-! ### All that homes and records touch -/

/-- A state without memory and its integrity, the bells, the accesses, the virtual devices, the dies, the modules and the records
that wait. -/
def outside (s : State) : State :=
  { plain s with mem := [], bells := [], accesses := [], vds := [], dies := [], modules := [], owed := [] }

theorem outside_of_plain {s t : State} (same : plain s = plain t) : outside s = outside t := by
  unfold outside
  rw [same]

@[simp] theorem outside_seal (s : State) (vd : Option Nat) (pa : Nat) : outside (s.seal vd pa) = outside s :=
  outside_of_plain (plain_seal ..)

@[simp] theorem outside_countWrite (s : State) (pa : Nat) : outside (s.countWrite pa) = outside s :=
  outside_of_plain (plain_countWrite ..)

@[simp] theorem outside_poke (s : State) (pa : Nat) (bs : List Byte) : outside (s.poke pa bs) = outside s := rfl

@[simp] theorem outside_bad (s : State) (bad : NMap Nat) : outside { s with bad } = outside s := rfl

@[simp] theorem outside_owed (s : State) (owed : Notes) : outside { s with owed } = outside s := rfl

@[simp] theorem outside_crossed (s : State) (l : List (Nat × Nat)) : outside (s.crossed l) = outside s :=
  List.foldlRecOn (motive := fun t => outside t = outside s) l _ rfl fun _ kept _ _ => kept

@[simp] theorem outside_crossTo (s : State) (die pa : Nat) : outside (s.crossTo die pa) = outside s := by
  simp only [State.crossTo]
  split
  · rfl
  · split
    · simp
    · rfl

@[simp] theorem outside_crossReads (s : State) (die : Nat) (reads : List Read) : outside (s.crossReads die reads) = outside s :=
  List.foldlRecOn (motive := fun t => outside t = outside s) reads _ rfl fun _ kept _ _ => (outside_crossTo ..).trans kept

@[simp] theorem outside_finishAtomics (s : State) (pa n : Nat) : outside (s.finishAtomics pa n) = outside s := by
  refine List.foldlRecOn (motive := fun t => outside t = outside s) s.accesses _ rfl fun t kept a _ => ?_
  refine List.foldlRecOn (motive := fun u => outside u = outside s) a.2.parts.zipIdx _ kept fun u kept p _ => ?_
  dsimp only
  split
  · split_ifs
    · exact kept
    · exact kept
  · exact kept

@[simp] theorem outside_watchService (s : State) (changed : List Nat) (vdk : Nat) :
    outside (s.watchService changed vdk).1 = outside s := by
  simp only [State.watchService]
  split_ifs
  · rfl
  · split
    · rfl
    · split_ifs
      · rfl
      · split <;> rfl

@[simp] theorem outside_watchServices (s : State) (changed : List Nat) : outside (s.watchServices changed).1 = outside s :=
  List.foldlRecOn (motive := fun r : State × Notes => outside r.1 = outside s) s.vds _ rfl fun _ kept _ _ =>
    (outside_watchService ..).trans kept

@[simp] theorem outside_ringBells (s : State) (die line : Nat) (changed : List Nat) :
    outside (s.ringBells die line changed).1 = outside s :=
  List.foldlRecOn (motive := fun r : State × Notes => outside r.1 = outside s) _ _ rfl fun _ kept _ _ => kept

@[simp] theorem outside_applyLine (s : State) (w : Who) (rings : Bool) (va pa : Nat) (bs : List Byte) :
    outside (s.applyLine w rings va pa bs).1 = outside s := by
  simp only [State.applyLine]
  split
  · cases rings <;> cases w.host <;> simp
  · split
    · rfl
    · cases rings <;> simp

@[simp] theorem outside_applyWrite (s : State) (w : Who) (rings : Bool) (va pa : Nat) (bs : List Byte) :
    outside (s.applyWrite w rings va pa bs).1 = outside s :=
  List.foldlRecOn (motive := fun r : State × Notes => outside r.1 = outside s) _ _ rfl fun _ kept _ _ =>
    (outside_applyLine ..).trans kept

/-! ### Records (12 R274, R275) -/

@[simp] theorem outside_logRecord (s : State) (m : Nat) (r : Rec) : outside (s.logRecord m r) = outside s := rfl

@[simp] theorem outside_firmwareRecord (s : State) (m : Nat) (r : Rec) : outside (s.firmwareRecord m r) = outside s := rfl

@[simp] theorem outside_foldl_logged (s : State) (m : Nat) (l : Notes) :
    outside (l.foldl (fun s p => (s.logRecord m p.2).firmwareRecord m p.2) s) = outside s :=
  List.foldlRecOn (motive := fun t => outside t = outside s) l _ rfl fun _ kept _ _ => kept

@[simp] theorem outside_putRecords (n : Nat) (s : State) (l : Notes) : outside (s.putRecords n l) = outside s := by
  induction n generalizing s l with
  | zero => rfl
  | succ n ih =>
    cases l with
    | nil => rfl
    | cons p rest =>
      simp only [State.putRecords]
      split
      · simp [ih]
      · split
        · simp [ih]
        · split
          · simp [ih]
          · split
            · simp [ih, apply_ite outside]
            · split <;> simp [ih, apply_ite outside]

@[simp] theorem outside_records (s : State) (l : Notes) : outside (s.records l) = outside s := by
  unfold State.records State.flushRecords
  split
  · rfl
  · simp

@[simp] theorem outside_noteReads (s : State) (w : Walk) (reads : List Read) : outside (s.noteReads w reads) = outside s := by
  unfold State.noteReads
  split
  · rfl
  · exact outside_records ..

end Sys2Proof.Proofs.Homes

/-!
SUPPORT. A write inside one line that nothing watches (07 R162, 14 R308 to R312, R315), and the part of a store that makes it
(06 R142).
-/

namespace Sys2Proof.Proofs.HomeWrites

open Sys2Proof.Machine Sys2Proof.Laws Sys2Proof.Proofs.Maps Sys2Proof.Proofs.Landings Sys2Proof.Proofs.Homes

/-! ### Some bytes of a line replaced -/

theorem bytes_getD (s : State) (pa : Nat) {i n : Nat} (inside : i < n) : (s.bytes pa n).getD i 0#8 = s.byte (pa + i) := by
  simp [State.bytes, List.getD_eq_getElem?_getD, inside]

@[simp] theorem bytes_length (s : State) (pa n : Nat) : (s.bytes pa n).length = n := by simp [State.bytes]

theorem patch_length {old new : List Byte} {off : Nat} (inside : off + new.length ≤ old.length) :
    (patch old off new).length = old.length := by
  simp only [patch, List.length_append, List.length_take, List.length_drop]
  omega

theorem patch_getD {old new : List Byte} {off : Nat} (inside : off + new.length ≤ old.length) (i : Nat) :
    (patch old off new).getD i 0#8 = if off ≤ i ∧ i < off + new.length then new.getD (i - off) 0#8 else old.getD i 0#8 := by
  have front : (old.take off).length = off := by rw [List.length_take]; omega
  simp only [patch, List.append_assoc, List.getD_eq_getElem?_getD]
  by_cases before : i < off
  · rw [List.getElem?_append_left (by omega), List.getElem?_take_of_lt before, if_neg (by omega)]
  · rw [List.getElem?_append_right (by omega), front]
    by_cases within : i < off + new.length
    · rw [List.getElem?_append_left (by omega), if_pos (by omega)]
    · rw [List.getElem?_append_right (by omega), List.getElem?_drop, if_neg (by omega),
        show off + new.length + (i - off - new.length) = i by omega]

/-- Bytes read, changed in part and written back: only the part has changed. -/
theorem byte_poke_patch {s : State} (inv : s.Inv) (line : Nat) {off n : Nat} {bs : List Byte} (inside : off + bs.length ≤ n) (x : Nat) :
    (s.poke line (patch (s.bytes line n) off bs)).byte x =
      if line + off ≤ x ∧ x < line + off + bs.length then bs.getD (x - (line + off)) 0#8 else s.byte x := by
  have fits : off + bs.length ≤ (s.bytes line n).length := by simpa using inside
  rw [byte_poke inv, patch_length fits, bytes_length]
  by_cases here : line ≤ x ∧ x < line + n
  · have back : line + (x - line) = x := by omega
    rw [if_pos here, patch_getD fits, bytes_getD s line (by omega), back, Nat.sub_sub]
    exact if_congr (by omega) rfl rfl
  · rw [if_neg here, if_neg (by omega)]

/-! ### Nobody watches -/

theorem mem_of_find {α : Type} {m : NMap α} {k : Nat} {v : α} (found : NMap.find? m k = some v) : (k, v) ∈ m := by
  induction m with
  | nil => cases found
  | cons c m ih =>
    obtain ⟨j, x⟩ := c
    by_cases here : j = k
    · simp only [NMap.find?, here, if_true, Option.some.injEq] at found
      simp [here, found]
    · simp only [NMap.find?, here, if_false] at found
      exact List.mem_cons_of_mem _ (ih found)

theorem vd_svcOn {s : State} (unserved : ∀ v, v ∈ s.vds → v.2.svcOn = false) (k : Nat) : (s.vd k).svcOn = false := by
  unfold State.vd NMap.getD
  cases found : NMap.find? s.vds k with
  | none => rfl
  | some v => exact unserved _ (mem_of_find found)

theorem watchServices_unserved {s : State} (unserved : ∀ v, v ∈ s.vds → v.2.svcOn = false) (changed : List Nat) :
    s.watchServices changed = (s, []) := by
  refine List.foldlRecOn (motive := fun r => r = (s, [])) s.vds _ rfl fun r same v _ => ?_
  subst same
  simp [State.watchService, vd_svcOn unserved]

theorem ringBells_unwatched {s : State} {die line : Nat} (unwatched : s.bellsAt die line = []) (changed : List Nat) :
    s.ringBells die line changed = (s, []) := by
  simp only [State.ringBells, unwatched, List.foldl_nil]

/-! ### The write -/

theorem pieces_one {pa : Nat} {bs : List Byte} (inside : pa % 64 + bs.length ≤ 64) (some_byte : bs ≠ []) :
    pieces (bs.length + 1) pa bs = [(pa, bs)] := by
  have whole : bs.take (64 - pa % 64) = bs := List.take_of_length_le (by omega)
  have rest : bs.drop (64 - pa % 64) = [] := List.drop_of_length_le (by omega)
  have stop (n q : Nat) : pieces n q [] = [] := by cases n <;> rfl
  simp [pieces, some_byte, whole, rest, stop]

/-- A state in which a line has been written in part: it verifies, under its writer's keys and with counters that have
advanced. -/
def lineWritten (s : State) (w : Who) (pa : Nat) (bs : List Byte) : State :=
  ((({ s with bad := s.bad.erase (pa / 64) } : State).seal w.vd pa).countWrite pa).poke (lineOf pa)
    (patch (s.bytes (lineOf pa) 64) (pa - lineOf pa) bs)

theorem plain_lineWritten (s : State) (w : Who) (pa : Nat) (bs : List Byte) :
    plain (lineWritten s w pa bs) = plain (s.poke (lineOf pa) (patch (s.bytes (lineOf pa) 64) (pa - lineOf pa) bs)) := by
  have sealed : plain ((({ s with bad := s.bad.erase (pa / 64) } : State).seal w.vd pa).countWrite pa) = plain s := by simp; rfl
  exact congrArg (State.poke · _ _) sealed

theorem lineWritten_mem (s : State) (w : Who) (pa : Nat) (bs : List Byte) :
    (lineWritten s w pa bs).mem = (s.poke (lineOf pa) (patch (s.bytes (lineOf pa) 64) (pa - lineOf pa) bs)).mem :=
  mem_of_plain (plain_lineWritten s w pa bs)

/-- A write that its tag lets through, and that meets no damage, is applied with what tasks may still see brought up to date. -/
theorem homeWrite_eq {s : State} {w : Who} {pa : Nat} (served : s.tagOpen w pa = true) (va : Nat) (bs : List Byte) :
    ∃ views, s.homeWrite w .ok va pa bs =
      let r := ({ s with views } : State).applyWrite w true va pa bs
      r.1.records r.2 := by
  refine ⟨(s.rememberViews w pa (doublewords pa bs.length)).views, ?_⟩
  rw [← rememberViews_eq]
  exact if_neg (by simp [served])

section
variable {s : State} {w : Who} {va pa : Nat} {bs : List Byte} (hbm : isHostPa pa = false) (inside : pa % 64 + bs.length ≤ 64)
  (readable : s.unreadable w.vd pa = false) (unserved : ∀ v, v ∈ s.vds → v.2.svcOn = false)
  (unwatched : s.bellsAt (s.home 0 pa) (lineOf pa) = [])
include hbm readable unserved unwatched

/-- The write of one line in which no bell and no service ring has a part. -/
theorem applyLine_unwatched : s.applyLine w true va pa bs = (lineWritten s w pa bs, []) := by
  obtain ⟨clean, sound⟩ : s.lineFault w.vd pa = none ∧ s.poisoned pa = false := by simpa [State.unreadable] using readable
  have bells : (lineWritten s w pa bs).bells = s.bells := congrArg (·.bells) (plain_lineWritten s w pa bs)
  have vds : (lineWritten s w pa bs).vds = s.vds := congrArg (·.vds) (plain_lineWritten s w pa bs)
  have quiet : (lineWritten s w pa bs).bellsAt (s.home 0 pa) (lineOf pa) = [] := by
    rw [← unwatched, State.bellsAt, bells, State.bellsAt]
  have off : ∀ v, v ∈ (lineWritten s w pa bs).vds → v.2.svcOn = false := vds ▸ unserved
  unfold lineWritten at quiet off
  simp only [State.applyLine, hbm, sound, clean, Option.isSome_none, Bool.false_eq_true, if_false, if_true,
    ringBells_unwatched quiet, watchServices_unserved off, List.append_nil]
  rfl

/-- A write inside one line that its writer can verify, in which no bell and no service ring has a part: memory, where it writes,
and the integrity of its line are all that has changed. -/
theorem homeWrite_unwatched (inv : s.Inv) (served : s.tagOpen w pa = true) (inside : pa % 64 + bs.length ≤ 64) :
    let t := s.homeWrite w .ok va pa bs
    plain t = plain { s with mem := t.mem } ∧
      ∀ x, t.byte x = if pa ≤ x ∧ x < pa + bs.length then bs.getD (x - pa) 0#8 else s.byte x := by
  intro t
  obtain ⟨views, writes⟩ : ∃ views, t = _ := homeWrite_eq served va bs
  by_cases none_written : bs = []
  · subst none_written
    rw [writes]
    exact ⟨rfl, fun x => (if_neg (by simp)).symm⟩
  · have line : t = lineWritten { s with views } w pa bs := by
      rw [writes]
      simp only [State.applyWrite, pieces_one inside none_written, List.foldl_cons, List.foldl_nil,
        applyLine_unwatched (s := { s with views }) hbm readable unserved unwatched]
      rfl
    have mem := (congrArg (·.mem) line).trans (lineWritten_mem { s with views } w pa bs)
    refine ⟨?_, fun x => ?_⟩
    · rw [mem, line, plain_lineWritten]
      rfl
    · have start : lineOf pa + (pa - lineOf pa) = pa := by unfold lineOf; omega
      have fits : pa - lineOf pa + bs.length ≤ 64 := by unfold lineOf; omega
      have written := byte_poke_patch inv (lineOf pa) fits x
      rw [start] at written
      rw [← written, State.byte, mem]
      rfl

end

/-! ### The store that makes it (06 R142) -/

theorem dropAccess_keeps (s : State) (id : Nat) :
    (s.dropAccess id).bells = s.bells ∧
      ∀ u, (s.dropAccess id).task u = s.task u ∨ (s.dropAccess id).task u = (s.task u).wake := by
  unfold State.dropAccess
  split
  · exact ⟨rfl, fun _ => .inl rfl⟩
  · next a _ =>
    dsimp only
    split_ifs
    · refine ⟨rfl, fun u => ?_⟩
      by_cases its : u = a.uid
      · subst its
        exact .inr (task_modTask ..)
      · exact .inl (task_modTask_other _ _ its)
    · exact ⟨rfl, fun _ => .inl rfl⟩

/-- A store that is complete goes; otherwise nothing changes. -/
theorem settle_cases (s : State) (id : Nat) : s.settle id = s ∨ s.settle id = s.dropAccess id := by
  unfold State.settle
  split
  · exact .inl rfl
  · split
    · split_ifs
      · exact .inr rfl
      · exact .inl rfl
    · exact .inl rfl

theorem settle_keeps (s : State) (id : Nat) :
    (s.settle id).mem = s.mem ∧ (s.settle id).bells = s.bells ∧
      ∀ u, (s.settle id).task u = s.task u ∨ (s.settle id).task u = (s.task u).wake := by
  rcases settle_cases s id with stays | goes
  · rw [stays]
    exact ⟨rfl, rfl, fun _ => .inl rfl⟩
  · rw [goes]
    exact ⟨dropAccess_mem s id, dropAccess_keeps s id⟩

/-- A store whose parts are all done is complete. -/
theorem settle_done {s : State} {id : Nat} {a : Access} (found : NMap.find? s.accesses id = some a) (store : a.purpose = .store)
    (done : a.parts.all (·.stat == .done) = true) : NMap.find? (s.settle id).accesses id = none := by
  have goes : s.settle id = s.dropAccess id := by simp only [State.settle, found, store, done, if_true]
  rw [goes, dropAccess_accesses found, find_erase_same]

theorem find_modPart {s : State} {id : Nat} {a : Access} (found : NMap.find? s.accesses id = some a) (i : Nat) (f : Part → Part) :
    NMap.find? (s.modPart id i f).accesses id = some { a with parts := updAt a.parts i f } := by
  simp only [State.modPart, find_upd, found, Option.map_some]

/-- Waking a task lets its sequencers look again at what they wait for. -/
theorem wake_keeps (t : Task) : KeepsRegisters t t.wake ∧ KeepsStorage t t.wake ∧ KeepsFlags t t.wake ∧ KeepsSpecial t t.wake :=
  ⟨fun e => by cases e <;> rfl, by simp [KeepsStorage, Task.wake, Task.mapEngs], by simp [KeepsFlags, Task.wake, Task.mapEngs],
    by simp [KeepsSpecial, Task.wake, Task.mapEngs]⟩

theorem keeps_refl (t : Task) : KeepsRegisters t t ∧ KeepsStorage t t ∧ KeepsFlags t t ∧ KeepsSpecial t t :=
  ⟨fun _ => rfl, by simp [KeepsStorage], by simp [KeepsFlags], by simp [KeepsSpecial]⟩

/-- A part of a store that may be performed in memory of its own die is written and done. -/
theorem homeWriteApply_store {s : State} {id i : Nat} {a : Access} {p : Part} (found : NMap.find? s.accesses id = some a)
    (part : a.parts[i]? = some p) (store : a.purpose = .store) (write : p.write = true) (near : s.isPeer a.die p.pa = false)
    (may : s.mayPerform a p = true) (g : Integ) :
    exec (.homeWriteApply id i g) s =
      .next (((s.homeWrite a.who g p.va p.pa p.bytes).modPart id i fun p => { p with stat := .done }).settle id) := by
  show execHomeWriteApply id i g s = _
  simp only [execHomeWriteApply, found, part, store, near, may, write]
  rfl

/-- Settles O4: the write by the one line that it changes, the rest by what it and the end of the store leave. -/
theorem homeWriteFrame : Obligations.HomeWriteFrame := by
  intro s id i a p inv found part store write near may served inside hbm readable unserved unwatched
  obtain ⟨same, bytes⟩ := homeWrite_unwatched (w := a.who) (va := p.va) hbm readable unserved unwatched inv served inside
  let u := s.homeWrite a.who .ok p.va p.pa p.bytes
  let v := u.modPart id i fun p => { p with stat := .done }
  obtain ⟨mem, bells, tasks⟩ := settle_keeps v id
  have kept : v.tasks = s.tasks := congrArg (·.tasks) same
  have task (k : Nat) : v.task k = s.task k := by rw [State.task, kept, State.task]
  refine ⟨v.settle id, homeWriteApply_store found part store write near may .ok, fun x => ?_, ?_, fun k => ?_, fun alone => ?_⟩
  · rw [← bytes x, State.byte, mem]
    rfl
  · exact bells.trans (congrArg (·.bells) same)
  · rw [← task k]
    rcases tasks k with same | woken
    · rw [same]
      exact keeps_refl _
    · rw [woken]
      exact wake_keeps _
  · have first : i = 0 := by
      rw [alone] at part
      cases i with
      | zero => rfl
      | succ i => cases part
    have kept : u.accesses = s.accesses := congrArg (·.accesses) same
    refine settle_done (find_modPart (kept ▸ found) i _) store ?_
    rw [first, alone]
    rfl

end Sys2Proof.Proofs.HomeWrites

/-!
SUPPORT. BELLSET, BELLCLR and BELLQRY (07 R158 to R160): each issues or traps as its own check does, and a BELLSET's arming point
arms a free entry or gives a status.
-/

namespace Sys2Proof.Proofs.Bells

open Sys2Proof.Machine Sys2Proof.Laws Sys2Proof.Proofs.Control

/-! ### From the frame of an instruction of a class -/

/-- An instruction of a class issues with its effect where its check passes. -/
theorem issues_of_classCheck {i : Instr} {cls : PathClass} {chk : State → Chk} {eff : State → State} {cond : State → Prop}
    (arm : ∀ s, exec i s = issueClass i cls chk eff s) (pass : ∀ s, cond s → chk s = .ok) : Issues i (some cls) cond eff :=
  fun s admitted holds => (arm s).trans (issueClass_admits admitted chk eff (pass s.landed holds))

/-- An instruction of a class traps where its check does. -/
theorem traps_of_classCheck {i : Instr} {cls : PathClass} {chk : State → Chk} {eff : State → State} {cond : State → Prop}
    {code : State → Nat} {val : State → W64} (arm : ∀ s, exec i s = issueClass i cls chk eff s)
    (fail : ∀ s, cond s → chk s = .trap (code s) (val s)) : Traps i (some cls) cond code val :=
  fun s admitted holds => (arm s).trans (issueClass_traps admitted chk eff (fail s.landed holds))

theorem needS_of_isS {s : State} (level : s.me.priv.isS = true) (k : Chk) : s.needS k = k := if_pos level

/-! ### The arming point (07 R158, R172) -/

/-- A status is no index. -/
theorem bellStatus_large {n : Nat} (small : n < 2 ^ 63) : 2 ^ 63 ≤ (bellStatus n).toNat := by
  rw [bellStatus, BitVec.toNat_ofNat, Nat.mod_eq_of_lt (by omega)]
  omega

theorem armRange_status {s : State} {x : Access} {a n c : Nat} {root : W64} {asid : BitVec 16}
    (refused : s.armRange x a n root asid = .error c) : c ≤ 4 := by
  simp only [State.armRange] at refused
  split at refused
  · cases refused
    decide
  · split at refused
    · cases refused
      decide
    · split_ifs at refused
      all_goals cases refused; decide

theorem leastFrom_lt {start n i : Nat} {p : Nat → Bool} (least : leastFrom start p n = some i) : i < start + n := by
  induction n generalizing start with
  | zero => cases least
  | succ n ih =>
    unfold leastFrom at least
    split_ifs at least
    · cases least
      omega
    · have := ih least
      omega

theorem freeBell_lt {s : State} {die i : Nat} (free : s.freeBell die = some i) : i < 4096 := by
  have := leastFrom_lt free
  unfold bellCount at this
  omega

theorem bell_modBell (s : State) (k : Nat) (f : Bell → Bell) : (s.modBell k f).bell k = f (s.bell k) := by
  simp [State.modBell, State.bell, NMap.getD]

theorem bell_modBell_other (s : State) {k j : Nat} (f : Bell → Bell) (other : j ≠ k) : (s.modBell k f).bell j = s.bell j := by
  simp [State.modBell, State.bell, NMap.getD, find_set_other _ _ other]

/-- What a BELLSET's work answers: a status, or the index of an entry that it has armed from its operands. -/
theorem bellset_cases (s : State) (x : Access) (a b c root : W64) (asid : BitVec 16) (vec : W64) :
    (∃ n t, n ≤ 5 ∧ s.bellset x a b c root asid vec = (bellStatus n, t)) ∨
    ∃ (i : Nat) (t : State) (pa now : Nat) (d : List Byte), i < 4096 ∧ s.bellset x a b c root asid vec =
      (BitVec.ofNat 64 i, t.modBell (x.die * 4096 + i) fun _ => armed x.vdk a b.toNat pa now d root asid vec) := by
  unfold State.bellset
  extract_lets n pages looked
  split
  · exact .inl ⟨2, _, by decide, rfl⟩
  · split
    · next status refused => exact .inl ⟨_, _, (armRange_status refused).trans (by decide), rfl⟩
    · split
      · exact .inl ⟨4, _, by decide, rfl⟩
      · dsimp only
        split
        · exact .inl ⟨5, _, by decide, rfl⟩
        · split
          · exact .inl ⟨1, _, by decide, rfl⟩
          · split
            · exact .inl ⟨1, _, by decide, rfl⟩
            · next free => exact .inr ⟨_, _, _, _, _, freeBell_lt free, rfl⟩

/-- An index that a BELLSET gives is that of the entry it has armed. -/
theorem bellset_arms {s : State} {x : Access} {a b c root : W64} {asid : BitVec 16} {vec : W64} :
    let r := s.bellset x a b c root asid vec
    r.1.toNat < 2 ^ 63 → r.1.toNat < 4096 ∧ let y := r.2.bell (x.die * 4096 + r.1.toNat)
      y.state = .armed ∧ y.vd = x.vdk ∧ y.base = a ∧ y.len = b.toNat ∧ y.s1root = root ∧ y.asid = asid ∧ y.trVec = vec := by
  intro r index
  rcases bellset_cases s x a b c root asid vec with ⟨n, t, small, status⟩ | ⟨i, t, pa, now, d, small, arms⟩
  · have large : 2 ^ 63 ≤ r.1.toNat := by
      rw [show r = _ from status]
      exact bellStatus_large (by omega)
    omega
  · have number : (BitVec.ofNat 64 i).toNat = i := by
      rw [BitVec.toNat_ofNat, Nat.mod_eq_of_lt (by omega)]
    rw [show r = _ from arms, number, bell_modBell]
    exact ⟨small, rfl, rfl, rfl, rfl, rfl, rfl, rfl⟩

/-- The arming point of a BELLSET whose walks and descriptor routes lead to (06 R145, 07 R158). -/
theorem asyncResultLanding_arms {s : State} {id : Nat} {x : Access} {d : GReg} {a b c root : W64} {asid : BitVec 16} {vec : W64}
    (found : NMap.find? s.accesses id = some x) (arm : x.purpose = .arm d a b c root asid vec)
    (near : s.armAway x a b c root asid = false) :
    exec (.asyncResultLanding id) s = .next (s.armNow id x d a b c root asid vec) := by
  show execAsyncResultLanding id s = _
  simp only [execAsyncResultLanding, found, arm, near]
  rfl

/-! ### The checks of BELLCLR and BELLQRY (07 R159, R160) -/

/-- BELLCLR passes for an entry of the VD itself. -/
theorem bellclrCheck_ok {a : GReg} {s : State} (index : (s.reg a).toNat < bellCount)
    (used : (s.bell (s.me.die * bellCount + (s.reg a).toNat)).state ≠ .free)
    (own : (s.bell (s.me.die * bellCount + (s.reg a).toNat)).vd = s.me.vdKey) : bellclrCheck a s = .ok :=
  if_neg (by simp [index, used, own])

theorem bellclrCheck_trap {a : GReg} {s : State} (bad : bellCount ≤ (s.reg a).toNat ∨
      (s.bell (s.me.die * bellCount + (s.reg a).toNat)).state = .free ∨
      (s.bell (s.me.die * bellCount + (s.reg a).toNat)).vd ≠ s.me.vdKey) :
    bellclrCheck a s = .trap Cause.bellIndex (s.reg a) :=
  if_pos (by simpa [or_assoc] using bad)

/-- Whether BELLQRY gives the state word of an entry. -/
theorem shown_iff (b : Bell) (k : Nat) : (b.state != .free && decide (b.vd = k)) = true ↔ b.state ≠ .free ∧ b.vd = k := by
  simp

/-- Settles O30: BELLSET by its arming point, the others by their checks. -/
theorem bells : Obligations.Bells := by
  refine ⟨fun d a b c => issues_of_classCheck (fun _ => rfl) fun _ level => needS_of_isS level .ok,
    fun s id x d a b c root asid vec found arm near => ⟨asyncResultLanding_arms found arm near, bellset_arms⟩,
    fun a => issues_of_classCheck (fun _ => rfl) fun s holds => ?_,
    fun a => traps_of_classCheck (fun _ => rfl) fun s holds => ?_,
    fun d a => issues_congr (issues_of_classCheck (fun _ => rfl) fun s index => ?_) fun s _ => ?_,
    fun d a => traps_of_classCheck (fun _ => rfl) fun s index => if_pos index⟩
  · obtain ⟨level, index, used, own⟩ := holds
    exact (needS_of_isS level _).trans (bellclrCheck_ok index used own)
  · obtain ⟨level, bad⟩ := holds
    exact (needS_of_isS level _).trans (bellclrCheck_trap bad)
  · exact if_neg (Nat.not_le.mpr index)
  · exact congrArg (s.asyncResult d) (if_congr (shown_iff _ _) rfl rfl)

end Sys2Proof.Proofs.Bells

/-!
SUPPORT. The end of a runaway window (07 R167), and the rebuilding of a poisoned subtree: lines zeroed and taken under keys, and the
VDs that own them (14 R308, R312).
-/

namespace Sys2Proof.Proofs.Rebuilds

open Sys2Proof.Machine Sys2Proof.Laws Sys2Proof.Proofs.Landings Sys2Proof.Proofs.Homes Sys2Proof.Proofs.Bells

/-! ### The end of a runaway window (07 R167) -/

/-- An entry at or past the end of its window stands in a window that is a whole number of windows later and has counted nothing. -/
theorem roll_due {b : Bell} {now : Nat} (due : b.winStart + 1000 ≤ now) :
    (b.roll now).winCount = 0 ∧ (b.roll now).winStart ≤ now ∧ now < (b.roll now).winStart + 1000 ∧
      ((b.roll now).winStart - b.winStart) % 1000 = 0 ∧ (b.roll now).state = b.state ∧ (b.roll now).count = b.count := by
  have rolled : b.roll now = { b with winStart := b.winStart + (now - b.winStart) / 1000 * 1000, winCount := 0 } := if_pos due
  rw [rolled]
  dsimp only
  refine ⟨rfl, ?_, ?_, ?_, rfl, rfl⟩
  · omega
  · omega
  · omega

theorem runawayWindowEnd_rolls {s : State} {k : Nat} (watching : (s.bell k).watching = true) :
    ((s.modBell k fun b => if b.watching then b.roll (s.die (k / bellCount)).clk.toNat else b).bell k) =
      (s.bell k).roll (s.die (k / bellCount)).clk.toNat := by
  rw [bell_modBell, if_pos watching]

/-! ### Lines zeroed (14 R306, R308, R309) -/

theorem find_cons_above {x a : Nat} (above : x < a) (b : Byte) (m : List Host.Cell) : Memory.find ((x, b) :: m) a = Memory.find m a := by
  rw [Memory.find, if_neg (by omega), if_neg (by omega)]

/-- Memory from which the cells of some addresses are taken: those read as empty, the others as before. -/
theorem find_filter (q : Nat → Bool) {m : List Host.Cell} {lo : Nat} (wf : Memory.wfFrom lo m = true) (a : Nat) :
    Memory.find (m.filter fun c => q c.1) a = if q a then Memory.find m a else emptyByte := by
  induction m generalizing lo with
  | nil => simp [Memory.find]
  | cons c m ih =>
    obtain ⟨x, b⟩ := c
    simp only [Memory.wfFrom, Bool.and_eq_true, decide_eq_true_eq] at wf
    obtain ⟨-, after⟩ := wf
    have gone (low : a < x + 1) : Memory.find (m.filter fun c => q c.1) a = emptyByte :=
      find_below low (filter_wfFrom _ m _ after)
    rcases lt_trichotomy a x with low | rfl | above
    · cases kept : q x <;> simp [kept, Memory.find, gone (by omega), low, Nat.ne_of_gt low]
    · cases kept : q a <;> simp [kept, Memory.find, gone]
    · cases kept : q x <;> simp only [List.filter_cons, kept, Bool.false_eq_true, if_false, if_true, find_cons_above above, ih after]

theorem zeroBytes_mem (s : State) (vd : Option Nat) (pa n : Nat) :
    (s.zeroBytes vd pa n).mem = s.mem.filter fun c => !(decide (pa ≤ c.1) && decide (c.1 < pa + n)) || s.poisoned c.1 := by
  unfold State.zeroBytes
  refine List.foldlRecOn (motive := fun t : State => t.mem = _) _ _ rfl fun u kept i _ => ?_
  split
  · exact kept
  · exact (mem_of_plain (by simp)).trans kept

theorem zeroBytes_byte {s : State} (inv : s.Inv) (vd : Option Nat) (pa n a : Nat) :
    (s.zeroBytes vd pa n).byte a = if pa ≤ a ∧ a < pa + n ∧ s.poisoned a = false then 0#8 else s.byte a := by
  rw [State.byte, zeroBytes_mem, find_filter (fun c => !(decide (pa ≤ c) && decide (c < pa + n)) || s.poisoned c) inv]
  by_cases zeroed : pa ≤ a ∧ a < pa + n ∧ s.poisoned a = false
  · rw [if_pos zeroed]
    obtain ⟨from_pa, below, sound⟩ := zeroed
    exact if_neg (by simp [from_pa, below, sound])
  · rw [if_neg zeroed]
    refine if_pos ?_
    by_cases sound : s.poisoned a = false
    · simp only [sound, Bool.or_false, Bool.not_eq_true', Bool.and_eq_false_iff, decide_eq_false_iff_not]
      tauto
    · simp [sound]

theorem sealRange_mem (s : State) (vd : Option Nat) (pa n : Nat) : (s.sealRange vd pa n).mem = s.mem :=
  List.foldlRecOn (motive := fun t : State => t.mem = s.mem) _ _ rfl fun _ kept _ _ => (mem_of_plain (plain_seal ..)).trans kept

/-! ### The owners of a range (14 R312) -/

theorem mem_ownersOf (s : State) (pa n k : Nat) : k ∈ (s.ownersOf pa n).map (·.1) ↔
    s.sharesOf k pa n ≠ [] ∧ ∃ v, (k, v) ∈ s.vds ∧ v.keys.isSome = true := by
  simp only [State.ownersOf, List.mem_map, List.mem_filter, Bool.not_eq_true', List.isEmpty_eq_false_iff]
  constructor
  · rintro ⟨_, ⟨⟨v, ⟨listed, keyed⟩, rfl⟩, some_share⟩, rfl⟩
    exact ⟨some_share, v.2, listed, keyed⟩
  · rintro ⟨some_share, v, listed, keyed⟩
    exact ⟨_, ⟨⟨(k, v), ⟨listed, keyed⟩, rfl⟩, some_share⟩, rfl⟩

/-- Settles O42: the window by its arithmetic, the rebuilding by what zeroing and sealing leave of memory. -/
theorem windowsAndRebuilds : Obligations.WindowsAndRebuilds := by
  refine ⟨fun s k watching due => ?_, fun s die first lines poisoned => if_neg (by simpa using poisoned),
    fun s vd pa n a inv => zeroBytes_byte inv vd pa n a, fun s vd pa n => keepsMemory_of_mem (sealRange_mem s vd pa n), mem_ownersOf⟩
  obtain ⟨count, starts, ends, whole, state, rings⟩ := roll_due due
  refine ⟨_, rfl, fun _ => rfl, ?_⟩
  rw [runawayWindowEnd_rolls watching]
  exact ⟨count, starts, ends, whole, state, rings, fun j other => bell_modBell_other s _ other⟩

end Sys2Proof.Proofs.Rebuilds

/-!
SUPPORT. Walks (08 R188 to R191, R196, R197), the pool of zeroed frames (08 R200), and a stage-2 mapping that firmware changes (07
R168).
-/

namespace Sys2Proof.Proofs.Walks

open Sys2Proof.Machine Sys2Proof.Laws Sys2Proof.Proofs.TrapEvents Sys2Proof.Proofs.Homes

/-! ### The steps of a walk (08 R196) -/

section
variable {s : State} {id : Nat} {w : Walk} (found : NMap.find? s.walks id = some w) (alive : w.failed = false)
include found alive

/-- A walk that waits starts when its die has no TLBI in progress, under the number of that moment. -/
theorem tlbWalk_waits (waiting : w.waiting = true) :
    exec (.tlbWalk id) s = .next (if s.tlbiOn w.die then s
      else s.readStage1 id { w with waiting := false, num := (s.die w.die).shootNum }) := by
  show execTlbWalk id s = _
  simp only [execTlbWalk, found, alive, waiting]
  cases s.tlbiOn w.die <;> rfl

variable (runs : w.waiting = false)
include runs

theorem tlbWalk_begins (fresh : w.result = none) : exec (.tlbWalk id) s = .next (s.readStage1 id w) := by
  show execTlbWalk id s = _
  simp only [execTlbWalk, found, alive, runs, fresh]
  rfl

theorem tlbWalk_goesOn {l : Leaf} (half : w.result = some (.stage1 l)) : exec (.tlbWalk id) s = .next (s.readStage2 id w l) := by
  show execTlbWalk id s = _
  simp only [execTlbWalk, found, alive, runs, half]
  rfl

/-- What a walk has found is checked against the shoot-downs since it began. -/
theorem tlbWalk_ends {e : TlbEntry} (filled : w.result = some (.filled e)) :
    exec (.tlbWalk id) s = .next (if (s.die w.die).discards w.num (·.matches e) then s.restartWalk id w (w.tries + 1)
      else s.installFill id w e) := by
  show execTlbWalk id s = _
  simp only [execTlbWalk, found, alive, runs, filled]
  cases (s.die w.die).discards w.num (·.matches e) <;> rfl

end

/-! ### What the reads of a walk find (08 R188 to R191) -/

theorem walks_of_outside {s t : State} (same : outside s = outside t) : s.walks = t.walks := congrArg (·.walks) same

/-- A walk that has read lines keeps what it has found, whatever links the reads cross and records they give rise to. -/
theorem walks_noteReads (s : State) (w : Walk) (die : Nat) (reads : List Read) :
    ((s.crossReads die reads).noteReads w reads).walks = s.walks :=
  walks_of_outside (by simp)

theorem readStage1_leaf {s : State} {id : Nat} {w : Walk} {sp : Space} {l : Leaf} (range : w.va < 2 ^ 56)
    (space : (s.spaceFor w).1.out = .ok sp) (leaf : ((s.spaceFor w).2.walkStage1 w.vdk w.va w.access sp).out = .ok (.leaf l))
    (near : (s.spaceFor w).2.away w ((s.spaceFor w).1.reads ++ ((s.spaceFor w).2.walkStage1 w.vdk w.va w.access sp).reads) = false) :
    NMap.find? (s.readStage1 id w).walks id = some { w with result := some (.stage1 l) } := by
  have inside : ¬ 2 ^ 56 ≤ w.va := Nat.not_le.mpr range
  simp only [State.readStage1, inside, if_false, space, near, Bool.false_eq_true, leaf, walks_noteReads, find_set_same]

theorem readStage2_filled {s : State} {id : Nat} {w : Walk} {l : Leaf} {e : TlbEntry}
    (entry : (s.walkStage2 w.vdk w.asid w.va w.access l).out = .ok e)
    (near : s.away w (s.walkStage2 w.vdk w.asid w.va w.access l).reads = false) :
    NMap.find? (s.readStage2 id w l).walks id = some { w with result := some (.filled e) } := by
  simp only [State.readStage2, near, Bool.false_eq_true, if_false, entry, walks_noteReads, find_set_same]

/-! ### A translation that is cached (08 R193) -/

theorem insertTlb_contains (n draw : Nat) (l : List TlbEntry) (e : TlbEntry) : (insertTlb n draw l e).contains e = true := by
  unfold insertTlb
  split_ifs with cached
  · exact cached
  · simp
  · simp

theorem fillTlb_contains (s : State) (die : Nat) (core : Option Nat) (e : TlbEntry) :
    ((s.fillTlb die core e).die die).llt.contains e = true := by
  have filled (u : State) (k : Nat) :
      ((u.modDie die fun d => { d with llt := insertTlb lltSize k d.llt e }).die die).llt.contains e = true := by
    rw [die_modDie]
    exact insertTlb_contains ..
  cases core with
  | none => exact filled _ _
  | some c => exact filled _ _

/-! ### The pool of zeroed frames (08 R200) -/

theorem firstTouchPoolRefill_takes {s : State} {die vd uid : Nat} {t : Task}
    (room : ((s.die die).frames.getD (vdKey (s.moduleOf die) vd) []).length < 8)
    (found : List.find? (fun t : Nat × Task => t.2.die = die && t.2.vdKey = vdKey (s.moduleOf die) vd &&
      s.ringReady (vdKey (s.moduleOf die) vd) t.2.s1root.toNat) s.tasks = some (uid, t))
    (near : s.ringFar die (vdKey (s.moduleOf die) vd) t.s1root.toNat = false) :
    exec (.firstTouchPoolRefill die vd) s = .next (s.takeFrame die (vdKey (s.moduleOf die) vd) t.s1root.toNat) := by
  show execFirstTouchPoolRefill die vd s = _
  have open' : ¬ frameCap ≤ ((s.die die).frames.getD (vdKey (s.moduleOf die) vd) []).length := Nat.not_le.mpr room
  simp only [execFirstTouchPoolRefill, open', if_false, found, Option.orElse_some, near, Bool.false_eq_true]

/-! ### A stage-2 mapping that changes (07 R168) -/

theorem stage2MappingChange_changes {s : State} {m vd ipa pa : Nat} {l : Leaf} (desc : W64) (range : ipa < 2 ^ 52)
    (slot : s.slot2 m ipa 3 (root2 (s.vd (vdKey m vd)).s2root) = (pa, some l)) :
    let u := (s.homeWrite { die := s.dieOf m 0, acc := .write } .ok 0 pa (leBytes 8 desc.toNat)).unmapBells (vdKey m vd) l.addr
      (2 ^ l.shift)
    exec (.stage2MappingChange m vd ipa desc) s =
      .next (u.firmwareTlbi (u.podOf m) { kind := 3, vd := vdKey m vd, addr := ipa }) := by
  show execStage2MappingChange m vd ipa desc s = _
  simp only [execStage2MappingChange, Nat.mod_eq_of_lt range, slot]

/-- Settles O44: a walk by its steps, a fill by what insertion leaves, the ring and the mapping by their own steps. -/
theorem translationEvents : Obligations.TranslationEvents := by
  refine ⟨fun s id w ⟨found, alive, runs⟩ fresh => tlbWalk_begins found alive runs fresh,
    fun s id w sp l ⟨found, alive, runs⟩ fresh range space leaf near =>
      ⟨_, tlbWalk_begins found alive runs fresh, readStage1_leaf range space leaf near⟩,
    fun s id w l e ⟨found, alive, runs⟩ half entry near => ⟨_, tlbWalk_goesOn found alive runs half, readStage2_filled entry near⟩,
    fun s id w e uid en ⟨found, alive, runs⟩ filled task => ⟨fun stands => ?_, fun shot => ?_⟩,
    fun s id w found alive waiting => ⟨fun busy => ?_, fun idle => ?_⟩,
    fillTlb_contains, fun s die vd uid t => firstTouchPoolRefill_takes, fun s m vd ipa desc pa l => stage2MappingChange_changes desc⟩
  · rw [tlbWalk_ends found alive runs filled, stands]
    simp only [State.installFill, task]
    rfl
  · rw [tlbWalk_ends found alive runs filled, shot, if_pos rfl]
  · rw [tlbWalk_waits found alive waiting, busy, if_pos rfl]
  · rw [tlbWalk_waits found alive waiting, idle]
    rfl

end Sys2Proof.Proofs.Walks

/-!
SUPPORT. Fences and windows (09 R214, R215, R222, 14 R317): each fence issues where its own wait is over, a WREL releases what the
task's stores to the window have replaced, and a WACQ cuts off what has been released.
-/

namespace Sys2Proof.Proofs.Fences

open Sys2Proof.Machine Sys2Proof.Laws Sys2Proof.Proofs.Control Sys2Proof.Proofs.Landings

/-! ### When a fence issues (09 R214, R222) -/

/-- A fence passes when nothing that it waits for is pending. -/
theorem pendingCheck_ok {s : State} {p : Access → Bool} (settled : s.pendingIds s.cur.uid p = []) :
    (if (s.pendingIds s.cur.uid p).isEmpty then Chk.ok else .stall false) = .ok := by
  rw [settled]
  rfl

theorem windowFence_held {s : State} {a : GReg} {w : Window} (held : s.myWindow a = some w) :
    s.windowFence a = s.modEng fun e => { e with ord := e.ord.fenceAll } := by
  simp only [State.windowFence, held]

/-! ### What may still be seen (09 R222) -/

/-- A cut leaves a view whose values it does not concern, or the values that follow the last one it cuts off. -/
theorem mem_cutViews {s : State} {t : Task} {inside : Nat → Bool} {p : OldValue → Bool} {v : OldView}
    (left : v ∈ (s.cutViews t inside p).views) :
    (v.of t.vdKey t.die t.tid.toNat && inside v.dw) = false ∨
      ∃ olds : List OldValue, v.olds = (olds.reverse.takeWhile fun o => !p o).reverse := by
  obtain ⟨v₀, -, cut⟩ := List.mem_map.mp (List.mem_filter.mp left).1
  split_ifs at cut with mine
  · exact .inr ⟨v₀.olds, by rw [← cut]⟩
  · exact .inl (by rw [← cut]; simpa only [Bool.not_eq_true] using mine)

/-- Nothing that a cut cuts off is left in a view that it concerns. -/
theorem cutViews_olds {s : State} {t : Task} {inside : Nat → Bool} {p : OldValue → Bool} {v : OldView} {o : OldValue}
    (left : v ∈ (s.cutViews t inside p).views) (mine : v.of t.vdKey t.die t.tid.toNat = true) (within : inside v.dw = true)
    (old : o ∈ v.olds) : p o = false := by
  rcases mem_cutViews left with other | ⟨olds, rest⟩
  · simp [mine, within] at other
  · rw [rest, List.mem_reverse] at old
    simpa using List.mem_takeWhile_imp old

/-- A WREL releases the old values that its task's stores to the window have replaced, in the views that it covers. -/
theorem releaseViews_olds {s : State} {w : Window} {t : Task} {covers : OldView → Bool} {v : OldView} {o : OldValue}
    (left : v ∈ (s.releaseViews w t covers).views) (within : w.covers v.dw = true) (covered : covers v = true)
    (old : o ∈ v.olds) (vd : o.vdk = t.vdKey) (die : o.die = t.die) (tid : o.tid = t.tid.toNat) : o.released = true := by
  obtain ⟨v₀, -, rfl⟩ := List.mem_map.mp left
  split_ifs at within covered old with reached
  · obtain ⟨o₀, -, rfl⟩ := List.mem_map.mp old
    split_ifs at vd die tid ⊢ with mine
    · rfl
    · simp [vd, die, tid] at mine
  · simp [within, covered] at reached

/-- Settles O25: each fence by its own check, the views by what a release and a cut leave of their old values. -/
theorem fences : Obligations.Fences := by
  refine ⟨fun sc => issues_of_check (fun _ => rfl) fun _ => pendingCheck_ok,
    fun sc => issues_of_check (fun _ => rfl) fun _ => pendingCheck_ok, fun sc => issues_of_check (fun _ => rfl) fun _ _ => rfl,
    fun sc p q => issues_of_check (fun _ => rfl) fun _ _ => rfl,
    fun a sc => ⟨issues_congr (issues_of_check (fun _ => rfl) fun _ ready => ready) fun s _ => ?_,
      issues_congr (issues_of_check (fun _ => rfl) fun _ ready => ready) fun s _ => ?_⟩,
    fun s w t sc v o => releaseViews_olds, fun s w t v o => cutViews_olds,
    fun s w t c => ⟨keepsMemory_of_mem rfl, keepsMemory_of_mem rfl⟩⟩
  all_goals
    cases held : s.myWindow a with
    | none => rfl
    | some w => simp only [windowFence_held held]

end Sys2Proof.Proofs.Fences

/-!
SUPPORT. The matrix engine (10 R229, R232 to R234): WLD, MMA, MMAT and MZERO issue or trap as their own checks do, a multiply leaves
one row that lands 132 slots later, and MZERO clears the rows of its register and no others. That last fact refutes O35, which asks it
of every natural row number; the lemmas before it are what O35 says otherwise, and they hold.
-/

namespace Sys2Proof.Proofs.Matrix

open Sys2Proof.Machine Sys2Proof.Laws Sys2Proof.Proofs.Control

/-! ### What issues and what traps (10 R229, R232 to R234, R237) -/

/-- The plane that a WLD loads from the weight buffer. -/
def loadedPlane (t : Ty) (e : BitVec 9) (s : State) : Plane :=
  { fmt := some t, latch := (List.range (latchEntries t)).map fun i => s.me.wbuf.getD ((e.toNat + i) % 512) 0#4096, entry := e.toNat }

/-- WLD loads the idle plane and leaves the switch to it in the delay line. -/
theorem wld_issues (t : Ty) (e : BitVec 9) : Issues (.wld t e) none (fun s => wldCheck t s = .ok) fun s =>
    (s.modMe fun u => if u.activePlane then { u with plane0 := loadedPlane t e s } else { u with plane1 := loadedPlane t e s }).later
      (wldSlots t) .plane 0#4096 (flagIf (latchBlk t (loadedPlane t e s).latch) flBLK) :=
  issues_of_check (fun _ => rfl) fun _ ready => ready

theorem mma_issues (z : BitVec 3) (k : BitVec 7) (t : Ty) (q : BitVec 2) (ov : Bool) :
    Issues (.mma z k t q ov) none (fun s => mmaCheck t q s = .ok) (mmaEffect z k t q ov none) :=
  issues_of_check (fun _ => rfl) fun _ ready => ready

theorem mmat_issues (z : BitVec 3) (k : BitVec 7) (t : Ty) (q : BitVec 2) (ov : Bool) (g : BitVec 4) (off : BitVec 11) :
    Issues (.mmat z k t q ov g off) none (fun s => mmaCheck t q s = .ok) fun s =>
      mmaEffect z k t q ov (some (off, (s.breg g).setWidth 32)) s :=
  issues_of_check (fun _ => rfl) fun _ ready => ready

theorem mzero_issues (x : ZTarget) : Issues (.mzero x) none (fun _ => True) fun s =>
    s.write (match x with | .vec f => .vec f 0#4096 | .whole z => .clear z) :=
  issues_of_check (fun _ => rfl) fun _ _ => rfl

theorem mmaCheck_noplane {s : State} (empty : (s.me.plane s.me.activePlane).fmt = none) (t : Ty) (q : BitVec 2) :
    mmaCheck t q s = .trap Cause.mmaNoplane s.wordVal := by
  simp only [mmaCheck, empty]

theorem mma_traps (z : BitVec 3) (k : BitVec 7) (t : Ty) (q : BitVec 2) (ov : Bool) :
    Traps (.mma z k t q ov) none (fun s => (s.me.plane s.me.activePlane).fmt = none) (fun _ => Cause.mmaNoplane) State.wordVal :=
  traps_of_check (fun _ => rfl) fun _ empty => mmaCheck_noplane empty t q

/-! ### The row of a multiply (10 R232, R235) -/

theorem eng_pop (t : Task) (q : Queue) (e : Engine) : (t.pop q).eng e = t.eng e := by cases e <;> rfl

theorem eng_withSide (t : Task) (side : NMap SideCur) (e : Engine) : ({ t with side } : Task).eng e = t.eng e := by cases e <;> rfl

/-- Entries and side cursors are a task's, not a sequencer's: the delay line only gains the row. -/
theorem pend_mmaEffect (z : BitVec 3) (k : BitVec 7) (t : Ty) (q : BitVec 2) (ov : Bool) (mask : Option (BitVec 11 × W32)) (s : State) :
    ∃ m : MatOp, (mmaEffect z k t q ov mask s).eng.pend =
      s.eng.pend ++ [{ rem := 132, slot := .m, dest := .vec ⟨z, .h, k⟩, mat := some m }] := by
  simp only [mmaEffect, stateEng_modEng]
  refine ⟨_, congrArg (· ++ _) ?_⟩
  simp only [State.eng, me_modMe, modMe_cur]
  split_ifs <;> simp only [eng_withSide, eng_pop]

/-! ### The rows that MZERO clears (10 R234) -/

/-- A map from which the keys that a test refuses are taken. -/
theorem find_filterKeys {α : Type} (keep : Nat → Bool) (m : NMap α) (k : Nat) :
    NMap.find? (m.filter fun p => keep p.1) k = if keep k then NMap.find? m k else none := by
  induction m with
  | nil => simp [NMap.find?]
  | cons c m ih =>
    obtain ⟨a, b⟩ := c
    by_cases here : a = k
    · subst here
      cases kept : keep a <;> simp [NMap.find?, kept, ih]
    · cases kept : keep a <;> simp [NMap.find?, kept, ih, here]

/-- A row number past 127 names a row of a later register, which a clear of this one leaves. -/
theorem row_clear (t : Task) (z : BitVec 3) (k : Nat) :
    (t.applyWrite (.clear z)).row z k = if k < 128 then 0#4096 else t.row z k := by
  have cell : (z.toNat * 128 + k) / 128 = z.toNat ↔ k < 128 := by omega
  simp only [Task.applyWrite, Task.row, NMap.getD, find_filterKeys (fun a => decide (a / 128 ≠ z.toNat))]
  split_ifs <;> simp_all

/-- A task whose frame holds one row that is not 0, row 0 of Z1. -/
def secondRegisterUsed : Task := { frame := [(128, 1#4096)] }

/-- Refutes O35: it has every row k of Z read as 0 after `.clear z`, with k any natural number; row 128 of Z0 is row 0 of Z1, which
`MZERO Z0` leaves (10 R234). -/
theorem not_matrixEngine : ¬ Obligations.MatrixEngine := by
  rintro ⟨-, -, -, -, -, cleared, -⟩
  have kept : (secondRegisterUsed.applyWrite (.clear 0#3)).row 0#3 128 = 1#4096 := row_clear ..
  exact absurd (kept.symm.trans (cleared secondRegisterUsed 0#3 128)) (by decide +kernel)

end Sys2Proof.Proofs.Matrix

/-!
SUPPORT. NEST and the copy family at issue (11 R240 to R247, 16 R360, 17 R387, 18 R439): each issues or traps as its own check does,
and a copy that is accepted raises its counter.
-/

namespace Sys2Proof.Proofs.Copies

open Sys2Proof.Machine Sys2Proof.Laws Sys2Proof.Proofs.Control Sys2Proof.Proofs.Landings Sys2Proof.Proofs.Bells

/-! ### NEST (11 R240) -/

theorem nest_issues (ch : BitVec 2) (l : BitVec 3) (a b c : GReg) :
    Issues (.nest ch l a b c) none (fun s => (s.reg a).toNat ≤ 65535) fun s => s.modMe fun t => t.modChan ch.toNat fun x =>
      { x with nest := x.nest.set l.toNat ⟨(s.reg a).toNat, s.reg b, s.reg c⟩ } :=
  issues_of_check (fun _ => rfl) fun _ small => if_neg (Nat.not_lt.mpr small)

theorem nest_traps (ch : BitVec 2) (l : BitVec 3) (a b c : GReg) :
    Traps (.nest ch l a b c) none (fun s => 65535 < (s.reg a).toNat) (fun _ => Cause.copyParam) State.wordVal :=
  traps_of_check (fun _ => rfl) fun _ large => if_pos large

theorem nestEvent_issues (ch : BitVec 2) (a b : GReg) :
    Issues (.nestEvent ch a b) none (fun s => (s.reg a).toNat % 8 = 0) fun s => s.modMe fun t => t.modChan ch.toNat fun x =>
      { x with event := s.reg a, status := if (s.reg b).getLsbD 0 then 0#32 else x.status } :=
  issues_of_check (fun _ => rfl) fun _ aligned => if_neg (not_not.mpr aligned)

theorem nestEvent_traps (ch : BitVec 2) (a b : GReg) :
    Traps (.nestEvent ch a b) none (fun s => (s.reg a).toNat % 8 ≠ 0) (fun _ => Cause.copyAlign) State.wordVal :=
  traps_of_check (fun _ => rfl) fun _ odd => if_pos odd

/-! ### The copy family (11 R241 to R247) -/

/-- A member of the copy family accepts the copy that its operands describe where the checks of that copy pass. -/
theorem copy_issues {i : Instr} {mk : State → Copy} {word : State → W64} {rd : GReg}
    (arm : ∀ s, exec i s = issueClass i .cp (fun s => (mk s).check (word s) s) (fun s => s.accept rd (mk s)) s) :
    Issues i (some .cp) (fun s => (mk s).check (word s) s = .ok) fun s => s.accept rd (mk s) :=
  issues_of_classCheck arm fun _ ok => ok

/-- Counters are a task's, not a sequencer's. -/
@[simp] theorem counters_modEng (t : Task) (e : Engine) (f : Eng → Eng) : (t.modEng e f).counters = t.counters := by
  cases e <;> rfl

@[simp] theorem counters_stateModEng (s : State) (f : Eng → Eng) : (s.modEng f).me.counters = s.me.counters := by
  rw [State.modEng, me_modMe, counters_modEng]

/-- A result that is still to land leaves the counters. -/
@[simp] theorem counters_result (s : State) (n : Nat) (r : GReg) (v : W64) : (s.result n r v).me.counters = s.me.counters := by
  unfold State.result State.later
  split_ifs
  · rfl
  · exact counters_stateModEng ..

/-- A copy that is accepted raises its own counter by one (11 R243). -/
theorem counter_accept (s : State) (rd : GReg) (c : Copy) :
    (s.accept rd c).me.counters.getD c.ctr 0 = s.me.counters.getD c.ctr 0 + 1 := by
  simp only [State.accept, counters_result, me_modMe, getD_set_same, counters_stateModEng]
  rfl

/-- Settles O33: NEST by its two checks, every member of the copy family by the check of the copy that it describes. -/
theorem copies : Obligations.Copies := fun ch rd ra rb rc _ _ _ =>
  ⟨fun l _ => ⟨nest_issues ch l ra rb rc, nest_traps ch l ra rb rc⟩, nestEvent_issues ch ra rb, nestEvent_traps ch ra rb,
    copy_issues fun _ => rfl, fun _ _ _ => copy_issues fun _ => rfl, copy_issues fun _ => rfl, copy_issues fun _ => rfl,
    copy_issues fun _ => rfl, copy_issues fun _ => rfl, fun s c => counter_accept s rd c⟩

end Sys2Proof.Proofs.Copies

/-!
SUPPORT. Events of copies (11 R244 to R246, R250): which step of the transfer a doubleword takes, what a row read and an entry written
leave, and how a copy completes.
-/

namespace Sys2Proof.Proofs.Transfers

open Sys2Proof.Machine Sys2Proof.Laws Sys2Proof.Proofs.Maps Sys2Proof.Proofs.Landings

/-! ### The step that a doubleword takes (11 R244) -/

section
variable {s : State} {k u : Nat} {c : Copy} (found : NMap.find? s.copies k = some c) (below : u < c.units)
  (undone : c.done.contains u = false) (serves : (s.die (s.task c.uid).die).inService = true)
include below undone serves

/-- Nothing keeps a unit of a copy on a die that serves from going on. -/
theorem unit_open : ¬ (c.units ≤ u || c.done.contains u || !(s.die (s.task c.uid).die).inService) = true := by
  rw [decide_eq_false (Nat.not_le.mpr below), undone, serves]
  decide

include found

/-- A doubleword whose index has not been read reads it. -/
theorem transfer_readsIndex (g : Integ) {j : Nat} (needs : c.needs u = some j) (unread : NMap.find? c.index j = none) :
    exec (.copyLineTransfer k u g) s = .next (s.readIndex k j c g) := by
  show execCopyLineTransfer k u g s = _
  simp only [execCopyLineTransfer, found]
  refine (if_neg (unit_open below undone serves)).trans ?_
  simp only [needs, unread]
  rfl

/-- A doubleword that needs no further index reads its source, and goes on to its line when it has. -/
theorem transfer_known (g : Integ) (known : c.needs u = none ∨ ∃ j x, c.needs u = some j ∧ NMap.find? c.index j = some x) :
    exec (.copyLineTransfer k u g) s =
      .next (if (NMap.find? c.staged u).isNone then s.readUnit k u c g else s.writeLine k u c g) := by
  show execCopyLineTransfer k u g s = _
  simp only [execCopyLineTransfer, found]
  refine (if_neg (unit_open below undone serves)).trans ?_
  rcases known with none_needed | ⟨j, x, needs, read⟩
  · simp only [none_needed]
  · simp only [needs, read]
    rfl

end

/-! ### A row is read (09 R208) -/

/-- A copy that has units has doublewords in each of its elements. -/
theorem words_pos {c : Copy} {u : Nat} (below : u < c.units) : 0 < c.words := by
  refine Nat.pos_of_ne_zero fun none_there => Nat.not_lt_zero u ?_
  have no_unit : c.units = 0 := by
    unfold Copy.units
    split <;> simp [none_there]
  exact no_unit ▸ below

/-- A unit is among those of its element that have their source in its row. -/
theorem mem_rowUnits {c : Copy} {u : Nat} (below : u < c.units) (t : Task) : u ∈ c.rowUnits t u :=
  List.mem_filter.mpr ⟨List.mem_map.mpr
    ⟨u % c.words, List.mem_range.mpr (Nat.mod_lt u (words_pos below)), Nat.div_add_mod' u c.words⟩, by simp⟩

theorem find_stage {s : State} {k : Nat} {c : Copy} (found : NMap.find? s.copies k = some c) (u : Nat) (bs : List Byte) :
    NMap.find? (s.stage k u bs).copies k = some { c with staged := c.staged.set u bs } := by
  simp only [State.stage, find_upd, found, Option.map_some]

/-- Steps that each stage the unit they are about, or nothing, leave memory and tasks; a unit that one of them is about, and that
each of those stages with the same bytes, has read those in the end. -/
theorem foldl_stage {step : State → Nat → State} {k u : Nat} {bs : List Byte} (own : ∀ s, step s u = s.stage k u bs)
    (other : ∀ s v, v ≠ u → step s v = s ∨ ∃ b, step s v = s.stage k v b) (us : List Nat) {s : State} {c : Copy}
    (found : NMap.find? s.copies k = some c) (due : u ∈ us ∨ NMap.find? c.staged u = some bs) :
    let t := us.foldl step s
    t.mem = s.mem ∧ t.tasks = s.tasks ∧ ∃ x, NMap.find? t.copies k = some x ∧ x.done = c.done ∧
      NMap.find? x.staged u = some bs := by
  induction us generalizing s c with
  | nil => exact ⟨rfl, rfl, c, found, rfl, due.resolve_left List.not_mem_nil⟩
  | cons v us ih =>
    rw [List.foldl_cons]
    by_cases here : v = u
    · subst here
      rw [own]
      exact ih (c := { c with staged := c.staged.set v bs }) (find_stage found v bs) (.inr (find_set_same ..))
    · have due : u ∈ us ∨ NMap.find? c.staged u = some bs :=
        due.imp_left fun listed => (List.mem_cons.mp listed).resolve_left (Ne.symm here)
      rcases other s v here with nothing | ⟨b, stages⟩
      · rw [nothing]
        exact ih found due
      · rw [stages]
        exact ih (c := { c with staged := c.staged.set v b }) (find_stage found v b)
          (due.imp_right (find_set_other _ _ (Ne.symm here)).trans)

/-- A unit of a copy takes its bytes of a row. -/
def stageFrom (k : Nat) (c : Copy) (t : Task) (row : Entry) (s : State) (v : Nat) : State :=
  match (c.move t v).src with
  | some x => s.stage k v (entryBytes row x.off 8)
  | none => s

theorem stageFrom_some {c : Copy} {t : Task} {v : Nat} {x : Spot} (src : (c.move t v).src = some x) (k : Nat) (row : Entry)
    (s : State) : stageFrom k c t row s v = s.stage k v (entryBytes row x.off 8) := by
  simp only [stageFrom, src]

theorem stageFrom_cases (k : Nat) (c : Copy) (t : Task) (row : Entry) (s : State) (v : Nat) :
    stageFrom k c t row s v = s ∨ ∃ b, stageFrom k c t row s v = s.stage k v b := by
  cases src : (c.move t v).src with
  | none => exact .inl (by simp only [stageFrom, src])
  | some x => exact .inr ⟨_, stageFrom_some src ..⟩

/-- A unit from a row of a tile reads with the others of its element there. -/
theorem readUnit_tile {s : State} {u : Nat} {c : Copy} {h row off : Nat} {d : Spot} (runs : s.frozen c.uid = false)
    (moves : c.move (s.task c.uid) u = { src := some (.tile h row off), dst := some d }) (k : Nat) :
    s.readUnit k u c .ok = (c.rowUnits (s.task c.uid) u).foldl
      (stageFrom k c (s.task c.uid) (((s.task c.uid).tiles.getD h {}).rowAt row)) s := by
  simp only [State.readUnit, moves, runs]
  rfl

/-! ### An entry of the weight buffer is written (09 R218) -/

/-- A copy under the nest needs no index. -/
theorem needs_nest {c : Copy} (nest : c.kind = .nest) (u : Nat) : c.needs u = none := by
  simp only [Copy.needs, Copy.list?, nest]

theorem fillLine_singleton {c : Copy} (nest : c.kind = .nest) (old : List Byte) (o : Nat) (bs : List Byte) :
    (c.fillLine old [(o, bs)]).1 = patch old o bs := by
  simp only [Copy.fillLine, nest, List.foldl_cons, List.foldl_nil]

/-- A state in which bytes of an entry of a task's weight buffer have changed. -/
def withEntry (s : State) (uid e o : Nat) (bs : List Byte) : State :=
  s.modTask uid fun t => { t with wbuf := t.wbuf.set e (entryPatch (t.wbuf.getD e 0#4096) o bs) }

theorem wbuf_withEntry (s : State) (uid e o : Nat) (bs : List Byte) :
    ((withEntry s uid e o bs).task uid).wbuf.getD e 0#4096 = entryPatch ((s.task uid).wbuf.getD e 0#4096) o bs := by
  rw [withEntry, task_modTask]
  exact getD_set_same ..

/-- A unit under the nest that is alone in its entry changes its bytes of the entry. -/
theorem writeLine_entry {s : State} {u e o : Nat} {c : Copy} {src : Option Spot} {bs : List Byte}
    (ready : c.lineReady (s.task c.uid) [u] = true) (nest : c.kind = .nest) (staged : NMap.find? c.staged u = some bs)
    (runs : s.frozen c.uid = false) (free : (s.task c.uid).latches e = false)
    (moves : c.move (s.task c.uid) u = { src, dst := some (.wbuf e o) })
    (alone : c.lineUnits (s.task c.uid) (.wbuf e 0) = [u]) (k : Nat) :
    s.writeLine k u c .ok = (withEntry s c.uid e o bs).unitsDone k [u] := by
  have bytes : c.staged.getD u [] = bs := by simp only [NMap.getD, staged, Option.getD_some]
  simp only [State.writeLine, moves, Option.map_some, Spot.line, Spot.off, alone, ready, runs, free, List.map_singleton,
    (List.nodup_singleton o).dedup, List.length_singleton, if_true, bytes, State.copyFill, fillLine_singleton nest,
    withEntry, State.modTask]
  rfl

theorem find_unitsDone {s : State} {k : Nat} {c : Copy} (found : NMap.find? s.copies k = some c) (us : List Nat) :
    ∃ x, NMap.find? (s.unitsDone k us).copies k = some x ∧ x.done = us ++ c.done := by
  simp only [State.unitsDone, find_upd, found, Option.map_some]
  exact ⟨_, rfl, rfl⟩

/-! ### Completion (11 R250) -/

/-- The sequence number of a copy's channel rises. -/
def bumped (s : State) (c : Copy) : State := s.modTask c.uid fun t => t.modChan c.ch fun x => { x with seq := x.seq + 1#32 }

theorem copyCompletion_quiet {s : State} {k : Nat} {c : Copy} (found : NMap.find? s.copies k = some c)
    (all_done : c.units ≤ c.done.length) (no_event : c.event = 0) :
    exec (.copyCompletion k) s = .next ((bumped s c).endCopy k c) := by
  show execCopyCompletion k s = _
  simp only [execCopyCompletion, found]
  exact (if_neg (Nat.not_lt.mpr all_done)).trans (if_pos no_event)

/-- The line of a copy that has not stopped, whose address translates, to whose home a route leads, and that follows no earlier
access (11 R249). -/
theorem atLine_goes {s u : State} {k line va o n : Nat} {c : Copy} {acc : AccKind} {q : Piece} (alive : c.stopped line = false)
    (translates : s.copyTranslate k line c va acc = .ok [q] u) (routed : u.routed (u.task c.uid).die q.pa = true)
    (first : u.copyFollows c (acc != .read) (q.pa + o) n q.ord = false) (go : Nat → State → State) :
    s.atLine k line c va acc [(o, n)] go = go q.pa (u.crossTo (u.task c.uid).die q.pa) := by
  simp only [State.atLine, alive, Bool.false_eq_true, if_false, translates]
  exact if_neg (by simp [routed, first])

theorem copyCompletion_stores {s u : State} {k : Nat} {c : Copy} {q : Piece} (found : NMap.find? s.copies k = some c)
    (all_done : c.units ≤ c.done.length) (event : c.event ≠ 0) (alive : c.stopped eventLine = false)
    (translates : s.copyTranslate k eventLine c c.event .write = .ok [q] u)
    (routed : u.routed (u.task c.uid).die q.pa = true) (first : u.copyFollows c true q.pa 8 q.ord = false) :
    let z := bumped (u.crossTo (u.task c.uid).die q.pa) c
    exec (.copyCompletion k) s = .next (((z.homeWrite (z.copyWho c .write) .ok c.event q.pa
      (leBytes 8 ((z.task c.uid).chans.getD c.ch {}).eventWord)).copyTag c q.pa).endCopy k c) := by
  intro z
  show execCopyCompletion k s = _
  simp only [execCopyCompletion, found]
  refine (if_neg (Nat.not_lt.mpr all_done)).trans ((if_neg event).trans ?_)
  exact congrArg Host.Outcome.next (atLine_goes (o := 0) (n := 8) alive translates routed first _)

/-- A copy that is over is gone, and its counter has fallen by one. -/
theorem endCopy_ends (s : State) (k : Nat) (c : Copy) :
    NMap.find? (s.endCopy k c).copies k = none ∧
      ((s.endCopy k c).task c.uid).counters.getD c.ctr 0 = (s.task c.uid).counters.getD c.ctr 0 - 1 := by
  refine ⟨find_erase_same s.copies k, ?_⟩
  rw [State.endCopy, task_modTask]
  exact getD_set_same ..

/-! ### The obligation -/

/-- Settles O43: the steps of a doubleword by what its copy knows of it, the row read by induction on the units that read it, the
completion by its event. -/
theorem copyEvents : Obligations.CopyEvents := by
  refine ⟨fun s k u g c j ⟨found, below, undone, serves⟩ => transfer_readsIndex found below undone serves g,
    fun s k u g c ⟨found, below, undone, serves⟩ known unread => ?_,
    fun s k u g c ⟨found, below, undone, serves⟩ known read => ?_,
    fun s k u c h row off d ⟨found, below, undone, serves⟩ known unread runs moves => ?_,
    fun s k u c src e o bs ⟨found, below, undone, serves⟩ ready nest staged runs free moves alone => ?_,
    fun s k c found all_done => ⟨copyCompletion_quiet found all_done,
      fun q u => copyCompletion_stores found all_done⟩, endCopy_ends⟩
  · rw [transfer_known found below undone serves g known, unread]
    rfl
  · rw [transfer_known found below undone serves g known, Option.isNone_eq_false_iff.mpr read]
    rfl
  · have src : (c.move (s.task c.uid) u).src = some (.tile h row off) := by rw [moves]
    obtain ⟨mem, tasks, x, still, done, bytes⟩ := foldl_stage (stageFrom_some src k (((s.task c.uid).tiles.getD h {}).rowAt row))
      (fun s v _ => stageFrom_cases k c _ _ s v) (c.rowUnits (s.task c.uid) u) found (.inl (mem_rowUnits below _))
    refine ⟨_, x, ?_, keepsMemory_of_mem mem, tasks, still, done, bytes⟩
    rw [transfer_known found below undone serves .ok known, unread, ← readUnit_tile runs moves]
    rfl
  · obtain ⟨x, still, done⟩ := find_unitsDone (s := withEntry s c.uid e o bs) found [u]
    refine ⟨(withEntry s c.uid e o bs).unitsDone k [u], x, ?_, keepsMemory_of_mem rfl, still, done, wbuf_withEntry ..⟩
    rw [transfer_known found below undone serves .ok (.inl (needs_nest nest u)), staged,
      ← writeLine_entry ready nest staged runs free moves alone]
    rfl

end Sys2Proof.Proofs.Transfers

/-!
SUPPORT. Traps (12 R265 to R271, 17 R390): what a task is after a trap has been taken, what the return from it leaves, and the
instructions TRAP and TRET.
-/

namespace Sys2Proof.Proofs.TrapReturn

open Sys2Proof.Machine Sys2Proof.Laws Sys2Proof.Proofs.Control

/-! ### A trap that is taken (12 R265) -/

/-- A sequencer of a handler that has just been entered: CTL runs at the vector, and the others are idle. -/
def bank (t : Task) (e : Engine) : Eng :=
  { run := if e = .ctl then .running else .idle, pc := if e = .ctl then t.trVec else 0#64, ord := (t.eng e).ord,
    stop := match (t.eng e).stop with | .none => .none | _ => if e = .ctl then .asked 0 else .stopped }

/-- The four streams of a task, held. -/
def heldStreams (t : Task) : Held :=
  { ctl := { t.ctl with stop := .none }, lda := { t.lda with stop := .none }, exe := { t.exe with stop := .none },
    sta := { t.sta with stop := .none } }

/-- A task whose trap has been taken. -/
def trapTaken (t : Task) (en : Engine) (code : Nat) (val epc src : W64) : Task :=
  { t with
    held := some (heldStreams t), lastPoll := none, arStop := false, trBusy := true, trCode := BitVec.ofNat 9 code, trEpc := epc
    trVal := val, trFrom := src, trEng := BitVec.ofNat 2 en.code, trRun := BitVec.ofNat 4 t.runBits, exeOwn := false
    ctl := bank t .ctl, lda := bank t .lda, exe := bank t .exe, sta := bank t .sta }

section
variable {s : State} {uid : Nat} (free : (s.task uid).trBusy = false) (vector : pointerOk (s.task uid).trVec = true)
include free vector

/-- Outside a handler, with a vector that passes 03 R54, a trap changes its task and ends a TLBI that its CTL stands at. -/
theorem takeTrap_eq (en : Engine) (code : Nat) (val epc src : W64) :
    s.takeTrap uid en code val epc src =
      ({ s with tlbis := s.tlbis.filter fun b => !(en == .ctl && b.2.who == uid * 2) } : State).setTask uid
        (trapTaken (s.task uid) en code val epc src) :=
  (if_neg (by simp [free])).trans (if_neg (by simp [vector]))

theorem task_takeTrap (en : Engine) (code : Nat) (val epc src : W64) :
    (s.takeTrap uid en code val epc src).task uid = trapTaken (s.task uid) en code val epc src := by
  rw [takeTrap_eq free vector, task_setTask]

theorem takeTrap_mem (en : Engine) (code : Nat) (val epc src : W64) : (s.takeTrap uid en code val epc src).mem = s.mem := by
  rw [takeTrap_eq free vector, setTask_mem]

end

/-- Settles O19: each register and stream is a field of the task whose trap has been taken. -/
theorem trapEntrySaves : Obligations.TrapEntrySaves := by
  intro s uid en code val epc src free vector
  dsimp only
  rw [task_takeTrap free vector]
  exact ⟨rfl, rfl, rfl, rfl, rfl, rfl, rfl, rfl, rfl, rfl, rfl, rfl, rfl, rfl, rfl, rfl, rfl, takeTrap_mem free vector ..⟩

/-! ### The return (12 R271) -/

/-- A held sequencer when it resumes while no stop is asked for. -/
def resumed (e : Eng) : Eng := { e with stall := none, stop := .none }

/-- The raising sequencer when it resumes at tr.epc: its line is read again, and it goes on with its RDV only if that is where it
was (17 R390). -/
def resumedAt (epc : W64) (e : Eng) : Eng :=
  { e with pc := epc, line := none, src := 0#64, entry := .fresh, began := false, waits := false, offer := none,
           run := match e.run with | .joining => if epc = e.pc then .joining else .running | r => r }

/-- A task that has returned from a trap, before its raising sequencer is put at tr.epc. -/
def released (t : Task) (en : Engine) (code : Nat) (val epc src : W64) : Task :=
  { trapTaken t en code val epc src with
    held := none, trBusy := false, ctl := resumed t.ctl, lda := resumed t.lda, exe := resumed t.exe, sta := resumed t.sta }

theorem ofCode_trEng (e : Engine) : Engine.ofCode (BitVec.ofNat 2 e.code).toNat = e := by
  cases e <;> rfl

/-- A handler returns whose task nothing has asked to stop. -/
theorem trapReturn_trapTaken {t : Task} (runs : t.ctl.stop = .none) (en : Engine) (code : Nat) (val epc src : W64) :
    (trapTaken t en code val epc src).trapReturn = (released t en code val epc src).modEng en (resumedAt epc) := by
  have unasked : (bank t .ctl).stop = .none := by simp only [bank, Task.eng, runs]
  unfold Task.trapReturn
  dsimp only [trapTaken]
  rw [ofCode_trEng, unasked]
  rfl

/-- What each sequencer is after the return. -/
theorem eng_trapReturn {t : Task} (runs : t.ctl.stop = .none) (en : Engine) (code : Nat) (val epc src : W64) (e : Engine) :
    (trapTaken t en code val epc src).trapReturn.eng e =
      if e = en then resumedAt epc (resumed (t.eng e)) else resumed (t.eng e) := by
  have left : (released t en code val epc src).eng e = resumed (t.eng e) := by cases e <;> rfl
  rw [trapReturn_trapTaken runs, ← left]
  split_ifs with raising
  · rw [← raising, eng_modEng]
  · rw [Task.modEng, eng_setEng_other _ _ raising]

theorem resumedAt_run (epc : W64) (e : Eng) :
    (resumedAt epc e).run = if e.run = .joining ∧ epc ≠ e.pc then .running else e.run := by
  cases run : e.run <;> simp [resumedAt, run]

/-- A change of one sequencer is none of the storage and flags, nor of the handler's mark and of the streams that are held. -/
theorem modEng_keeps (t : Task) (e : Engine) (f : Eng → Eng) :
    let u := t.modEng e f
    u.trBusy = t.trBusy ∧ u.held = t.held ∧ KeepsStorage t u ∧ KeepsFlags t u := by
  cases e <;> exact ⟨rfl, rfl, ⟨rfl, rfl, rfl, rfl, rfl, rfl, rfl, rfl, rfl, rfl, rfl, rfl⟩, rfl, rfl, rfl, rfl⟩

/-- Settles O20: the task is the one whose streams are released, and each sequencer what it is after the return. -/
theorem trapReturnRestores : Obligations.TrapReturnRestores := by
  intro s uid en code val epc src e free vector runs
  obtain ⟨busy, held, storage, flags⟩ := modEng_keeps (released (s.task uid) en code val epc src) en (resumedAt epc)
  dsimp only
  rw [task_takeTrap free vector, eng_trapReturn (runs .ctl), trapReturn_trapTaken (runs .ctl)]
  by_cases raising : e = en
  · simp only [raising, true_and]
    exact ⟨busy, held, rfl, resumedAt_run .., rfl, rfl, rfl, rfl, storage, flags, rfl, fun _ => rfl⟩
  · simp only [raising, false_and, if_false]
    exact ⟨busy, held, rfl, rfl, rfl, rfl, rfl, rfl, storage, flags, rfl, False.elim⟩

/-! ### TRAP and TRET (12 R270, R271) -/

theorem tretCheck_low {s : State} (low : s.me.priv = .t) : tretCheck s = .trap Cause.priv 0#64 := by
  simp only [tretCheck, low]
  rfl

theorem tretCheck_free {s : State} (level : s.me.priv = .s) (free : s.me.trBusy = false) : tretCheck s = .trap Cause.priv 3#64 := by
  simp only [tretCheck, level, free]
  rfl

/-- A handler runs at level S (12 R265). -/
theorem priv_of_busy {t : Task} (busy : t.trBusy = true) : t.priv = .s := if_pos busy

theorem tretCheck_ok {s : State} (busy : s.me.trBusy = true) (joined : s.me.joined = true) : tretCheck s = .ok := by
  simp only [tretCheck, priv_of_busy busy, busy, joined]
  rfl

/-- A handler that does not own EXE has nothing to reload. -/
theorem tret_issues :
    Issues .tret none (fun s => s.me.trBusy = true ∧ s.me.exeOwn = false ∧ s.me.joined = true)
      fun s => (s.modMe Task.trapReturn).setStatus .gone := by
  refine issues_congr (issues_of_check (fun _ => rfl) fun s holds => ?_) fun s holds => ?_
  · obtain ⟨busy, -, joined⟩ := holds
    exact tretCheck_ok busy joined
  · obtain ⟨-, own, -⟩ := holds
    exact if_neg (by simp [own])

/-- Settles O21: TRAP has no check, and TRET's is a case of the level and of the trap under way. -/
theorem trapInstructions : Obligations.TrapInstructions :=
  ⟨fun _ _ => issues_of_check (fun _ => rfl) fun _ _ => rfl, tret_issues, traps_of_check (fun _ => rfl) fun _ => tretCheck_low,
    traps_of_check (fun _ => rfl) fun _ holds => tretCheck_free holds.1 holds.2⟩

end Sys2Proof.Proofs.TrapReturn

/-!
SUPPORT. Priorities (12 R257, R258, R260): the order in which candidates rank, and the boost and graze of gangs.
-/

namespace Sys2Proof.Proofs.Priorities

open Sys2Proof.Machine Sys2Proof.Laws Sys2Proof.Proofs.Landings Sys2Proof.Proofs.TrapEvents

/-- Settles O45: saturation at 0 is that of the subtraction of naturals. -/
theorem effectivePriority : Obligations.EffectivePriority := by
  intro s t
  unfold State.eff
  dsimp only
  split_ifs <;> omega

/-! ### The order of candidates (12 R260) -/

/-- What a task ranks by: starving tasks first, among which priority does not count, then the highest priority, the longest ready, and
the lowest number. -/
def rankKey (s : State) (t : Task) : Bool ×ₗ ℤ ×ₗ ℕ ×ₗ ℕ :=
  toLex (!t.starving, toLex (if t.starving then 0 else -(s.eff t : ℤ), toLex (t.readySince, t.tid.toNat)))

/-- Ranking before is the lexicographic order of what tasks rank by. -/
theorem before_iff (s : State) (a b : Task) : s.before a b = true ↔ rankKey s a < rankKey s b := by
  simp only [rankKey, Prod.Lex.toLex_lt_toLex, State.before]
  cases a.starving <;> cases b.starving <;> simp

theorem rankKey_injective {s : State} {a b : Task} (same : rankKey s a = rankKey s b) : a.tid = b.tid := by
  simp only [rankKey, EmbeddingLike.apply_eq_iff_eq, Prod.mk.injEq] at same
  obtain ⟨-, -, -, number⟩ := same
  exact BitVec.eq_of_toNat_eq number

/-- Settles O46: the order of keys is linear, and tasks with different numbers differ in theirs. -/
theorem rankingIsAnOrder : Obligations.RankingIsAnOrder := by
  intro s a b c
  simp only [← Bool.not_eq_true, before_iff]
  exact ⟨lt_irrefl _, lt_trans, fun other => lt_or_gt_of_ne fun same => other (rankKey_injective same)⟩

/-! ### Boost and graze (12 R258) -/

theorem arrive_open {g : Gang} (grazes : g.grazed = false) : g.arrive = { g with boost := min (g.boost + 4) 16 } :=
  if_neg (by simp [grazes])

theorem arrive_grazed {g : Gang} (grazed : g.grazed = true) : g.arrive = g := if_pos grazed

theorem step_below {g : Gang} (below : g.graze + g.boost < 2000) :
    g.step = { g with graze := g.graze + g.boost, boost := g.boost - 1 } := if_neg (Nat.not_le.mpr below)

theorem step_grazes {g : Gang} (reached : 2000 ≤ g.graze + g.boost) :
    g.step = { boost := 0, graze := g.graze + g.boost, grazed := true } := if_pos reached

/-- A value of a map to all of whose values a function has been applied. -/
theorem getD_map {α : Type} (m : NMap α) (f : α → α) (k : Nat) {d : α} (fixed : f d = d) :
    NMap.getD (m.map fun x => (x.1, f x.2)) k d = f (m.getD k d) := by
  induction m with
  | nil => exact fixed.symm
  | cons c m ih =>
    obtain ⟨a, b⟩ := c
    by_cases here : a = k
    · simp [NMap.getD, NMap.find?, here]
    · simpa [NMap.getD, NMap.find?, here] using ih

/-- The end of a window on a die. -/
def windowEnded (d : Die) : Die := { d with windowDue := false, gangs := d.gangs.map fun g => (g.1, g.2.endWindow) }

theorem gang_windowEnded (d : Die) (vd g : Nat) : (windowEnded d).gang vd g = (d.gang vd g).endWindow :=
  getD_map d.gangs Gang.endWindow _ rfl

/-- A window's end that is due clears the graze and the mark of the grazed, and keeps the boost. -/
theorem grazeWindowEnd_clears {s : State} {die : Nat} (due : (s.die die).windowDue = true) :
    ∃ t, exec (.grazeWindowEnd die) s = .next t ∧ KeepsMemory s t ∧ (t.die die).windowDue = false ∧
      ∀ vd g, ((t.die die).gang vd g).graze = 0 ∧ ((t.die die).gang vd g).grazed = false ∧
        ((t.die die).gang vd g).boost = ((s.die die).gang vd g).boost := by
  refine ⟨s.modDie die windowEnded, congrArg Host.Outcome.next (if_pos due), keepsMemory_of_mem rfl, ?_⟩
  rw [die_modDie]
  refine ⟨rfl, fun vd g => ?_⟩
  rw [gang_windowEnded]
  exact ⟨rfl, rfl, rfl⟩

/-! ### The step of a microsecond (12 R258) -/

/-- The step of a microsecond on a die. -/
def stepped (d : Die) : Die :=
  { d with usDue := false, usStep := d.usStep + 1, windowDue := decide (d.usStep % 1000 = 999),
           gangs := d.gangs.map fun g => (g.1, g.2.step), decide := List.range 36 }

/-- On a die without tasks there is nobody to be reconsidered. -/
theorem foldl_reconsider {s : State} {die : Nat} {l : List (Nat × Task)} (elsewhere : ∀ p, p ∈ l → p.2.die ≠ die) :
    l.foldl (fun s t => if t.2.die = die then s.reconsider t.1 else s) s = s := by
  induction l with
  | nil => rfl
  | cons p l ih =>
    rw [List.foldl_cons, if_neg (elsewhere p List.mem_cons_self)]
    exact ih fun q mem => elsewhere q (List.mem_cons_of_mem p mem)

/-- While no access is outstanding no MLDR waits for its group. -/
theorem reshard_quiet {s : State} (quiet : s.accesses = []) (die : Nat) : s.reshard die = s := by
  unfold State.reshard
  rw [quiet]
  rfl

theorem microsecondStep_steps {s : State} {die : Nat} (due : (s.die die).usDue = true) (inside : (s.die die).windowDue = false)
    (quiet : s.accesses = []) (elsewhere : ∀ p, p ∈ s.tasks → p.2.die ≠ die) :
    exec (.microsecondStep die) s = .next (s.modDie die stepped) := by
  have within : s.endWindow die = s := if_neg (by simp [inside])
  show execMicrosecondStep die s = _
  unfold execMicrosecondStep
  rw [within, if_neg (by simp [due])]
  refine congrArg Host.Outcome.next ?_
  show ((s.modDie die stepped).tasks.foldl _ (s.modDie die stepped)).reshard die = _
  rw [modDie_tasks, foldl_reconsider elsewhere, reshard_quiet (s := s.modDie die stepped) quiet]

/-- Settles O47: arrivals and steps by the limits, the window by its end, the step of a microsecond where nothing else is to do. -/
theorem gangRules : Obligations.GangRules :=
  ⟨fun _ => arrive_open, fun _ => arrive_grazed, fun _ => step_below, fun _ => step_grazes, fun _ _ => grazeWindowEnd_clears,
    fun _ _ => microsecondStep_steps⟩

end Sys2Proof.Proofs.Priorities

/-!
SUPPORT. Stops and switches (12 R260, R263): what each event answers in the states that it is for, what a halt leaves of the
sequencer and of its task, and which tasks change their slots in a switch.
-/

namespace Sys2Proof.Proofs.Switches

open Sys2Proof.Machine Sys2Proof.Laws Sys2Proof.Proofs.Landings Sys2Proof.Proofs.TrapEvents Sys2Proof.Proofs.TrapReturn

/-! ### A decision (12 R260, 13 R278) -/

/-- Nothing keeps a quad that owes a decision from making it once all the gang entries that it reads have routes. -/
theorem decision_unhindered {s : State} {die quad : Nat} (owes : quad ∈ (s.die die).decide) (serves : (s.die die).inService = true)
    (near : ∀ g, g ∈ s.gangsOf die quad → s.gangAway g.1 die g.2 = false) :
    ¬ (!(s.die die).decide.contains quad || !(s.die die).inService ||
      (s.gangsOf die quad).any fun g => s.gangAway g.1 die g.2) = true := by
  have none_away : ((s.gangsOf die quad).any fun g => s.gangAway g.1 die g.2) = false :=
    List.any_eq_false.mpr fun g mem => by simp [near g mem]
  simp [owes, serves, none_away]

/-! ### A stop point (03 R63, 12 R263) -/

theorem dropTlbis_task (s : State) (uid u : Nat) : (s.dropTlbis uid).task u = s.task u := rfl

section
variable {s : State} {uid : Nat} {en : Engine}

/-- A sequencer that has been asked to stop, outside a handler, and stands before a listed point, issues nothing more. -/
theorem meetStop_found {n : Nat} {m : StopMask} {u : State} (asked : ((s.task uid).eng en).stop = .asked n)
    (free : (s.task uid).trBusy = false) (found : s.listed uid en = (.found m, u)) :
    (s.meetStop uid en).1 = true ∧ (((s.meetStop uid en).2.task uid).eng en).stop = .point m := by
  simp [State.meetStop, asked, free, found]

theorem stopPointReached_halts {m : StopMask} (active : (s.task uid).place = .active) (point : ((s.task uid).eng en).stop = .point m)
    (undue : en = .exe → s.arithDue uid = false) : exec (.stopPointReached uid en) s = .next (s.halt uid en (some m)) := by
  have now : ¬ (en == .exe && s.arithDue uid) = true := by
    by_cases exe : en = .exe <;> simp [exe, undue]
  show execStopPointReached uid en s = _
  simp only [execStopPointReached, active, point]
  exact if_neg now

/-! ### A forced stop (06 R150, 12 R263) -/

/-- A halt without a mask keeps the whole sequencer, but for its progress in the stop. -/
theorem halt_whole : (s.halt uid en none).mem = s.mem ∧
    (s.halt uid en none).task uid = (s.task uid).modEng en fun e => { e with stop := .stopped, stall := none } := by
  unfold State.halt
  dsimp only
  split_ifs
  · exact ⟨rfl, task_modTask ..⟩
  · exact ⟨rfl, task_modTask ..⟩

theorem forcedStop_at_once {n : Nat} (active : (s.task uid).place = .active) (asked : ((s.task uid).eng en).stop = .asked n)
    (must : 4096 ≤ n ∨ ((s.task uid).eng en).stall.isSome = true ∨ (s.task uid).trBusy = true) :
    exec (.forcedStop uid en) s = .next (s.halt uid en none) := by
  have must : (4096 ≤ n || ((s.task uid).eng en).stall.isSome || (s.task uid).trBusy) = true := by
    simpa [or_assoc] using must
  show execForcedStop uid en s = _
  simp only [execForcedStop, State.asked, active, asked]
  exact if_pos must

/-- EXE that could go on stops before a unit that works, and one that has issued since the request meets a listed point there first. -/
theorem forcedStop_beforeUnit {n : Nat} {u : State} (active : (s.task uid).place = .active) (asked : (s.task uid).exe.stop = .asked n)
    (few : n < 4096) (goes : (s.task uid).exe.stall = none) (free : (s.task uid).trBusy = false) (unit : s.unitStop uid = some u) :
    exec (.forcedStop uid .exe) s = .next (if n = 0 then u.halt uid .exe none
      else if (u.meetStop uid .exe).1 then (u.meetStop uid .exe).2 else (u.meetStop uid .exe).2.halt uid .exe none) := by
  have stays : ¬ (4096 ≤ n || (s.task uid).exe.stall.isSome || (s.task uid).trBusy) = true := by
    simpa [goes, free] using few
  show execForcedStop uid .exe s = _
  simp only [execForcedStop, State.asked, active, Task.eng, asked, unit]
  refine (if_neg stays).trans ?_
  cases n with
  | zero => rfl
  | succ n =>
    rcases u.meetStop uid .exe with ⟨meets, v⟩
    cases meets <;> rfl

/-- A sequencer that has waited since before the request, and stalls once more, stops whole before what it stalls on. -/
theorem stopsWaiting_halts {l : Line} {u : State} {sync : Bool} (asked : ((s.task uid).eng en).stop = .asked 0)
    (waits : ((s.task uid).eng en).waits = true) (free : (s.task uid).trBusy = false) (goes : s.proceed en l = .next u)
    (stalls : u.cur.status = .stalled sync) : s.stopsWaiting uid en l = some (u.halt uid en none) := by
  have still : ((s.task uid).eng en).stillWaits = true := by simp only [Eng.stillWaits, asked, waits]
  simp only [State.stopsWaiting, still, free, goes, stalls]
  rfl

/-- What a request makes of a sequencer. -/
def askStop (e : Eng) : Eng :=
  match e.stop with
  | .none => if e.run = .idle ∨ e.stall.isSome then { e with stop := .stopped, stall := none } else { e with stop := .asked 0 }
  | _ => e

/-- What a request makes of a task: its four sequencers are asked, and its stop table is read afresh. -/
def stopAsked (t : Task) : Task :=
  { t with stopSpace := (t.s1root, t.asid), stopReads := [], stopEmpty := false }.mapEngs askStop

theorem task_requestStop : (s.requestStop uid).task uid = stopAsked (s.task uid) := by
  unfold State.requestStop
  dsimp only
  split_ifs
  · exact (task_modTask ..).trans (congrArg stopAsked (dropTlbis_task ..))
  · exact task_modTask ..

/-- A request stops an idle or a stalled sequencer at once, and asks any other to stop. -/
theorem requestStop_stop (runs : ((s.task uid).eng en).stop = .none) :
    (((s.requestStop uid).task uid).eng en).stop =
      if ((s.task uid).eng en).run = .idle ∨ ((s.task uid).eng en).stall.isSome = true then .stopped else .asked 0 := by
  have eng : (stopAsked (s.task uid)).eng en = askStop ((s.task uid).eng en) := by cases en <;> rfl
  rw [task_requestStop, eng, askStop, runs]
  split_ifs <;> rfl

end

/-! ### A switch (02 R50, 12 R260) -/

theorem modCore_task (s : State) (core : Nat) (f : Core → Core) (u : Nat) : (s.modCore core f).task u = s.task u := rfl

/-- The task in an active slot leaves it for standby. -/
def givesWay (s : State) (u now : Nat) : State := s.modTask u fun t => t.leave .standby now

/-- A task enters a core's active slot, and the switch is over. -/
def enters (s : State) (core c : Nat) (now : Nat) : State :=
  (s.modTask c fun t => t.enter core now).modCore core fun y => { y with plan := none }

section
variable {s : State} {core c : Nat} {out : Option Nat} {d : Bool} (plan : (s.core core).plan = some ⟨out, some c, d⟩)
  (moves : (s.core core).freeze = false) (ready : (s.task c).place = .standby) (here : (s.task c).core = some core)
  (come : (s.task c).dest ≠ some core) (stays : (s.task c).parkAfter = false)
include plan moves ready here come stays

theorem slotSwitch_empty (empty : s.activeOf core = none) :
    exec (.slotSwitch core) s = .next (enters s core c (s.now (core / 144))) := by
  show execSlotSwitch core s = _
  simp [execSlotSwitch, plan, moves, empty, come, ready, here, stays, enters, coresPerDie]

theorem slotSwitch_exchanges {u : Nat} (holds : s.activeOf core = some u) (leaves : out = some u)
    (active : (s.task u).place = .active) (stopped : (s.task u).allStopped = true) (lives : (s.task u).dying = false) :
    exec (.slotSwitch core) s = .next
      ((enters (givesWay s u (s.now (core / 144))) core c (s.now (core / 144))).dueDecision (s.task c).die (s.task c).quad) := by
  show execSlotSwitch core s = _
  simp [execSlotSwitch, plan, moves, holds, leaves, come, ready, here, stays, active, stopped, lives, givesWay, enters, coresPerDie]

end

/-- The task that has entered a core's active slot, and the core. -/
theorem enters_after (s : State) (core c now : Nat) :
    KeepsMemory s (enters s core c now) ∧ ((enters s core c now).core core).plan = none ∧
      ((enters s core c now).task c).place = .active ∧ ((enters s core c now).task c).activeSince = now := by
  have task : (enters s core c now).task c = (s.task c).enter core now := (modCore_task ..).trans (task_modTask ..)
  rw [task]
  exact ⟨fun _ => rfl, congrArg Core.plan (core_modCore ..), rfl, rfl⟩

/-- The task that left, once another has entered. -/
theorem givesWay_after {s : State} {c u : Nat} (core now : Nat) (other : u ≠ c) :
    let t := (enters (givesWay s u now) core c now).task u
    t.place = .standby ∧ t.core = (s.task u).core ∧ t.readySince = now := by
  have task : (enters (givesWay s u now) core c now).task u = (s.task u).leave .standby now :=
    ((modCore_task ..).trans (task_modTask_other _ _ other)).trans (task_modTask ..)
  rw [task]
  exact ⟨rfl, rfl, rfl⟩

/-- Settles O48: each event answers what it is for, a halt keeps the sequencer, and a switch exchanges the slots of two tasks. -/
theorem switching : Obligations.Switching := by
  refine ⟨fun s die quad owes serves near => ?_, fun s uid en n m u => meetStop_found, fun s uid en m => stopPointReached_halts,
    fun s uid en n active asked must => ⟨_, forcedStop_at_once active asked must, ?_⟩,
    fun s uid n u active asked few goes free unit => ⟨fun none_left => ?_, fun some_left => ?_⟩,
    fun s uid en l u e => stopsWaiting_halts, fun s uid en => requestStop_stop,
    fun s core c out d plan moves ready here come stays => ⟨fun empty => ⟨_, slotSwitch_empty plan moves ready here come stays empty,
      enters_after ..⟩, fun u holds leaves other active stopped lives => ⟨_, slotSwitch_exchanges plan moves ready here come stays
        holds leaves active stopped lives, ?_⟩⟩⟩
  · exact if_neg (decision_unhindered owes serves near)
  · obtain ⟨mem, task⟩ := halt_whole (s := s) (uid := uid) (en := en)
    obtain ⟨-, -, ⟨frame, -⟩, -⟩ := modEng_keeps (s.task uid) en fun e => { e with stop := .stopped, stall := none }
    rw [task, eng_modEng]
    exact ⟨keepsMemory_of_mem mem, rfl, rfl, rfl, frame⟩
  · rw [forcedStop_beforeUnit active asked few goes free unit, if_pos none_left]
  · rw [forcedStop_beforeUnit active asked few goes free unit, if_neg some_left]
  · obtain ⟨mem, plan, place, since⟩ := enters_after (givesWay s u (s.now (core / 144))) core c (s.now (core / 144))
    exact ⟨mem, plan, place, since, givesWay_after core _ other⟩

end Sys2Proof.Proofs.Switches

/-!
SUPPORT. The pod after power-on (15 R334), and the requests that are answered without any other effect (15 R326).
-/

namespace Sys2Proof.Proofs.PowerOn

open Sys2Proof.Machine Sys2Proof.Laws

/-- Settles O1: every map of the pod that has just been powered on is empty, so everything has its default. -/
theorem resetState : Obligations.ResetState :=
  ⟨rfl, fun _ => ⟨rfl, rfl⟩, fun _ => ⟨rfl, rfl, rfl⟩, fun _ => rfl, fun _ => ⟨rfl, rfl⟩, rfl, rfl, rfl, fun _ => rfl, rfl⟩

/-- Settles O2: memory in which nothing is listed is in its canonical form. -/
theorem resetInv : Obligations.ResetInv := rfl

theorem module_modModule (s : State) (m : Nat) (f : Module → Module) : (s.modModule m f).module m = f (s.module m) := by
  simp [State.module, State.modModule, NMap.getD]

theorem module_modModule_other (s : State) {m n : Nat} (f : Module → Module) (other : n ≠ m) :
    (s.modModule m f).module n = s.module n := by
  simp [State.module, State.modModule, NMap.getD, find_set_other _ _ other]

/-- Settles O55: an answer is one more completion of the module, and no other module changes. -/
theorem unservedRequests : Obligations.UnservedRequests :=
  ⟨fun _ _ => rfl, fun _ _ _ => rfl, fun s m f => ⟨module_modModule s m f, fun _ => module_modModule_other s f⟩⟩

end Sys2Proof.Proofs.PowerOn

/-!
SUPPORT. What an instruction leaves that only puts results into its sequencer's delay line (00 R5, 06 R147).
-/

namespace Sys2Proof.Proofs.DelayedResults

open Sys2Proof.Machine Sys2Proof.Laws Sys2Proof.Proofs.Barriers Sys2Proof.Proofs.Landings Sys2Proof.Proofs.Streams Sys2Proof.Proofs.TrapReturn

/-- A change of one sequencer is none of what belongs to the task as a whole. -/
theorem modEng_special (t : Task) (e : Engine) (f : Eng → Eng) : KeepsSpecial t (t.modEng e f) := by
  cases e <;> simp [KeepsSpecial, Task.modEng, Task.setEng]

theorem modEng_other (t : Task) {e d : Engine} (f : Eng → Eng) (other : d ≠ e) : (t.modEng e f).eng d = t.eng d :=
  eng_setEng_other _ _ other

theorem modEng_id (t : Task) (e : Engine) : t.modEng e (fun x => x) = t := by cases e <;> rfl

theorem modMe_others (s : State) (f : Task → Task) : KeepsOthers s (s.modMe f) := fun _ other => find_set_other _ _ other

theorem me_stateModEng (s : State) (f : Eng → Eng) : (s.modEng f).me = s.me.modEng s.cur.eng f := me_modMe ..

theorem modEng_others (s : State) (f : Eng → Eng) : KeepsOthers s (s.modEng f) := modMe_others s _

/-- What is changed of one sequencer, as the state that has issued it. -/
theorem issued_of_start_eq {u : State} (start : u.cur.status = .start) : u.issued = u.setStatus .issued := by
  simp only [State.issued, start]

/-- The frame of an instruction that changes the issuing sequencer alone, and of it neither registers nor asynchronous results. -/
structure Framed (s t : State) : Prop where
  memory : KeepsMemory s t
  machine : KeepsMachine s t
  others : KeepsOthers s t
  registers : KeepsRegisters s.landed.me t.me
  storage : KeepsStorage s.landed.me t.me
  flags : KeepsFlags s.landed.me t.me
  special : KeepsSpecial s.landed.me t.me
  engines : ∀ e, e ≠ s.cur.eng → t.me.eng e = s.landed.me.eng e
  async : t.eng.async = s.landed.eng.async

/-- An instruction with the delay line of its sequencer as its only effect. -/
theorem framed_pend {s : State} (start : s.cur.status = .start) (f : List Pend → List Pend) :
    let t := (s.landed.modEng fun e => { e with pend := f e.pend }).issued
    Framed s t ∧ t.eng.pend = f s.landed.eng.pend := by
  intro t
  have issued : t = (s.landed.modEng fun e => { e with pend := f e.pend }).setStatus .issued := issued_of_start_eq start
  have me : t.me = s.landed.me.modEng s.cur.eng fun e => { e with pend := f e.pend } := by
    rw [issued]; exact me_stateModEng ..
  have eng : t.eng = { s.landed.eng with pend := f s.landed.eng.pend } := by
    rw [issued]; exact stateEng_modEng ..
  obtain ⟨-, -, storage, flags⟩ := modEng_keeps s.landed.me s.cur.eng fun e => { e with pend := f e.pend }
  refine ⟨⟨keepsMemory_of_mem ?_, ?_, ?_, ?_, me ▸ storage, me ▸ flags, me ▸ modEng_special .., ?_, ?_⟩, ?_⟩
  · rw [issued]; rfl
  · rw [issued]; simp [KeepsMachine, State.landed]
  · rw [issued]
    intro u other
    exact (modEng_others s.landed _ u other).trans (modMe_others s _ u other)
  · intro e
    rw [me]
    by_cases same : e = s.cur.eng
    · rw [same, eng_modEng]
    · rw [modEng_other _ _ same]
  · intro e other
    rw [me, modEng_other _ _ other]
  · rw [eng]
  · rw [eng]

/-! ### Results -/

theorem set_set {α : Type} (m : NMap α) (k : Nat) (v w : α) : (m.set k v).set k w = m.set k w := by
  induction m with
  | nil => simp [NMap.set]
  | cons c m ih =>
    obtain ⟨a, b⟩ := c
    by_cases same : a = k <;> simp [NMap.set, same, ih]

/-- Where nothing is put, the delay line is as it was. -/
theorem landed_modEng_same (s : State) : s.landed.modEng (fun e => { e with pend := id e.pend }) = s.landed := by
  have me : s.landed.me = s.me.land s.cur.eng := me_modMe s _
  show s.landed.setTask s.cur.uid (s.landed.me.modEng s.cur.eng fun x => x) = s.landed
  rw [modEng_id, me]
  simp only [State.landed, State.modMe, State.modTask, State.setTask, set_set]
  rfl

/-- A result is put last into the delay line, unless it is for g0. -/
theorem later_eq (s : State) (n : Nat) {d : Dest} (named : d ≠ .reg 0#5) (data : Entry) (f : Flags) :
    s.later n d data f =
      s.modEng fun e => { e with pend := e.pend ++ [{ rem := n, slot := s.cur.slot, dest := d, data, flags := f }] } :=
  if_neg named

end Sys2Proof.Proofs.DelayedResults

/-!
SUPPORT. The scalar instructions (16 R345 to R347, R355, 17 R383): each issues with one result in the delay line, and nothing else.
-/

namespace Sys2Proof.Proofs.Scalars

open Sys2Proof.Machine Sys2Proof.Laws Sys2Proof.Proofs.Control Sys2Proof.Proofs.Barriers Sys2Proof.Proofs.DelayedResults

/-! ### Values -/

theorem minSigned (a b : W64) : (if b.slt a then b else a) = BitVec.ofInt 64 (min a.toInt b.toInt) := by
  rw [min_comm, min_def_lt, apply_ite (BitVec.ofInt 64)]
  simp [BitVec.slt_eq_decide]

theorem maxSigned (a b : W64) : (if a.slt b then b else a) = BitVec.ofInt 64 (max a.toInt b.toInt) := by
  rw [max_def_lt, apply_ite (BitVec.ofInt 64)]
  simp [BitVec.slt_eq_decide]

theorem minUnsigned (a b : W64) : (if b < a then b else a) = BitVec.ofNat 64 (min a.toNat b.toNat) := by
  rw [min_comm, min_def_lt, apply_ite (BitVec.ofNat 64)]
  simp [BitVec.lt_def]

theorem maxUnsigned (a b : W64) : (if a < b then b else a) = BitVec.ofNat 64 (max a.toNat b.toNat) := by
  rw [max_def_lt, apply_ite (BitVec.ofNat 64)]
  simp [BitVec.lt_def]

/-- A scalar instruction has no check of its own: it issues with its result. -/
theorem scalar_issues {i : Instr} {n : Nat} {d : GReg} {v w : State → W64} (arm : ∀ s, exec i s = scalarOp i n d v s)
    (value : ∀ s, v s = w s) : Issues i none (fun _ => True) fun s => s.result n d (w s) := by
  obtain rfl : v = w := funext value
  exact issues_of_check arm fun _ _ => rfl

/-- Settles O13: each instruction is a scalar one by definition, and only the minima and maxima are picked by a comparison of words. -/
theorem scalar : Obligations.Scalar := by
  have plain {i n d v} (arm : ∀ s, exec i s = scalarOp i n d v s) := scalar_issues arm fun _ => rfl
  refine ⟨fun d a b => ?_, fun d a => ?_⟩
  · exact ⟨plain fun _ => rfl, plain fun _ => rfl, plain fun _ => rfl, plain fun _ => rfl, plain fun _ => rfl, plain fun _ => rfl,
      plain fun _ => rfl, plain fun _ => rfl, plain fun _ => rfl, plain fun _ => rfl, plain fun _ => rfl, plain fun _ => rfl,
      plain fun _ => rfl, plain fun _ => rfl, plain fun _ => rfl, plain fun _ => rfl, plain fun _ => rfl,
      scalar_issues (fun _ => rfl) fun _ => minSigned .., scalar_issues (fun _ => rfl) fun _ => maxSigned ..,
      scalar_issues (fun _ => rfl) fun _ => minUnsigned .., scalar_issues (fun _ => rfl) fun _ => maxUnsigned ..,
      fun _ => plain fun _ => rfl, plain fun _ => rfl, plain fun _ => rfl, plain fun _ => rfl, plain fun _ => rfl⟩
  · exact ⟨fun _ => ⟨plain fun _ => rfl, plain fun _ => rfl, plain fun _ => rfl, plain fun _ => rfl⟩,
      fun _ => ⟨plain fun _ => rfl, plain fun _ => rfl, plain fun _ => rfl⟩, fun _ => plain fun _ => rfl,
      fun _ _ => plain fun _ => rfl, fun _ _ _ => ⟨plain fun _ => rfl, plain fun _ => rfl⟩⟩

/-! ### The frame -/

/-- A scalar instruction is NOP, or puts a result for the first register that it names into the delay line. -/
theorem scalar_form {i : Instr} (scalar : isScalar i = true) :
    i = .nop ∨ ∃ n d v, (∀ s, exec i s = scalarOp i n d v s) ∧ (instrRegs i).head? = some d := by
  unfold isScalar at scalar
  split at scalar
  · exact .inl rfl
  case h_39 => cases scalar
  all_goals exact .inr ⟨_, _, _, fun _ => rfl, rfl⟩

/-- What a scalar instruction leaves: the delay line as it was, or one result more. -/
theorem scalar_effect {i : Instr} {s : State} (scalar : isScalar i = true) (admitted : s.admits i none = true) :
    (exec i s = .next s.landed.issued) ∨ ∃ p d, (instrRegs i).head? = some d ∧ p.dest = .reg d ∧ p.flags = 0#9 ∧
      exec i s = .next (s.landed.modEng fun e => { e with pend := e.pend ++ [p] }).issued := by
  obtain rfl | ⟨n, d, v, arm, names⟩ := scalar_form scalar
  · exact .inl (issue_admits admitted _ _ rfl)
  · rw [arm, scalarOp, issue_admits admitted _ _ rfl, State.result]
    by_cases zero : d = 0#5
    · exact .inl (by rw [State.later, if_pos (zero ▸ rfl)])
    · refine .inr ⟨_, d, names, ?_, ?_, congrArg (Host.Outcome.next ∘ State.issued) (later_eq _ n ?_ _ _)⟩
      · rfl
      · rfl
      · exact fun same => zero (Dest.reg.inj same)

/-- Settles O14: the frame is that of an instruction whose only effect is on the delay line. -/
theorem scalarFrame : Obligations.ScalarFrame := by
  intro i s scalar admitted
  obtain effect | ⟨p, d, names, dest, flags, effect⟩ := scalar_effect scalar admitted
  · obtain ⟨framed, pend⟩ := framed_pend (start_of_admits admitted) id
    rw [landed_modEng_same] at framed pend
    exact ⟨_, effect, framed.memory, framed.machine, framed.others, framed.registers, framed.storage, framed.flags, framed.special,
      framed.engines, framed.async, .inl pend⟩
  · obtain ⟨framed, pend⟩ := framed_pend (start_of_admits admitted) (· ++ [p])
    exact ⟨_, effect, framed.memory, framed.machine, framed.others, framed.registers, framed.storage, framed.flags, framed.special,
      framed.engines, framed.async, .inr ⟨p, d, pend, names, dest, flags⟩⟩

end Sys2Proof.Proofs.Scalars

/-!
SUPPORT. Lanes of an entry (02 R39) and of a vector of the frame (02 R38).
-/

namespace Sys2Proof.Proofs.Lanes

open Sys2Proof.Machine Sys2Proof.Laws

/-! ### Lanes of an entry -/

theorem lane_getLsbD (e : Entry) (i j : Nat) : (lane e i).getLsbD j = (decide (j < 32) && e.getLsbD (32 * i + j)) := by
  simp [lane]

/-- Bits replaced by those of a number (00 R7). -/
theorem setBits_getLsbD {w : Nat} (v : BitVec w) (l n x k : Nat) : (setBits v l n x).getLsbD k =
    if l ≤ k ∧ k < l + n then decide (k < w) && x.testBit (k - l) else v.getLsbD k := by
  have inside : (l ≤ k ∧ k - l < n) ↔ l ≤ k ∧ k < l + n := by omega
  simp only [setBits, BitVec.getLsbD_or, BitVec.getLsbD_and, BitVec.getLsbD_not, BitVec.getLsbD_ofNat, Nat.testBit_mul_two_pow,
    Nat.testBit_two_pow_sub_one, Nat.testBit_mod_two_pow]
  by_cases below : k < w
  · by_cases at' : l ≤ k ∧ k < l + n
    · simp [below, at', inside.mpr at']
    · rw [if_neg at']
      rcases Nat.lt_or_ge k l with low | high
      · simp [below, Nat.not_le.mpr low]
      · simp [below, high, show ¬ k - l < n by omega]
  · have out : v.getLsbD k = false := BitVec.getLsbD_of_ge v k (by omega)
    simp [below, out]

theorem setLane_getLsbD (e : Entry) (i : Nat) (v : W32) (k : Nat) : (setLane e i v).getLsbD k =
    if 32 * i ≤ k ∧ k < 32 * i + 32 then decide (k < 4096) && v.getLsbD (k - 32 * i) else e.getLsbD k :=
  setBits_getLsbD e (32 * i) 32 v.toNat k

theorem lane_setLane_same (e : Entry) {i : Nat} (v : W32) (inside : i < 128) : lane (setLane e i v) i = v := by
  ext j hj
  simp only [← BitVec.getLsbD_eq_getElem, lane_getLsbD, setLane_getLsbD]
  have h : 32 * i + j < 4096 := by omega
  simp [hj, h]

theorem lane_setLane_other (e : Entry) {i j : Nat} (v : W32) (other : j ≠ i) : lane (setLane e i v) j = lane e j := by
  ext k hk
  simp only [← BitVec.getLsbD_eq_getElem, lane_getLsbD, setLane_getLsbD]
  rw [if_neg (by omega)]

/-- A number written with n digits of w bits has each of them in its place. -/
theorem foldr_digits {w : Nat} (f : Nat → BitVec w) (n k : Nat) {i : Nat} (inside : i < n) :
    ((List.range' k n).foldr (fun i acc => (f i).toNat + acc * 2 ^ w) 0) / 2 ^ (w * i) % 2 ^ w = (f (k + i)).toNat := by
  induction n generalizing k i with
  | zero => omega
  | succ n ih =>
    rw [List.range'_succ, List.foldr_cons]
    cases i with
    | zero =>
      rw [Nat.mul_zero, Nat.pow_zero, Nat.div_one, Nat.add_mul_mod_self_right, Nat.mod_eq_of_lt (f k).isLt, Nat.add_zero]
    | succ i =>
      rw [Nat.mul_succ, Nat.pow_add, Nat.mul_comm (2 ^ (w * i)), ← Nat.div_div_eq_div_mul,
        Nat.add_mul_div_right _ _ (Nat.two_pow_pos w), Nat.div_eq_of_lt (f k).isLt, Nat.zero_add, ih (k + 1) (by omega),
        Nat.add_assoc, Nat.add_comm 1]

theorem lane_ofLanes (f : Nat → W32) {i : Nat} (inside : i < 128) : lane (ofLanes f) i = f i := by
  have digit := foldr_digits f 128 0 inside
  rw [← List.range_eq_range', Nat.zero_add] at digit
  ext j hj
  have within : 32 * i + j < 4096 := by omega
  rw [← BitVec.getLsbD_eq_getElem, lane_getLsbD, ofLanes, BitVec.getLsbD_ofNat, ← BitVec.getLsbD_eq_getElem, ← BitVec.testBit_toNat,
    ← digit, Nat.testBit_mod_two_pow, Nat.testBit_div_two_pow]
  rw [Nat.add_comm j]
  simp only [hj, within, decide_true, Bool.true_and]

/-! ### Vectors of the frame -/

theorem row_key {z y : BitVec 3} {k m : Nat} (hk : k < 128) (hm : m < 128) :
    z.toNat * 128 + k = y.toNat * 128 + m ↔ z = y ∧ k = m := by
  rw [← BitVec.toNat_inj]; omega

theorem row_setRow_same (t : Task) (z : BitVec 3) (k : Nat) (e : Entry) : (t.setRow z k e).row z k = e := by
  simp [Task.row, Task.setRow, NMap.getD]

theorem row_setRow_other (t : Task) {z y : BitVec 3} {k m : Nat} (e : Entry) (hk : k < 128) (hm : m < 128)
    (other : ¬ (y = z ∧ m = k)) : (t.setRow z k e).row y m = t.row y m := by
  rw [Task.row, Task.setRow, NMap.getD, find_set_other _ _ fun same => other ((row_key hm hk).mp same)]
  rfl

/-- The rows of a vector that crosses them, written one by one. -/
def crossRows (f : FVec) (e : Entry) (t : Task) (i : Nat) : Task :=
  t.setRow f.reg i (setLane (t.row f.reg i) (vecElem f i).2 (lane e i))

theorem setVec_of_crossing {f : FVec} (crosses : f.dir ≠ .h) (t : Task) (e : Entry) :
    t.setVec f e = (List.range 128).foldl (crossRows f e) t := by
  unfold Task.setVec
  split
  · next across => exact absurd across crosses
  · rfl

/-- Row m of register y after the first n rows of a vector have been written. -/
theorem row_crossRows (f : FVec) (e : Entry) (t : Task) {n : Nat} (hn : n ≤ 128) (y : BitVec 3) {m : Nat} (hm : m < 128) :
    ((List.range n).foldl (crossRows f e) t).row y m =
      if y = f.reg ∧ m < n then setLane (t.row y m) (vecElem f m).2 (lane e m) else t.row y m := by
  induction n with
  | zero => simp
  | succ n ih =>
    have before := ih (by omega)
    rw [List.range_succ, List.foldl_append, List.foldl_cons, List.foldl_nil, crossRows]
    by_cases here : y = f.reg ∧ m = n
    · obtain ⟨rfl, rfl⟩ := here
      rw [row_setRow_same, before, if_neg (by omega), if_pos ⟨rfl, Nat.lt_succ_self m⟩]
    · rw [row_setRow_other _ _ (by omega) hm here, before]
      have same : (y = f.reg ∧ m < n + 1) ↔ (y = f.reg ∧ m < n) := by
        constructor
        · rintro ⟨hy, hm⟩; exact ⟨hy, Nat.lt_of_le_of_ne (Nat.lt_succ_iff.mp hm) fun h => here ⟨hy, h⟩⟩
        · exact fun h => ⟨h.1, Nat.lt_succ_of_lt h.2⟩
      simp only [same]

theorem vecElem_lt (f : FVec) {i : Nat} (hi : i < 128) : (vecElem f i).2 < 128 := by
  unfold vecElem
  split
  · exact hi
  · exact f.idx.isLt
  · exact Nat.mod_lt _ (by norm_num)

theorem vecElem_row {f : FVec} (crosses : f.dir ≠ .h) (i : Nat) : (vecElem f i).1 = i := by
  unfold vecElem
  split
  · next across => exact absurd across crosses
  · rfl
  · rfl

/-- A vector of the frame reads as it was written (02 R38). -/
theorem lane_vec_setVec (t : Task) (f : FVec) (e : Entry) {i : Nat} (hi : i < 128) :
    lane ((t.setVec f e).vec f) i = lane e i := by
  by_cases crosses : f.dir = .h
  · simp only [Task.vec, Task.setVec, crosses, row_setRow_same]
  · have read : (t.setVec f e).vec f = ofLanes fun i => lane ((t.setVec f e).row f.reg i) (vecElem f i).2 := by
      rw [Task.vec]
      split
      · next across => exact absurd across crosses
      · rfl
    rw [read, lane_ofLanes _ hi, setVec_of_crossing crosses, row_crossRows f e t (Nat.le_refl _) _ hi, if_pos ⟨rfl, hi⟩,
      lane_setLane_same _ _ (vecElem_lt f hi)]

/-- Writing a vector of the frame changes its own elements only (02 R38). -/
theorem lane_row_setVec (t : Task) (f : FVec) (e : Entry) {z : BitVec 3} {k j : Nat} (hk : k < 128) (hj : j < 128)
    (other : ∀ i, i < 128 → z = f.reg → vecElem f i ≠ (k, j)) : lane ((t.setVec f e).row z k) j = lane (t.row z k) j := by
  by_cases crosses : f.dir = .h
  · have elem : vecElem f j = (f.idx.toNat, j) := by simp only [vecElem, crosses]
    have set : t.setVec f e = t.setRow f.reg f.idx.toNat e := by simp only [Task.setVec, crosses]
    rw [set, row_setRow_other _ _ f.idx.isLt hk]
    rintro ⟨reg, row⟩
    exact other j hj reg (by rw [elem, row])
  · rw [setVec_of_crossing crosses, row_crossRows f e t (Nat.le_refl _) _ hk]
    split_ifs with here
    · refine lane_setLane_other _ _ fun same => other k hk here.1 (Prod.ext (vecElem_row crosses k) same.symm)
    · rfl

end Sys2Proof.Proofs.Lanes

/-!
SUPPORT. The vector instructions (18 R412 to R433, 17 R395, 10 R236): each issues where its pops find their entries.
-/

namespace Sys2Proof.Proofs.Vectors

open Sys2Proof.Machine Sys2Proof.Laws Sys2Proof.Proofs.Control Sys2Proof.Proofs.Barriers Sys2Proof.Proofs.DelayedResults
  Sys2Proof.Proofs.Streams Sys2Proof.Proofs.Lanes

theorem vectorCheck_ok {i : Instr} {s : State} (ready : s.popsReady i = true) : vectorCheck i s = .ok := if_pos ready

/-- A vector instruction issues with its effect where its pops are ready. -/
theorem vector_issues {i : Instr} {eff : State → State} (arm : ∀ s, exec i s = issue i (vectorCheck i) eff s) :
    Issues i none (fun s => s.popsReady i = true) eff :=
  issues_of_check arm fun _ => vectorCheck_ok

/-- Settles O36: each instruction is one of the five shapes by definition. -/
theorem vectorElements : Obligations.VectorElements := by
  refine ⟨fun d a b t r => ?_, fun d a b c t r => ?_⟩
  · exact ⟨fun _ => vector_issues fun _ => rfl, fun _ => vector_issues fun _ => rfl, fun _ => vector_issues fun _ => rfl,
      fun _ => vector_issues fun _ => rfl, fun _ => vector_issues fun _ => rfl, fun _ => vector_issues fun _ => rfl,
      fun _ => vector_issues fun _ => rfl, fun _ _ => vector_issues fun _ => rfl, fun _ => vector_issues fun _ => rfl,
      fun _ => vector_issues fun _ => rfl, vector_issues fun _ => rfl, vector_issues fun _ => rfl, vector_issues fun _ => rfl,
      vector_issues fun _ => rfl, vector_issues fun _ => rfl⟩
  · exact ⟨fun _ => vector_issues fun _ => rfl, fun _ => vector_issues fun _ => rfl, fun _ => vector_issues fun _ => rfl,
      fun _ => vector_issues fun _ => rfl, fun _ => vector_issues fun _ => rfl, fun _ => vector_issues fun _ => rfl,
      fun _ => vector_issues fun _ => rfl, fun _ => vector_issues fun _ => rfl, fun _ => vector_issues fun _ => rfl,
      vector_issues fun _ => rfl⟩

/-! ### Conversions, moves and random values (18 R423 to R432) -/

theorem foldl_flags_four (q : Nat → Nat × Nat × Flags) :
    ((List.range 4).map q).foldl (fun f q => f ||| q.2.2) 0#9 = (q 0).2.2 ||| (q 1).2.2 ||| (q 2).2.2 ||| (q 3).2.2 := by
  have four : List.range 4 = [0, 1, 2, 3] := rfl
  simp [four]

/-- The four blocks that VQNT writes, elements and sides, with their flags (18 R431). -/
theorem write_blocks (s : State) (f h : FVec) (w : Nat) (q : Nat → Nat × Nat × Flags) :
    let blocks := (List.range 4).map q
    let join (w : Nat) (v : Nat → Nat) : Entry :=
      BitVec.ofNat 4096 (((List.range 4).map v).foldr (fun q acc => q % 2 ^ w + acc * 2 ^ w) 0)
    ((s.write (.vec f (BitVec.ofNat 4096 (blocks.foldr (fun q acc => q.1 % 2 ^ w + acc * 2 ^ w) 0)))).write
      (.vec h (BitVec.ofNat 4096 (blocks.foldr (fun q acc => q.2.1 % 2 ^ 32 + acc * 2 ^ 32) 0)))).write
        (.flags (blocks.foldl (fun f q => f ||| q.2.2) 0#9)) =
    ((s.write (.vec f (join w fun k => (q k).1))).write (.vec h (join 32 fun k => (q k).2.1))).write
      (.flags ((q 0).2.2 ||| (q 1).2.2 ||| (q 2).2.2 ||| (q 3).2.2)) := by
  intro blocks join
  simp only [blocks, join, foldl_flags_four, List.foldr_map]

theorem bits_low_seven (v : W32) : bits v 6 0 = v.toNat % 128 := by simp [bits]

theorem lane_zero_setWidth (v : W64) : lane (v.setWidth 4096) 0 = v.setWidth 32 := by
  ext j hj
  rw [← BitVec.getLsbD_eq_getElem, lane_getLsbD, ← BitVec.getLsbD_eq_getElem]
  simp [hj, show j < 4096 by omega]

theorem ofElems_congr {w n : Nat} {f g : Nat → Nat} (same : ∀ e, e < n → f e = g e) : ofElems w n f = ofElems w n g :=
  congrArg (BitVec.ofNat 4096) (List.foldr_ext _ _ _ fun e he acc => by rw [same e (List.mem_range.mp he)])

/-- A row of what SELK writes is that of the 128 columns as they rank. -/
theorem selected_rows (col : Nat → List (Nat × Nat)) (f : Nat × Nat → Nat) (k : Nat) :
    (ofElems 32 128 fun j => f ((((List.range 128).map col).getD j []).getD k (0, 0))) =
      ofElems 32 128 fun j => f ((col j).getD k (0, 0)) :=
  ofElems_congr fun e he => by simp [he]

/-- Advancing the random stream leaves the registers (05 R119). -/
theorem breg_drawRow (s : State) (g : BitVec 4) : s.drawRow.2.2.breg g = s.breg g := by
  have eng : s.drawRow.2.2.eng = s.eng := (eng_modMe s _).trans (by rw [State.eng]; cases s.cur.eng <;> rfl)
  rw [State.breg, State.breg, State.reg, State.reg, eng]

theorem vpop_ready {f : FVec} {q : BitVec 2} {s : State} (front : 1 ≤ arrived (s.me.queue (.qv q))) :
    s.popsReady (.vpop f q) = true := by
  simpa [State.popsReady, instrPops, namings] using front

/-- Settles O37: each effect is the instruction's own by definition, but for the places that VPERM, SELK and VQNT read and the order in
which VRED's flags are joined. -/
theorem vectorConversions : Obligations.VectorConversions := by
  refine ⟨fun d a b t u r op f g h n => ⟨vector_issues fun _ => rfl, ?vqnt, ?vdq, ?vred, ?vscan, ?vmaxi⟩,
    fun d a b t r f q g zi zv zs => ⟨?vperm, vector_issues fun _ => rfl, ?selk, ?rngv, ?smpl,
      issues_of_check (fun _ => rfl) fun _ front => vectorCheck_ok (vpop_ready front), issues_of_check (fun _ => rfl) fun _ _ => rfl,
      issues_of_check (fun _ => rfl) fun _ _ => rfl⟩⟩
  case vqnt => exact issues_congr (issues_of_check (fun _ => rfl) fun _ _ => rfl) fun s _ => write_blocks _ f h _ _
  case vdq =>
    refine issues_congr (vector_issues fun _ => rfl) fun s _ => ?_
    dsimp only
  case vred =>
    refine issues_congr (vector_issues fun _ => rfl) fun s _ => ?_
    dsimp only [elemCount]
    rw [BitVec.or_comm]
  case vscan =>
    refine issues_congr (vector_issues fun _ => rfl) fun s _ => ?_
    dsimp only [elemCount]
  case vmaxi =>
    refine issues_congr (vector_issues fun _ => rfl) fun s _ => ?_
    dsimp only [elemCount]
  case vperm =>
    refine issues_congr (vector_issues fun _ => rfl) fun s _ => ?_
    dsimp only
    simp only [bit, bits_low_seven]
  case selk =>
    refine issues_congr (issues_of_check (fun _ => rfl) fun _ _ => rfl) fun s _ => ?_
    dsimp only
    simp only [selected_rows]
  case rngv =>
    refine issues_congr (issues_of_check (fun _ => rfl) fun _ _ => rfl) fun s _ => ?_
    dsimp only [State.drawRow]
  case smpl =>
    refine issues_congr (vector_issues fun _ => rfl) fun s _ => ?_
    dsimp only
    rw [breg_drawRow, lane_zero_setWidth]
    dsimp only [State.drawRow]

/-- Settles O38: what VBCST delivers has one lane throughout, and a vector reads as it was written. -/
theorem vbcstLane : Obligations.VbcstLane := by
  refine ⟨fun d a l s admitted ready => ⟨ofLanes fun _ => lane (s.landed.source 32 a).1 l.toNat, fun i hi => lane_ofLanes _ hi,
    issue_admits admitted _ _ (vectorCheck_ok ready)⟩, fun t f e i hi => lane_vec_setVec t f e hi, fun s n f e => ⟨rfl, ?_⟩⟩
  rw [State.deliver, later_eq _ _ (by simp [landing]), stateEng_modEng]
  simp [landing]

/-! ### The frame -/

/-- Reading a source that is no queue changes nothing. -/
theorem source_of_unpopped (s : State) (w : Nat) {a : VSrc} (unpopped : srcPops a = []) : (s.source w a).2 = s := by
  cases a with
  | vec f => rfl
  | qv i => cases unpopped
  | bcast g => rfl

/-- What is asked of the form of a vector instruction that draws nothing: it pops no queue, and delivers an entry to its destination. -/
def Delivers (i : Instr) : Prop :=
  instrPops i = [] ∧ ∃ d n eff, vdst i = some d ∧ (∀ s, exec i s = issue i (vectorCheck i) eff s) ∧
    ∀ s, ∃ r, eff s = s.deliver n d r

/-- An instruction of two sources that rounds nothing stochastically. -/
theorem delivers_two {i : Instr} {d : VDst} {n wa wb : Nat} {a b : VSrc} {eff : State → State} {r : State → Entry × Flags}
    (quiet : (srcPops a ++ srcPops b).isEmpty = true) (pops : instrPops i = srcPops a ++ (srcPops b ++ [])) (dst : vdst i = some d)
    (arm : ∀ s, exec i s = issue i (vectorCheck i) eff s)
    (effect : ∀ s, eff s = ((s.source wa a).2.source wb b).2.deliver n d (r s)) : Delivers i := by
  obtain ⟨noneA, noneB⟩ := List.append_eq_nil_iff.mp (List.isEmpty_iff.mp quiet)
  refine ⟨by rw [pops, noneA, noneB]; rfl, d, n, eff, dst, arm, fun s => ⟨r s, ?_⟩⟩
  rw [effect, source_of_unpopped s wa noneA, source_of_unpopped s wb noneB]

/-- An instruction of one source. -/
theorem delivers_one {i : Instr} {d : VDst} {n w : Nat} {a : VSrc} {eff : State → State} {r : State → Entry × Flags}
    (quiet : (srcPops a).isEmpty = true) (pops : instrPops i = srcPops a ++ []) (dst : vdst i = some d)
    (arm : ∀ s, exec i s = issue i (vectorCheck i) eff s)
    (effect : ∀ s, eff s = (s.source w a).2.deliver n d (r s)) : Delivers i := by
  have none' := List.isEmpty_iff.mp quiet
  refine ⟨by rw [pops, none']; rfl, d, n, eff, dst, arm, fun s => ⟨r s, ?_⟩⟩
  rw [effect, source_of_unpopped s w none']

theorem quiet_delivers {i : Instr} (quiet : isQuietVector i = true) : Delivers i := by
  unfold isQuietVector at quiet
  split at quiet
  case h_15 => cases quiet
  iterate 9 exact delivers_two quiet rfl rfl (fun _ => rfl) fun _ => rfl
  all_goals exact delivers_one quiet rfl rfl (fun _ => rfl) fun _ => rfl

/-- The pops of an instruction that names no queue are ready. -/
theorem popsReady_of_unpopped {i : Instr} (unpopped : instrPops i = []) (s : State) : s.popsReady i = true := by
  rw [State.popsReady, unpopped]
  rfl

theorem landing_ne_zero (d : VDst) : landing d ≠ .reg 0#5 := by
  cases d <;> simp [landing]

/-- Settles O39: a quiet instruction has its one result as its only effect, and a written vector keeps what is not its own. -/
theorem vectorFrame : Obligations.VectorFrame := by
  refine ⟨fun i s quiet admitted exe => ?_, fun t f e z k j hk hj other => lane_row_setVec t f e hk hj other⟩
  obtain ⟨unpopped, d, n, eff, dst, arm, delivers⟩ := quiet_delivers quiet
  obtain ⟨r, effect⟩ := delivers s.landed
  have ends : exec i s = .next (eff s.landed).issued :=
    (arm s).trans (issue_admits admitted _ _ (vectorCheck_ok (popsReady_of_unpopped unpopped _)))
  rw [effect, State.deliver, later_eq _ _ (landing_ne_zero d)] at ends
  obtain ⟨framed, pend⟩ := framed_pend (start_of_admits admitted) (· ++ [_])
  exact ⟨_, _, ends, framed.memory, framed.machine, framed.others, framed.registers, framed.storage, framed.flags, framed.special,
    fun e other => framed.engines e (exe ▸ other), framed.async, pend, d, dst, rfl⟩

end Sys2Proof.Proofs.Vectors

/-!
SUPPORT. The values of control registers (16 R361): what each reads after a write, of itself and of another.
-/

namespace Sys2Proof.Proofs.CsrValues

open Sys2Proof.Machine Sys2Proof.Laws Sys2Proof.Proofs.TrapEvents Sys2Proof.Proofs.Lanes

/-! ### Fields of a word -/

theorem setWidth_setWidth_mask (v : W64) (n : Nat) :
    (v.setWidth n).setWidth 64 = v &&& BitVec.ofNat 64 (2 ^ n - 1) := by
  ext i hi
  simp only [← BitVec.getLsbD_eq_getElem, BitVec.getLsbD_setWidth, BitVec.getLsbD_and, BitVec.getLsbD_ofNat,
    Nat.testBit_two_pow_sub_one, hi, decide_true, Bool.true_and]
  rw [Bool.and_comm]

/-- A field of n bits kept from place l on reads in its place. -/
theorem ofNat_field (v : W64) (n l : Nat) :
    BitVec.ofNat 64 (((v >>> l).setWidth n).toNat * 2 ^ l) = v &&& BitVec.ofNat 64 ((2 ^ n - 1) * 2 ^ l) := by
  ext i hi
  simp only [← BitVec.getLsbD_eq_getElem, BitVec.getLsbD_and, BitVec.getLsbD_ofNat, Nat.testBit_mul_two_pow,
    Nat.testBit_two_pow_sub_one, BitVec.testBit_toNat, BitVec.getLsbD_setWidth, BitVec.getLsbD_ushiftRight, hi, decide_true,
    Bool.true_and]
  by_cases above : l ≤ i
  · simp [above, Bool.and_comm]
  · simp [above]

/-- The low doubleword of a counter is replaced (05 R119). -/
theorem low_setBits (c : BitVec 128) (v : W64) :
    (setBits c 0 64 v.toNat).setWidth 64 = v ∧ (setBits c 0 64 v.toNat) >>> 64 = c >>> 64 := by
  constructor
  · ext i hi
    rw [← BitVec.getLsbD_eq_getElem, BitVec.getLsbD_setWidth, setBits_getLsbD, if_pos ⟨Nat.zero_le i, by omega⟩]
    simp [hi, show i < 128 by omega, BitVec.testBit_toNat]
  · ext i hi
    rw [← BitVec.getLsbD_eq_getElem, BitVec.getLsbD_ushiftRight, setBits_getLsbD, if_neg (by omega), ← BitVec.getLsbD_ushiftRight,
      BitVec.getLsbD_eq_getElem]

/-- The high doubleword of a counter is replaced (05 R119). -/
theorem high_setBits (c : BitVec 128) (v : W64) :
    ((setBits c 64 64 v.toNat) >>> 64).setWidth 64 = v ∧ (setBits c 64 64 v.toNat).setWidth 64 = c.setWidth 64 := by
  constructor
  · ext i hi
    rw [← BitVec.getLsbD_eq_getElem, BitVec.getLsbD_setWidth, BitVec.getLsbD_ushiftRight, setBits_getLsbD,
      if_pos ⟨Nat.le_add_right 64 i, by omega⟩]
    simp [hi, show 64 + i < 128 by omega, BitVec.testBit_toNat]
  · ext i hi
    rw [← BitVec.getLsbD_eq_getElem, BitVec.getLsbD_setWidth, setBits_getLsbD, if_neg (by omega), ← BitVec.getLsbD_setWidth,
      BitVec.getLsbD_eq_getElem]

/-! ### What a register reads of a task -/

/-- The value that a control register reads for a task (16 R361). -/
def csrOf (s : State) (t : Task) : Csr → W64
  | .cfgPlace => BitVec.ofNat 64 (s.place t)
  | .cfgTask => BitVec.ofNat 64 t.cfg
  | .cfgVd => BitVec.ofNat 64 (b2n (s.vd t.vdKey).mig * 2 ^ 16 + t.vd)
  | .clkRef => (s.die t.die).clk
  | .rngKey => t.rngKey
  | .rngCtrLo => t.rngCtr.setWidth 64
  | .rngCtrHi => (t.rngCtr >>> 64).setWidth 64
  | .arFlags => t.arFlags.setWidth 64
  | .arTrap => t.arEn.setWidth 64 ||| (if t.arPend then 0x10000#64 else 0#64)
  | .trCause => t.trCode.setWidth 64 ||| (if t.trBusy then 0x8000000000000000#64 else 0#64)
  | .trEpc => t.trEpc
  | .trVal => t.trVal
  | .trFrom => t.trFrom
  | .trVec => t.trVec
  | .trEng => BitVec.ofNat 64 (t.trRun.toNat * 16 + t.trEng.toNat)
  | .exeOwn => BitVec.ofNat 64 (t.exeSpill.toNat * 2 ^ 16) ||| (if t.exeOwn then 0x8000000000000000#64 else 0#64)
  | .vmS1root => t.s1root
  | .vmAsid => t.asid.setWidth 64
  | .vmS2root => (s.vd t.vdKey).s2root
  | .vmVd => BitVec.ofNat 64 t.vd

theorem csr_eq (s : State) (c : Csr) : s.csr c = csrOf s s.me c := by cases c <;> rfl

/-- A change of the issuing task shows in what its registers read. -/
theorem csr_modMe (s : State) (f : Task → Task) (c : Csr) : (s.modMe f).csr c = csrOf s (f s.me) c := by
  rw [csr_eq, me_modMe]
  cases c <;> rfl

theorem vd_modVd (s : State) (k : Nat) (f : Vd → Vd) : (s.modVd k f).vd k = f (s.vd k) := by
  simp [State.vd, State.modVd, NMap.getD]

theorem vd_modVd_other (s : State) {k j : Nat} (f : Vd → Vd) (other : j ≠ k) : (s.modVd k f).vd j = s.vd j := by
  simp [State.vd, State.modVd, NMap.getD, find_set_other _ _ other]

/-- A field that a change of one VD leaves alone is that of every VD. -/
theorem vd_modVd_keeps {α : Type} (field : Vd → α) {f : Vd → Vd} (keeps : ∀ x, field (f x) = field x) (s : State) (k j : Nat) :
    field ((s.modVd k f).vd j) = field (s.vd j) := by
  by_cases same : j = k
  · subst same
    rw [vd_modVd, keeps]
  · rw [vd_modVd_other s f same]

/-! ### Another register -/

/-- A change of the task leaves a register that reads as before. -/
theorem csr_modMe_same {s : State} {f : Task → Task} {c : Csr} (same : csrOf s (f s.me) c = csrOf s s.me c) :
    (s.modMe f).csr c = s.csr c := by
  rw [csr_modMe, same, csr_eq]

theorem die_modDie_other (s : State) {d e : Nat} (f : Die → Die) (other : e ≠ d) : (s.modDie d f).die e = s.die e := by
  simp [State.die, State.modDie, State.setDie, NMap.getD, find_set_other _ _ other]

/-- A field that a change of one die leaves alone is that of every die. -/
theorem die_modDie_keeps {α : Type} (field : Die → α) {f : Die → Die} (keeps : ∀ x, field (f x) = field x) (s : State) (d e : Nat) :
    field ((s.modDie d f).die e) = field (s.die e) := by
  by_cases same : e = d
  · subst same
    rw [die_modDie, keeps]
  · rw [die_modDie_other s f same]

/-- Dropping the copies of a space and the failures of its walks is no change that a register shows. -/
theorem csr_newRoot (s : State) (die : Nat) (p : SpaceCopy → Bool) (f : Task → Task) (c : Csr) :
    ((s.newSpace.dropSpaces die p).modMe f).csr c = csrOf s (f s.me) c := by
  rw [csr_modMe]
  cases c
  case clkRef => exact die_modDie_keeps Die.clk (by intro; rfl) s.newSpace die (f s.me).die
  all_goals rfl

/-- A change of the second root of a VD shows in no other register. -/
theorem csr_s2root {s : State} (k : Nat) (root : W64) {d : Csr} (other : d ≠ .vmS2root) :
    (s.modVd k fun x => { x with s2root := root }).csr d = s.csr d := by
  cases d
  case vmS2root => exact absurd rfl other
  case cfgVd =>
    have mig (j : Nat) : ((s.modVd k fun x => { x with s2root := root }).vd j).mig = (s.vd j).mig :=
      vd_modVd_keeps Vd.mig (by intro; rfl) s k j
    exact congrArg (fun x => BitVec.ofNat 64 (b2n x * 2 ^ 16 + s.me.vd)) (mig _)
  all_goals rfl

/-- A write of one register leaves what the others read (16 R361). -/
theorem csr_setCsr_other (s : State) (v : W64) {c d : Csr} (other : d ≠ c) : (s.setCsr c v).csr d = s.csr d := by
  cases c
  case vmS2root => exact csr_s2root _ _ other
  case vmS1root => exact (csr_newRoot ..).trans (by cases d <;> simp [csrOf, csr_eq] at other ⊢ <;> rfl)
  case vmAsid => exact (csr_modMe s.newSpace _ d).trans (by cases d <;> simp [csrOf, csr_eq] at other ⊢ <;> rfl)
  case rngCtrLo => exact csr_modMe_same (by cases d <;> simp [csrOf, low_setBits] at other ⊢ <;> rfl)
  case rngCtrHi => exact csr_modMe_same (by cases d <;> simp [csrOf, high_setBits] at other ⊢ <;> rfl)
  case trEng | vmVd | cfgPlace | cfgTask | cfgVd | clkRef => rfl
  all_goals exact csr_modMe_same (by cases d <;> simp [csrOf] at other ⊢ <;> rfl)

/-- Settles O23: a register is a field of the task, of its die or of its VD, and each write changes one such field. -/
theorem controlRegisterValues : Obligations.ControlRegisterValues := by
  intro s v
  refine ⟨csr_modMe .., csr_modMe .., csr_modMe .., csr_modMe .., csr_modMe .., (csr_modMe ..).trans (low_setBits _ v).1,
    (csr_modMe ..).trans (high_setBits _ v).1, (csr_modMe ..).trans (congrArg (· ||| _) (setWidth_setWidth_mask v 9)),
    (csr_modMe ..).trans (congrArg (· ||| _) (setWidth_setWidth_mask v 9)), (csr_modMe ..).trans (congrArg (· ||| _) (ofNat_field v 40 16)),
    ?_, rfl, rfl, (csr_modMe ..).trans (setWidth_setWidth_mask v 9), csr_newRoot .., (csr_modMe ..).trans (setWidth_setWidth_mask v 16),
    rfl, rfl, ?_, ?_, fun c d other => csr_setCsr_other s v other⟩
  · exact congrArg Vd.s2root (vd_modVd s s.me.vdKey _)
  · exact congrArg Task.conv0 (me_modMe s _)
  · exact congrArg Task.conv1 (me_modMe s _)

end Sys2Proof.Proofs.CsrValues

/-!
SUPPORT. Loads, stores, atomics and the moves between queues and memory (16 R348 to R350, R370 to R375, 17 R389, R398 to R402, 18 R437):
one access each, on the pieces that its address translates to.
-/

namespace Sys2Proof.Proofs.Accesses

open Sys2Proof.Machine Sys2Proof.Laws Sys2Proof.Proofs.Control Sys2Proof.Proofs.Barriers Sys2Proof.Proofs.Bells

/-! ### The frame of an access (08 R198, 09 R210, R213) -/

theorem holdOver_cur (s : State) : s.holdOver.cur = s.cur := by
  unfold State.holdOver
  split_ifs
  · rfl
  · exact acquireNow_keeps State.cur (fun _ _ => rfl) _

/-- An access whose address translates at once, and whose fence has nothing to wait for, is made behind that fence. -/
theorem memory_ok {s u : State} {va n : Nat} {acc : AccKind} {ps : List Piece} (o so : Machine.Ordering) (go : List Piece → State → State)
    (translates : s.holdOver.translate (.task s.cur.uid s.cur.eng) s.cur.uid va n acc = .ok ps u) :
    let k := if ps.any fun p => p.ord == .so then so else o
    (k.before = .full → u.pendingIds u.cur.uid Access.fences = []) →
      s.memory va n acc o so go = (go ps (u.fencedBy k.before)).holdFor k.after := by
  intro k clear
  rw [State.memory, withPieces_ok (by rw [holdOver_cur]; exact translates)]
  have free : ¬ (decide (k.before = .full) && !(u.pendingIds u.cur.uid Access.fences).isEmpty) = true := by
    by_cases full : k.before = .full
    · simp [clear full]
    · simp [full]
  refine (if_neg free).trans (congrArg (fun x => (go ps x).holdFor k.after) (?_ : _ = u.fencedBy k.before))
  show (match k.before with | .rel => u.release | .full => u.acquireNow | .none => u) = u.fencedBy k.before
  cases k.before <;> rfl

/-- An instruction whose effect is an access. -/
theorem accesses_of_memory {i : Instr} {cls : PathClass} {chk : State → Chk} {eff : State → State} {cond : State → Prop}
    {va : State → Nat} {n : Nat} {acc : AccKind} {o so : Machine.Ordering} {go : State → List Piece → State → State}
    (arm : ∀ s, exec i s = issueClass i cls chk eff s) (pass : ∀ s, cond s → chk s = .ok)
    (effect : ∀ s, cond s → eff s = s.memory (va s) n acc o so (go s)) : Accesses i cls cond va n acc o so go := by
  intro s ps u admitted holds translates k clear
  rw [arm, issueClass_admits admitted chk eff (pass _ holds), effect _ holds,
    memory_ok o so (go s.landed) translates clear]

/-! ### LD and ST (16 R370, R371, 17 R398) -/

theorem toBytes_length {w : Nat} (n : Nat) (v : BitVec w) : (toBytes n v).length = n := by simp [toBytes]

theorem storeBytes_eq (s : State) (ea : Nat) {bs : List Byte} {n : Nat} (length : bs.length = n) (cls : PathClass)
    (o : Machine.Ordering) (pop : State → State) : s.storeBytes ea bs cls o pop = s.memory ea n .write o soStore fun ps u =>
      pop (u.addAccess { cls := some cls, drain := some 1, purpose := .store, parts := u.writeParts u.me.die ps bs }) := by
  rw [← length]
  rfl

/-! ### PREF (17 R389) -/

/-- What a PREF of a cached address leaves. -/
def used (s : State) (ea : Nat) : State :=
  match (s.lookup s.me.die (s.me.core.getD 0) s.me.vdKey s.me.asid.toNat ea).1 with
  | none => s
  | some e => if (e.refuses s.me.priv.isS .read).isSome || s.poisoned (e.phys ea) then s
      else (s.lookup s.me.die (s.me.core.getD 0) s.me.vdKey s.me.asid.toNat ea).2.fillTlb s.me.die (some (s.me.core.getD 0)) e

section

variable {s : State} {ea : Nat} {tree : Bool}

theorem prefetch_cached (range : ea < 2 ^ 56)
    (cached : (s.lookup s.me.die (s.me.core.getD 0) s.me.vdKey s.me.asid.toNat ea).1.isSome = true) :
    s.prefetch ea tree = used s ea := by
  obtain ⟨e, found⟩ := Option.isSome_iff_exists.mp cached
  rw [State.prefetch, used]
  dsimp only
  rw [if_neg (Nat.not_le.mpr range), found]

theorem prefetch_fresh (range : ea < 2 ^ 56)
    (fresh : (s.lookup s.me.die (s.me.core.getD 0) s.me.vdKey s.me.asid.toNat ea).1 = none) :
    s.prefetch ea tree = (s.addAccess { cls := some .ld, drain := some 0, purpose := .pref tree }).addWalk
      (.pref s.nextId) s.cur.uid ea .read := by
  rw [State.prefetch]
  dsimp only
  rw [if_neg (Nat.not_le.mpr range), fresh]

end

/-! ### WAITV (18 R437) -/

/-- What a poll that is due and may be made leads to. -/
def polled (rd b : GReg) (c : Cond) (wide : Bool) (ps : List Piece) (u : State) : State :=
  let r := u.poll u.cur.uid ps
  if waitvHolds c wide r.1 (r.2.reg b) then (r.2.modMe fun t => { t with polls := 0, lastPoll := none }).result 1 rd r.1
  else (r.2.modMe fun t => { t with polls := t.polls + 1, lastPoll := some (r.2.die t.die).clk.toNat }).stallNow false

theorem waitv_polls {rd a b : GReg} {c : Cond} {wide : Bool} {s u : State} {ps : List Piece}
    (admitted : s.admits (.waitv rd a b c wide) (some .ld) = true) (due : s.landed.pollDue s.landed.me = true)
    (reaches : s.landed.reaches (s.landed.address a 0 / atomBytes wide * atomBytes wide) (atomBytes wide) .read ps u)
    (free : u.pollBlocked u.me ps = false) :
    exec (.waitv rd a b c wide) s = .next (polled rd b c wide ps u).issued := by
  obtain ⟨translates, weak⟩ := reaches
  refine (issueClass_admits admitted _ _ (if_pos due)).trans (congrArg (Host.Outcome.next ∘ State.issued) ?_)
  refine (memory_ok {} soLoad _ translates fun full => ?_).trans ?_
  · rw [weak] at full
    cases full
  · rw [weak]
    exact if_neg (by simp [State.fencedBy, free])

/-- Settles O26: loads and stores are accesses, a cached PREF a fill and any other a walk, and WAITV the poll that it makes. -/
theorem loadsAndStores : Obligations.LoadsAndStores := by
  refine ⟨⟨fun rt a w off => ?_, fun rt a w o off => ?_, fun rt a w off => ?_, fun rt a w o off => ?_, fun a off =>
    ⟨?_, ?_, ?_, ?_⟩⟩, fun rd a b c wide s ps u admitted due reaches free => ⟨fun holds => ?_, fun fails => ?_⟩⟩
  · exact accesses_of_memory (fun _ => rfl) (fun _ _ => rfl) fun _ _ => rfl
  · exact accesses_of_memory (fun _ => rfl) (fun _ _ => rfl) fun _ _ => rfl
  · exact accesses_of_memory (fun _ => rfl) (fun _ _ => rfl) fun _ _ => storeBytes_eq _ _ (toBytes_length ..) _ _ _
  · exact accesses_of_memory (fun _ => rfl) (fun _ _ => rfl) fun _ _ => storeBytes_eq _ _ (toBytes_length ..) _ _ _
  · exact issues_congr (issues_of_classCheck (fun _ => rfl) fun _ _ => rfl) fun s holds => prefetch_cached holds.1 holds.2
  · exact issues_congr (issues_of_classCheck (fun _ => rfl) fun _ _ => rfl) fun s holds => prefetch_cached holds.1 holds.2
  · exact issues_congr (issues_of_classCheck (fun _ => rfl) fun _ _ => rfl) fun s holds => prefetch_fresh holds.1 holds.2
  · exact issues_congr (issues_of_classCheck (fun _ => rfl) fun _ _ => rfl) fun s holds => prefetch_fresh holds.1 holds.2
  · rw [waitv_polls admitted due reaches free, polled, if_pos holds]
  · rw [waitv_polls admitted due reaches free, polled, if_neg (by simp [fails])]

/-! ### Entries of queues (16 R373 to R375, 17 R400 to R402) -/

theorem arrived_le (l : List QSlot) : arrived l ≤ l.length := by
  induction l with
  | nil => exact Nat.le_refl 0
  | cons x l ih =>
    obtain ⟨tag, val⟩ := x
    cases val with
    | none => exact Nat.zero_le _
    | some e => exact Nat.succ_le_succ ih

/-- As many entries as have arrived can be taken. -/
theorem entries_length {s : State} {q : BitVec 2} {n : Nat} (enough : n ≤ arrived (s.me.queue (.qs q))) :
    (s.entries q n).length = n := by
  have there := arrived_le (s.me.queue (.qs q))
  simp only [State.entries, List.length_map, List.length_take]
  omega

theorem flatMap_toBytes_length (l : List Entry) : (l.flatMap (toBytes 512)).length = 512 * l.length := by
  induction l with
  | nil => rfl
  | cons e l ih => simp [ih, toBytes_length, Nat.mul_add, Nat.add_comm]

theorem roomCheck_ok {q : InQueue} {n : Nat} {s : State} (room : (s.me.queue q.queue).length + n ≤ 16) : roomCheck q n s = .ok :=
  if_pos room

theorem popCheck_ok {q : BitVec 2} {n : Nat} {s : State} (enough : n ≤ arrived (s.me.queue (.qs q))) : popCheck q n s = .ok :=
  if_pos enough

/-- Settles O27: each is an access of its entries' bytes, whose length is that of the entries that have arrived. -/
theorem queueMoves : Obligations.QueueMoves := by
  refine ⟨fun q a off => ?_, fun q a n => ?_, fun q a off => ?_, fun q a n => ?_⟩
  · exact accesses_of_memory (fun _ => rfl) (fun _ room => roomCheck_ok room) fun _ _ => rfl
  · exact accesses_of_memory (fun _ => rfl) (fun _ room => roomCheck_ok room) fun _ _ => rfl
  · exact accesses_of_memory (fun _ => rfl) (fun _ enough => popCheck_ok enough) fun _ _ => storeBytes_eq _ _ (toBytes_length ..) _ _ _
  · exact accesses_of_memory (fun _ => rfl) (fun _ enough => popCheck_ok enough) fun s enough =>
      storeBytes_eq _ _ (by rw [flatMap_toBytes_length, entries_length enough]) _ _ _

/-! ### ATOM (16 R348 to R350) -/

/-- An atomic issues where its address is aligned and traps where it is not. -/
theorem atomic_issues {i : Instr} {d a b c : GReg} {op : AtomOp} {n : Nat} {o : AtomOrd}
    (arm : ∀ s, exec i s = issueClass i .st (atomCheck a n) (fun s => s.atomic d a b c op n (atomOrdering o)) s) :
    Accesses i .st (fun s => (s.reg a).toNat % n = 0) (fun s => s.address a 0) n .atomic (atomOrdering o) soStore (fun s ps u =>
      (u.addAccess { cls := some .st, drain := some 1, purpose := .atom d op n (s.reg b) (s.reg c),
                     parts := ps.map fun p => p.part true [] }).awaitReg d) ∧
    Traps i (some .st) (fun s => (s.reg a).toNat % n ≠ 0) (fun _ => Cause.atomAlign) (fun s => s.reg a) :=
  ⟨accesses_of_memory arm (fun _ aligned => if_pos aligned) fun _ _ => rfl, traps_of_classCheck arm fun _ bad => if_neg bad⟩

/-- The lesser of two signed values is one of them and not above either. -/
theorem atomMin_least (n old v : Nat) : ∃ x, some (if sextNat old n ≤ sextNat v n then old else v) = some x ∧ (x = old ∨ x = v) ∧
    sextNat x n ≤ sextNat old n ∧ sextNat x n ≤ sextNat v n := by
  by_cases le : sextNat old n ≤ sextNat v n
  · exact ⟨old, by rw [if_pos le], .inl rfl, Int.le_refl _, le⟩
  · exact ⟨v, by rw [if_neg le], .inr rfl, by omega, Int.le_refl _⟩

theorem atomMax_greatest (n old v : Nat) : ∃ x, some (if sextNat v n ≤ sextNat old n then old else v) = some x ∧ (x = old ∨ x = v) ∧
    sextNat old n ≤ sextNat x n ∧ sextNat v n ≤ sextNat x n := by
  by_cases le : sextNat v n ≤ sextNat old n
  · exact ⟨old, by rw [if_pos le], .inl rfl, Int.le_refl _, le⟩
  · exact ⟨v, by rw [if_neg le], .inr rfl, by omega, Int.le_refl _⟩

/-- Settles O28: each form has the one check and the one access, and the values are those of the operations. -/
theorem atomics : Obligations.Atomics := by
  refine ⟨fun d a b c sc wide o => ?_, fun n old b c _ _ => ?_⟩
  · exact ⟨atomic_issues fun _ => rfl, atomic_issues fun _ => rfl, atomic_issues fun _ => rfl, atomic_issues fun _ => rfl,
      atomic_issues fun _ => rfl, atomic_issues fun _ => rfl, atomic_issues fun _ => rfl, atomic_issues fun _ => rfl,
      atomic_issues fun _ => rfl, atomic_issues fun _ => rfl, atomic_issues fun _ => rfl⟩
  · exact ⟨rfl, congrArg some (Nat.add_mod_mod ..), rfl, rfl, rfl, rfl, rfl, rfl, atomMin_least .., atomMax_greatest .., rfl⟩

end Sys2Proof.Proofs.Accesses

/-!
SUPPORT. What an access leaves unchanged at its slot (08 R198, 09 R210, R213): translation uses TLBs and walks, the access itself the orders
of its sequencer and the place of its entry.
-/

namespace Sys2Proof.Proofs.AccessFrames

open Sys2Proof.Machine Sys2Proof.Laws Sys2Proof.Proofs.Control Sys2Proof.Proofs.Barriers Sys2Proof.Proofs.DelayedResults

/-! ### What is left -/

/-- The pod without its tasks, caches of translations, walks, accesses and counters. -/
def outside (s : State) : State :=
  { s with tasks := [], dies := [], cores := [], accesses := [], walks := [], hwids := [], views := [], fresh := 0, nextId := 0 }

/-- A task with nothing of its sequencers but their registers, and without its queues. -/
def stored (t : Task) : Task := { t.mapEngs fun e => { regs := e.regs } with queues := [] }

/-- What no access changes, but for one queue: of a die only its last-level TLB may differ, and of the tasks only the issuing one. -/
structure Beside (q : Option Queue) (s t : State) : Prop where
  outside : outside t = outside s
  dies : ∀ d, t.die d = { s.die d with llt := (t.die d).llt }
  others : KeepsOthers s t
  me : stored t.me = stored s.me
  queues : ∀ r, q ≠ some r → t.me.queue r = s.me.queue r

section

variable {q : Option Queue} {s t u : State}

theorem Beside.cur (h : Beside q s t) : t.cur = s.cur := show (AccessFrames.outside t).cur = _ from h.outside ▸ rfl

theorem Beside.refl (q : Option Queue) (s : State) : Beside q s s := ⟨rfl, fun _ => rfl, fun _ _ => rfl, rfl, fun _ _ => rfl⟩

theorem Beside.trans (h : Beside q s t) (k : Beside q t u) : Beside q s u where
  outside := k.outside.trans h.outside
  dies d := by rw [k.dies, h.dies]
  others uid other := (k.others uid (h.cur ▸ other)).trans (h.others uid other)
  me := k.me.trans h.me
  queues r other := (k.queues r other).trans (h.queues r other)

/-- Nothing but caches of translations, walks, accesses or counters is changed. -/
theorem beside_of_same (same : outside t = outside s) (dies : t.dies = s.dies) (tasks : t.tasks = s.tasks) : Beside q s t := by
  have cur : t.cur = s.cur := show (outside t).cur = _ from same ▸ rfl
  have me : t.me = s.me := by simp only [State.me, State.task, tasks, cur]
  exact ⟨same, fun d => by simp only [State.die, dies], fun _ _ => by rw [tasks], by rw [me], fun _ _ => by rw [me]⟩

theorem modMe_beside {f : Task → Task} (kept : stored (f s.me) = stored s.me)
    (queues : ∀ r, q ≠ some r → (f s.me).queue r = s.me.queue r) : Beside q s (s.modMe f) :=
  ⟨rfl, fun _ => rfl, modMe_others s f, by rw [me_modMe, kept], fun r other => by rw [me_modMe, queues r other]⟩

theorem modEng_beside {f : Eng → Eng} (regs : ∀ e, (f e).regs = e.regs) : Beside q s (s.modEng f) := by
  refine modMe_beside ?_ fun _ _ => ?_ <;> cases s.cur.eng
  all_goals simp [stored, Task.mapEngs, Task.modEng, Task.setEng, Task.eng, Task.queue, regs]

theorem code_ne {p r : Queue} (other : p ≠ r) : p.code ≠ r.code := fun same =>
  other (Option.some.inj (by rw [← Codes.queue_ofCode_code p, same, Codes.queue_ofCode_code]))

theorem setQueue_beside {r : Queue} (l : Task → List QSlot) : Beside (some r) s (s.modMe fun t => t.setQueue r (l t)) :=
  modMe_beside rfl fun _ other => Landings.getD_set_other _ _ _ (code_ne fun same => other (same ▸ rfl))

/-! ### Translation (08 R193, R194, R196, R198) -/

/-- Dropped translations and a fill change of a die its last-level TLB. -/
theorem llt_beside (die : Nat) (f : List TlbEntry → List TlbEntry) (same : outside t = outside s)
    (dies : t.dies = (s.modDie die fun d => { d with llt := f d.llt }).dies) (tasks : t.tasks = s.tasks) : Beside q s t := by
  obtain ⟨outside, -, others, me, queues⟩ := beside_of_same (q := q) (t := { t with dies := s.dies }) same rfl tasks
  refine ⟨outside, fun d => ?_, others, me, queues⟩
  show NMap.getD t.dies d {} = { NMap.getD s.dies d {} with llt := (NMap.getD t.dies d {}).llt }
  rw [dies]
  by_cases here : d = die
  · rw [here, show NMap.getD (s.modDie die _).dies die {} = _ from Landings.getD_set_same ..]
    rfl
  · rw [show NMap.getD (s.modDie die _).dies d {} = _ from Landings.getD_set_other _ _ _ here]

theorem bindHwid_beside (s : State) (die : Nat) (pr : Nat × Nat) : Beside q s (s.bindHwid die pr) := by
  simp only [State.bindHwid]
  split_ifs
  · exact beside_of_same rfl rfl rfl
  · exact beside_of_same rfl rfl rfl
  · split
    · exact Beside.refl ..
    · exact llt_beside die _ rfl rfl rfl

theorem lookup_beside (s : State) (die core vdk asid va : Nat) : Beside q s (s.lookup die core vdk asid va).2 := by
  unfold State.lookup
  split
  · exact bindHwid_beside ..
  · split
    · exact (bindHwid_beside s ..).trans (beside_of_same rfl rfl rfl)
    · exact Beside.refl ..

theorem missing_beside (s : State) (by' : WalkFor) (uid va : Nat) (acc : AccKind) : Beside q s (s.missing by' uid va acc).2 := by
  unfold State.missing
  dsimp only
  split
  · exact beside_of_same rfl rfl rfl
  · split
    · split_ifs
      · exact beside_of_same rfl rfl rfl
      · exact Beside.refl ..
    · exact Beside.refl ..

/-- The state that an attempt to translate leaves. -/
def left : Trans → State
  | .ok _ s | .miss s | .fault _ s => s

theorem translate1_beside (s : State) (by' : WalkFor) (uid va : Nat) (acc : AccKind) :
    Beside q s (left (s.translate1 by' uid va acc)) := by
  have looked : Beside q s _ :=
    lookup_beside s (s.task uid).die ((s.task uid).core.getD 0) (s.task uid).vdKey (s.task uid).asid.toNat va
  simp only [State.translate1]
  split
  · exact Beside.refl ..
  · split
    · have missed := looked.trans (missing_beside _ by' uid va acc)
      split <;> rename_i same <;> rw [same] at missed <;> exact missed
    · split <;> exact looked

/-- One more part translated. -/
def step1 (by' : WalkFor) (uid : Nat) (acc : AccKind) (r : Parts × State) (p : Nat × Nat × Nat) : Parts × State :=
  match r.2.translate1 by' uid p.1 acc with
  | .ok l s => ({ r.1 with ps := r.1.ps ++ (l.take 1).map fun q => { q with len := p.2.1, off := p.2.2 } }, s)
  | .miss s => ({ r.1 with missed := true }, s)
  | .fault f s => (r.1.fail f, s)

theorem translate_beside {by' : WalkFor} {uid va n : Nat} {acc : AccKind} {ps : List Piece}
    (found : s.translate by' uid va n acc = .ok ps u) : Beside q s u := by
  have parts (l : List (Nat × Nat × Nat)) : Beside q s (l.foldl (step1 by' uid acc) ({}, s)).2 := by
    refine List.foldlRecOn (motive := fun r : Parts × State => Beside q s r.2) l _ (Beside.refl ..) fun r kept p _ => ?_
    have := kept.trans (translate1_beside r.2 by' uid p.1 acc)
    simp only [step1]
    split <;> rename_i same <;> rw [same] at this <;> exact this
  rw [State.translate] at found
  change (let r := (pagePieces (n / 65536 + 2) (va % 2 ^ 64) n 0).foldl (step1 by' uid acc) ({}, s)
    if r.1.missed then Trans.miss r.2 else match r.1.fault with
    | some f => .fault f (r.2.takeFailed by')
    | none => .ok r.1.ps r.2) = _ at found
  dsimp only at found
  split at found
  · cases found
  · split at found
    · cases found
    · cases found
      exact parts _

/-! ### The access (09 R210, R213) -/

theorem acquireNow_beside (s : State) : Beside q s s.acquireNow := by
  rcases acquireNow_eq s with same | same
  · rw [same]; exact beside_of_same rfl rfl rfl
  · rw [same]; exact Beside.refl ..

theorem holdOver_beside (s : State) : Beside q s s.holdOver := by
  unfold State.holdOver
  split_ifs
  · exact Beside.refl ..
  · exact Beside.trans (t := s.modEng fun e => { e with hold := [] }) (modEng_beside fun _ => rfl) (acquireNow_beside _)

theorem release_beside (s : State) : Beside q s s.release := modEng_beside fun _ => rfl

theorem holdFor_beside (s : State) (o : After) : Beside q s (s.holdFor o) := by
  cases o
  · exact Beside.refl ..
  · exact modEng_beside fun _ => rfl
  · exact modEng_beside fun _ => rfl

theorem awaitReg_beside (s : State) (rd : GReg) : Beside q s (s.awaitReg rd) := by
  unfold State.awaitReg
  split_ifs
  · exact Beside.refl ..
  · exact modEng_beside fun _ => rfl

theorem addAccess_beside (s : State) (a : Access) : Beside q s (s.addAccess a) := by
  have numbered : Beside q s { s with nextId := s.nextId + 1 } := beside_of_same rfl rfl rfl
  have ordered : Beside q { s with nextId := s.nextId + 1 } _ :=
    modEng_beside (f := fun e => { e with ord := { e.ord with known := e.ord.known.set s.cur.eng.code s.nextId } }) fun _ => rfl
  exact (numbered.trans ordered).trans (beside_of_same rfl rfl rfl)

theorem readEntry_beside (s : State) (iq : InQueue) (cls : PathClass) (ps : List Piece) :
    Beside (some iq.queue) s (s.readEntry iq cls ps) :=
  (addAccess_beside ..).trans (setQueue_beside _)

theorem popN_beside (s : State) (k : BitVec 2) (n : Nat) : Beside (some (.qs k)) s (s.popN k n) := setQueue_beside _

/-- A state whose slot has ended, and not as an issue. -/
def Withheld (s : State) : Prop := s.cur.status ≠ .start ∧ s.cur.status ≠ .issued

theorem stallNow_withheld (s : State) (sync : Bool) : Withheld (s.stallNow sync) := ⟨nofun, nofun⟩

theorem faultNow_withheld (s : State) (uid : Nat) (en : Engine) (f : TrFault) : Withheld (s.faultNow uid en f) := ⟨nofun, nofun⟩

theorem fencedBy_beside (s : State) (b : Before) : Beside q s (s.fencedBy b) := by
  cases b
  · exact Beside.refl ..
  · exact release_beside _
  · exact acquireNow_beside _

/-- An access that has not been kept back by a walk, a failure or a fence changes what it makes. -/
theorem memory_cases (s : State) (va n : Nat) (acc : AccKind) (o so : Machine.Ordering) {go : List Piece → State → State}
    (made : ∀ ps u, Beside q u (go ps u)) :
    Beside q s (s.memory va n acc o so go) ∨ Withheld (s.memory va n acc o so go) := by
  cases found : s.holdOver.translate (.task s.cur.uid s.cur.eng) s.cur.uid va n acc with
  | ok ps u =>
    by_cases clear : (if ps.any fun p => p.ord == .so then so else o).before = .full → u.pendingIds u.cur.uid Access.fences = []
    · rw [Accesses.memory_ok o so go found clear]
      exact .inl (((holdOver_beside s).trans (translate_beside found)).trans
        ((fencedBy_beside u _).trans ((made ps _).trans (holdFor_beside _ _))))
    · obtain ⟨full, outstanding⟩ := Classical.not_imp.mp clear
      rw [State.memory, withPieces_ok (by rw [Accesses.holdOver_cur]; exact found)]
      dsimp only
      rw [if_pos (Bool.and_eq_true_iff.mpr ⟨decide_eq_true full, by simp [outstanding]⟩)]
      exact .inr (stallNow_withheld ..)
  | miss u =>
    rw [State.memory, State.withPieces, Accesses.holdOver_cur, found]
    exact .inr (stallNow_withheld ..)
  | fault f u =>
    rw [State.memory, State.withPieces, Accesses.holdOver_cur, found]
    exact .inr (faultNow_withheld ..)

end

/-! ### The instructions -/

/-- The queue that the form of an access names. -/
def ownQueue : Instr → Option Queue
  | .ldq q _ _ | .ldr q _ _ => some q.queue
  | .stq q _ _ | .str q _ _ => some (.qs q)
  | _ => none

/-- An instruction that issues has had its effect where due results have landed. -/
theorem eff_of_issued {i : Instr} {cls : PathClass} {chk : State → Chk} {eff : State → State} {s t : State}
    (ran : issueClass i cls chk eff s = .next t) (issued : t.cur.status = .issued) (open' : s.cur.commit = false) :
    t = (eff s.landed).issued := by
  have ran : issueFrame i (some cls) chk eff s = t := Host.Outcome.next.inj ran
  rcases issueFrame_cases i (some cls) chk eff s with ⟨c, -, h⟩ | ⟨commit, -⟩ | ⟨b, h⟩ | h | h | ⟨-, h⟩ | ⟨c, v, -, h⟩ | ⟨f, -, h⟩
  case inr.inl => rw [open'] at commit; cases commit
  case inr.inr.inr.inr.inr.inl => exact ran.symm.trans h
  all_goals rw [← ran, h] at issued; cases issued

/-- An access that issues changes nothing but what an access may. -/
theorem beside_of_issued {q : Option Queue} {i : Instr} {cls : PathClass} {chk : State → Chk} {eff : State → State} {s t : State}
    (ran : issueClass i cls chk eff s = .next t) (issued : t.cur.status = .issued) (open' : s.cur.commit = false)
    (start : s.cur.status = .start) (made : Beside q s.landed (eff s.landed) ∨ Withheld (eff s.landed)) :
    ∃ u, t = u.setStatus .issued ∧ Beside q s.landed u := by
  have same := eff_of_issued ran issued open'
  rcases made with beside | ⟨started, ended⟩
  · exact ⟨_, same.trans (issued_of_start_eq (by rw [beside.cur]; exact start)), beside⟩
  · rw [same] at issued
    unfold State.issued at issued
    split at issued
    · contradiction
    · contradiction

theorem loadReg_cases (s : State) (rt : GReg) (ea : Nat) (w : Width) (o : Machine.Ordering) :
    Beside none s (s.loadReg rt ea w o) ∨ Withheld (s.loadReg rt ea w o) :=
  memory_cases s _ _ _ _ _ fun _ _ => (addAccess_beside ..).trans (awaitReg_beside ..)

theorem atomic_cases (s : State) (rd ra rb rc : GReg) (op : AtomOp) (n : Nat) (o : Machine.Ordering) :
    Beside none s (s.atomic rd ra rb rc op n o) ∨ Withheld (s.atomic rd ra rb rc op n o) :=
  memory_cases s _ _ _ _ _ fun _ _ => (addAccess_beside ..).trans (awaitReg_beside ..)

theorem storeBytes_cases {q : Option Queue} (s : State) (ea : Nat) (bs : List Byte) (cls : PathClass) (o : Machine.Ordering)
    {pop : State → State} (popped : ∀ u, Beside q u (pop u)) :
    Beside q s (s.storeBytes ea bs cls o pop) ∨ Withheld (s.storeBytes ea bs cls o pop) :=
  memory_cases s _ _ _ _ _ fun _ _ => (addAccess_beside ..).trans (popped _)

theorem readEntries_beside (u : State) (q : InQueue) (ps : List Piece) (l : List Nat) :
    Beside (some q.queue) u (l.foldl (fun s i => s.readEntry q .fb (entryPieces ps i)) u) :=
  List.foldlRecOn (motive := Beside (some q.queue) u) l _ (Beside.refl ..) fun _ kept _ _ => kept.trans (readEntry_beside ..)

/-- A queue that the form of an access does not name. -/
theorem ownQueue_ne {i : Instr} {q : Queue} (ldq : ∀ iq a off, i = .ldq iq a off → q ≠ iq.queue)
    (ldr : ∀ iq a n, i = .ldr iq a n → q ≠ iq.queue) (stq : ∀ k a off, i = .stq k a off → q ≠ .qs k)
    (str : ∀ k a n, i = .str k a n → q ≠ .qs k) : ownQueue i ≠ some q := by
  intro same
  unfold ownQueue at same
  split at same
  · exact ldq _ _ _ rfl (Option.some.inj same).symm
  · exact ldr _ _ _ rfl (Option.some.inj same).symm
  · exact stq _ _ _ rfl (Option.some.inj same).symm
  · exact str _ _ _ rfl (Option.some.inj same).symm
  · cases same

/-- The one idea of the frame: an access that issues has had an effect that is beside everything the statement names. -/
theorem issued_beside {i : Instr} {s t : State} (access : isAccess i = true) (ran : exec i s = .next t)
    (issued : t.cur.status = .issued) (start : s.cur.status = .start) (open' : s.cur.commit = false) :
    ∃ u, t = u.setStatus .issued ∧ Beside (ownQueue i) s.landed u := by
  cases i
  case ld => exact beside_of_issued ran issued open' start (loadReg_cases ..)
  case ldLong => exact beside_of_issued ran issued open' start (loadReg_cases ..)
  case st => exact beside_of_issued ran issued open' start (storeBytes_cases _ _ _ _ _ (Beside.refl _))
  case stLong => exact beside_of_issued ran issued open' start (storeBytes_cases _ _ _ _ _ (Beside.refl _))
  case ldq =>
    exact beside_of_issued ran issued open' start (memory_cases _ _ _ _ _ _ fun _ _ => readEntry_beside ..)
  case ldr =>
    exact beside_of_issued ran issued open' start (memory_cases _ _ _ _ _ _ fun _ _ => readEntries_beside ..)
  case stq => exact beside_of_issued ran issued open' start (storeBytes_cases _ _ _ _ _ fun u => popN_beside u _ _)
  case str => exact beside_of_issued ran issued open' start (storeBytes_cases _ _ _ _ _ fun u => popN_beside u _ _)
  case atomSwap | atomCas | atomAdd | atomAnd | atomOr | atomXor | atomMin | atomMax | atomMinn | atomMaxn | atomFadd =>
    exact beside_of_issued ran issued open' start (atomic_cases ..)
  all_goals cases access

theorem stored_registers {a b : Task} (same : stored b = stored a) : KeepsRegisters a b := by
  intro e
  cases e
  · exact congrArg (fun t => t.ctl.regs) same
  · exact congrArg (fun t => t.lda.regs) same
  · exact congrArg (fun t => t.exe.regs) same
  · exact congrArg (fun t => t.sta.regs) same

/-- What is read of a task beside its sequencers and queues. -/
theorem stored_keeps {α : Type} {a b : Task} (same : stored b = stored a) (f : Task → α) (blind : ∀ t, f (stored t) = f t) :
    f b = f a := by rw [← blind b, same, blind]

theorem outside_keeps {α : Type} {s t : State} (same : outside t = outside s) (f : State → α) (blind : ∀ s, f (outside s) = f s) :
    f t = f s := by rw [← blind t, same, blind]

theorem stored_flags {a b : Task} (same : stored b = stored a) : KeepsFlags a b :=
  ⟨stored_keeps same Task.arFlags fun _ => rfl, stored_keeps same Task.arEn fun _ => rfl, stored_keeps same Task.arPend fun _ => rfl,
    stored_keeps same Task.arSet fun _ => rfl⟩

theorem stored_special {a b : Task} (same : stored b = stored a) : KeepsSpecial a b := by
  simp only [stored, Task.mapEngs, Task.mk.injEq] at same
  simp only [KeepsSpecial, same, and_self]

/-- Settles O29: what an access that issues leaves is beside everything named, since translation, fences and the access itself are. -/
theorem accessFrame : Obligations.AccessFrame := by
  intro i s t access ran issued start open'
  obtain ⟨u, rfl, outside, dies, others, me, queues⟩ := issued_beside access ran issued start open'
  refine ⟨Landings.keepsMemory_of_mem (outside_keeps outside State.mem fun _ => rfl), fun uid other => ?_,
    outside_keeps outside State.bells fun _ => rfl, outside_keeps outside State.vds fun _ => rfl,
    outside_keeps outside State.windows fun _ => rfl, dies, outside_keeps outside State.copies fun _ => rfl,
    outside_keeps outside State.barriers fun _ => rfl, stored_registers me, stored_flags me, stored_special me,
    stored_keeps me Task.frame fun _ => rfl, stored_keeps me Task.tiles fun _ => rfl, stored_keeps me Task.wbuf fun _ => rfl,
    stored_keeps me Task.tokens fun _ => rfl, stored_keeps me Task.counters fun _ => rfl,
    fun q ldq ldr stq str => queues q (ownQueue_ne ldq ldr stq str)⟩
  exact (others uid other).trans (modMe_others s _ uid other)

end Sys2Proof.Proofs.AccessFrames

/-!
SUPPORT. The instructions of musters and multicast stores at their own die (13 R289, R294, R295, R300, 17 R377, R384).
-/

namespace Sys2Proof.Proofs.Musters

open Sys2Proof.Machine Sys2Proof.Laws Sys2Proof.Proofs.AccessFrames

/-! ### MJOIN and MCLOSE (13 R294, R300, 17 R377) -/

section

variable {s : State} {rd : GReg} {w m tag close : Nat}

/-- The entry of a group word can be judged by at once. -/
def Judged (s : State) (w : Nat) : Prop := s.judging s.me.die s.me.vd w = s ∧ s.groupAway s.me.die s.me.vd (gwId w) = false

theorem musterControl_ok {g : Group} (judged : Judged s w) (member : s.checkMember s.me.die s.me.vd w m = .ok g) :
    s.musterControl rd w m tag close = ((s.addAccess { purpose := .reply rd }).awaitReg rd).inject
      { kind := 10, vd := s.me.vd, gang := s.me.gang.toNat, src := s.me.die, dst := g.root, at' := s.me.die,
        a := groupField w tag m, b := BitVec.ofNat 64 close, acc := s.nextId } := by
  obtain ⟨same, near⟩ := judged
  simp only [State.musterControl, near, same, member]
  rfl

theorem musterControl_error {c : Nat} (judged : Judged s w) (refused : s.checkMember s.me.die s.me.vd w m = .error c) :
    s.musterControl rd w m tag close = s.asyncResult rd (BitVec.ofNat 64 (musterWord (4 + close) c 0 0 0 tag)) := by
  obtain ⟨same, near⟩ := judged
  simp only [State.musterControl, near, same, refused]
  rfl

/-! ### MCTB and MLDR (13 R295) -/

/-- A plain read that translates at once to pages without SO waits for nothing and nothing waits for it. -/
theorem memory_plain {u : State} {va n : Nat} {acc : AccKind} {ps : List Piece} {so : Machine.Ordering} {go : List Piece → State → State}
    (reaches : s.reaches va n acc ps u) : s.memory va n acc {} so go = go ps u := by
  obtain ⟨translates, weak⟩ := reaches
  have made := Accesses.memory_ok {} so go translates
  rw [weak] at made
  exact made fun full => by cases full

/-- A contribution of a member whose entry and block routes lead to makes its reads. -/
theorem contribute_ok {u : State} {ra rb rc : GReg} {ty : Option Bool} {q : Option InQueue} {g : Group} {ps : List Piece}
    {given : State} (judged : Judged s ((s.reg rb).toNat % 2 ^ 16))
    (near : s.sourceAway s.me.die s.me.vd ((s.reg rb).toNat % 2 ^ 16) (bits (s.reg rb) 24 16) = false)
    (member : s.checkMember s.me.die s.me.vd ((s.reg rb).toNat % 2 ^ 16) (bits (s.reg rb) 24 16) = .ok g)
    (reaches : s.reaches (s.reg ra).toNat ((if ty.getD g.bf16 then 2 else 4) * g.e) .read ps u)
    (added : given = u.addAccess
      { cls := some .fb, drain := if q.isSome then some 0 else none, parts := u.readParts s.me.die ps
        purpose := .contribute ((s.reg rb).toNat % 2 ^ 16) (bits (s.reg rb) 24 16) (bits (s.reg rc) 15 0) (ty.getD g.bf16) g.e
          (q.map fun q => (q.queue.code, s.nextId)) false }) :
    s.contribute ra rb rc ty q = q.elim given fun q => given.modMe fun t => t.reserve q.queue s.nextId := by
  obtain ⟨same, -⟩ := judged
  simp only [State.contribute, near, same, member, Bool.false_eq_true, if_false]
  refine (memory_plain reaches).trans ?_
  rw [added]
  cases q <;> rfl

/-! ### MST (13 R289, 17 R384) -/

theorem mstCheck_ok {h : BitVec 8} {rc : GReg} {x : Tile} (there : s.me.tile? h = some x) (row : s.mstRow rc < x.rows)
    (clear : (s.accesses.any fun a => a.2.uid = s.cur.uid && a.2.eng == .sta && a.2.atPort) = false) : mstCheck h rc s = .ok := by
  simp only [mstCheck, rowCheck, there, Nat.not_le.mpr row, clear, if_false]
  rfl

/-- A store to no member has no lines to write. -/
theorem mstParts_none (s : State) (w off n : Nat) : s.mstParts w 0 off n = [] := by
  refine List.flatMap_eq_nil_iff.mpr fun d _ => ?_
  split
  · rfl
  · simp [maskMembers]

theorem line_of_address (a : W64) : BitVec.ofNat 64 (a.toNat / 64 * 64) = a &&& ~~~63#64 := by
  have shifted : BitVec.ofNat 64 (a.toNat / 64 * 64) = a >>> 6 <<< 6 := by
    refine BitVec.eq_of_toNat_eq ?_
    simp [Nat.shiftRight_eq_div_pow, Nat.shiftLeft_eq]
  rw [shifted]
  refine BitVec.eq_of_getLsbD_eq fun i small => ?_
  have low : (63#64).getLsbD i = decide (i < 6) := by
    rw [BitVec.getLsbD_ofNat, show 63 = 2 ^ 6 - 1 from rfl, Nat.testBit_two_pow_sub_one]
    simp [small]
  rw [BitVec.getLsbD_and, BitVec.getLsbD_not, low]
  by_cases below : i < 6
  · simp [below]
  · simp [below, small, Nat.add_sub_cancel' (Nat.not_lt.mp below)]

/-- The store itself, once it has its entry: its access, and its packet or its ack of no member. -/
def mstSent (q : BitVec 2) (ra rb : GReg) (desc : List Byte) (s : State) : State :=
  let str := leNat (desc.take 64)
  let lines := if dword desc 8 % 8 = 0 then 7 else dword desc 8 % 8
  let w := (s.reg rb).toNat % 2 ^ 16
  let off := (s.reg ra).toNat / 64 * 64
  let parts := s.mstParts w str off (64 * lines)
  let so := parts.any fun q => q.ord == .so
  let u := if so then s.release else s
  let v := (u.addAccess
    { cls := some .fb, drain := some 1, purpose := .mst w (dword desc 9 / 64 % 2 ^ 50 * 64) [] none, parts }).popN q 1
  let sent := if str = 0 then v.storeAck u.nextId (List.replicate 128 0#8)
    else v.inject (mstPacket v.me u.nextId w off str ((toBytes 512 ((s.entries q 1).headD 0#4096)).take (64 * lines)))
  if so then sent.holdFor .full else sent

theorem mst_issues {u : State} {q : BitVec 2} {a b c : GReg} {h : BitVec 8} {x : Tile} {ps : List Piece}
    (admitted : s.admits (.mst q a b h c) (some .fb) = true) (there : s.landed.me.tile? h = some x)
    (row : s.landed.mstRow c < x.rows)
    (clear : (s.landed.accesses.any fun a => a.2.uid = s.landed.cur.uid && a.2.eng == .sta && a.2.atPort) = false)
    (translates : s.landed.translate (.task s.cur.uid s.cur.eng) s.cur.uid
      (dword (toBytes 512 (x.rowAt (s.landed.mstRow c))) 9 / 64 % 2 ^ 50 * 64) 128 .write = .ok ps u)
    (enough : 1 ≤ arrived (u.me.queue (.qs q))) :
    exec (.mst q a b h c) s = .next (mstSent q a b (toBytes 512 (x.rowAt (s.landed.mstRow c))) u).issued := by
  refine (issueClass_admits admitted _ _ (mstCheck_ok there row clear)).trans (congrArg (Host.Outcome.next ∘ State.issued) ?_)
  dsimp only
  rw [there]
  refine (withPieces_ok translates _).trans ?_
  rw [Accesses.popCheck_ok enough]
  rfl

theorem mstSent_none {q : BitVec 2} {ra rb : GReg} {desc : List Byte} (empty : leNat (desc.take 64) = 0) :
    mstSent q ra rb desc s = ((s.addAccess
      { cls := some .fb, drain := some 1
        purpose := .mst ((s.reg rb).toNat % 2 ^ 16) (dword desc 9 / 64 % 2 ^ 50 * 64) [] none }).popN q 1).storeAck s.nextId
        (List.replicate 128 0#8) := by
  simp only [mstSent, empty, mstParts_none, List.any_nil, if_true, Bool.false_eq_true, if_false]

/-- What is true of a store to members: it has taken its entry, and a packet with its string and its line's offset is out. -/
def Sent (q : BitVec 2) (ra : GReg) (str : Nat) (s t : State) : Prop :=
  t.me.queue (.qs q) = (s.me.queue (.qs q)).tail ∧ ∃ p, NMap.find? t.packets (s.nextId + 1) = some p ∧ p.kind = 6 ∧
    p.src = s.me.die ∧ p.str = str ∧ p.b = s.reg ra &&& ~~~63#64

theorem Sent.trans {t u : State} {q : BitVec 2} {ra : GReg} {str : Nat} (sent : Sent q ra str s t) (kept : Beside none t u) :
    Sent q ra str s u := by
  rw [Sent, kept.queues _ nofun, outside_keeps kept.outside State.packets fun _ => rfl]
  exact sent

/-- The access is made behind a release or none; then the packet leaves. -/
theorem inject_sent {u : State} {q : BitVec 2} {ra : GReg} {w str : Nat} (kept : Beside none s u) (next : u.nextId = s.nextId)
    (a : Access) (body : List Byte) : let v := (u.addAccess a).popN q 1
    Sent q ra str s (v.inject (mstPacket v.me u.nextId w ((s.reg ra).toNat / 64 * 64) str body)) := by
  intro v
  have added : Beside none s (u.addAccess a) := kept.trans (addAccess_beside u a)
  have popped : Beside (some (.qs q)) (u.addAccess a) v := popN_beside _ q 1
  have tail : v.me.queue (.qs q) = ((u.addAccess a).me.queue (.qs q)).drop 1 := by
    rw [show v.me = _ from me_modMe ..]
    exact Landings.getD_set_same ..
  have number : v.nextId = s.nextId + 1 := congrArg (· + 1) next
  refine ⟨?_, mstPacket v.me u.nextId w ((s.reg ra).toNat / 64 * 64) str body, ?_, rfl, ?_, rfl, line_of_address _⟩
  · exact tail.trans (by rw [added.queues _ nofun, List.drop_one])
  · rw [← number]
    exact find_set_same ..
  · exact (stored_keeps popped.me Task.die fun _ => rfl).trans (stored_keeps added.me Task.die fun _ => rfl)

theorem mstSent_some {q : BitVec 2} {ra rb : GReg} {desc : List Byte} (named : leNat (desc.take 64) ≠ 0) :
    Sent q ra (leNat (desc.take 64)) s (mstSent q ra rb desc s) := by
  simp only [mstSent, if_neg named]
  generalize (if dword desc 8 % 8 = 0 then 7 else dword desc 8 % 8) = lines
  split_ifs
  · exact (inject_sent (release_beside s) rfl _ _).trans (holdFor_beside _ .full)
  · exact inject_sent (Beside.refl ..) rfl _ _

theorem issued_keeps (s : State) : s.issued.me = s.me ∧ s.issued.packets = s.packets := by
  unfold State.issued
  split <;> exact ⟨rfl, rfl⟩

end

/-- Settles O34: checks that pass leave the request or the contribution, those that fail the word, and MST one access and one packet. -/
theorem musterInstructions : Obligations.MusterInstructions := by
  refine ⟨fun rd a b => ⟨fun s g admitted judged member => ?_, fun s c admitted judged refused => ?_⟩,
    fun rd a b => ⟨fun s g admitted judged member => ?_, fun s c admitted judged refused => ?_⟩,
    fun a b c s g ps u admitted judged near member reaches => ?_,
    fun q a b c bf16 s g ps u admitted room judged near member reaches => ?_,
    fun q a b h c s x ps u admitted there row clear translates enough => ?_⟩
  · exact (issue_admits admitted _ _ rfl).trans (congrArg (Host.Outcome.next ∘ State.issued) (musterControl_ok judged member))
  · exact (issue_admits admitted _ _ rfl).trans (congrArg (Host.Outcome.next ∘ State.issued) (musterControl_error judged refused))
  · exact (issue_admits admitted _ _ rfl).trans (congrArg (Host.Outcome.next ∘ State.issued) (musterControl_ok judged member))
  · exact (issue_admits admitted _ _ rfl).trans (congrArg (Host.Outcome.next ∘ State.issued) (musterControl_error judged refused))
  · exact (issueClass_admits admitted _ _ rfl).trans
      (congrArg (Host.Outcome.next ∘ State.issued) (contribute_ok (ty := none) (q := none) judged near member reaches rfl))
  · exact (issueClass_admits admitted _ _ (Accesses.roomCheck_ok room)).trans
      (congrArg (Host.Outcome.next ∘ State.issued) (contribute_ok (ty := some bf16) (q := some q) judged near member reaches rfl))
  · have issues := mst_issues admitted there row clear translates enough
    refine ⟨fun empty => ?_, fun named => ?_⟩
    · rw [issues, mstSent_none empty]
    · obtain ⟨queue, packet⟩ := mstSent_some (s := u) (q := q) (ra := a) (rb := b) named
      obtain ⟨me, packets⟩ := issued_keeps (mstSent q a b (toBytes 512 (x.rowAt (s.landed.mstRow c))) u)
      exact ⟨_, issues, by rw [me]; exact queue, by rw [packets]; exact packet⟩

end Sys2Proof.Proofs.Musters

/-!
SUPPORT. Links and the packets of remote accesses (09 R208, 13 R277, R278, R280, R283, 16 R350).
-/

namespace Sys2Proof.Proofs.Remote

open Sys2Proof.Machine Sys2Proof.Laws Sys2Proof.Proofs.Barriers Sys2Proof.Proofs.TrapEvents

/-! ### Links (13 R277, R278) -/

theorem portBit (p q : Nat) : (1#6 <<< p).getLsbD q = (decide (q < 6) && decide (q = p)) := by
  rw [BitVec.getLsbD_shiftLeft, BitVec.getLsbD_one]
  grind

theorem portUp_small {d : Die} {p : Nat} (up : d.portUp p = true) : p < 6 := by
  by_contra large
  simp only [Die.portUp, BitVec.getLsbD_of_ge _ _ (Nat.not_lt.mp large)] at up
  cases up

/-- A port that is taken down is down, and no other. -/
theorem portUp_drop (d : Die) (p q : Nat) : (d.ports &&& ~~~(1#6 <<< p)).getLsbD q = (d.portUp q && !decide (q = p)) := by
  rw [BitVec.getLsbD_and, BitVec.getLsbD_not, portBit]
  by_cases up : d.portUp q = true
  · simp only [portUp_small up, decide_true, Bool.true_and]
    rfl
  · simp only [Die.portUp, Bool.not_eq_true] at up
    simp [Die.portUp, up]

theorem portUp_raise (d : Die) {p : Nat} (port : p < 6) (q : Nat) :
    (d.ports ||| (1#6 <<< p)).getLsbD q = (d.portUp q || decide (q = p)) := by
  rw [BitVec.getLsbD_or, portBit]
  by_cases same : q = p
  · simp [same, port]
  · simp [same, Die.portUp]

/-- A die after one more failed attempt at a port. -/
def failed (d : Die) (port : Nat) : Die :=
  let n := d.fails.getD port 0 + 1
  { d with
    retry := d.retry.set port (d.retry.getD port 0#64 + 1#64)
    fails := if 16 ≤ n then NMap.erase d.fails port else d.fails.set port n
    ports := if 16 ≤ n then d.ports &&& ~~~(1#6 <<< port) else d.ports }

theorem flitReplay_counts {s : State} {d p : Nat} (up : (s.die d).portUp p = true) :
    exec (.flitReplay d p) s = .next (s.modDie d fun x => failed x p) :=
  if_neg (by simp [up])

theorem failed_ports {d : Die} {p : Nat} : let e := failed d p
    (∀ q, q ≠ p → e.portUp q = d.portUp q) ∧
    (d.fails.getD p 0 + 1 < 16 → e.portUp p = d.portUp p ∧ e.fails.getD p 0 = d.fails.getD p 0 + 1) ∧
    (16 ≤ d.fails.getD p 0 + 1 → e.portUp p = false ∧ e.fails.getD p 0 = 0) := by
  by_cases last : 16 ≤ d.fails.getD p 0 + 1
  · simp only [failed, if_pos last]
    refine ⟨fun q other => (portUp_drop d p q).trans (by simp [other]), fun less => absurd last (Nat.not_le.mpr less), fun _ =>
      ⟨(portUp_drop d p p).trans (by simp), by simp [NMap.getD]⟩⟩
  · simp only [failed, if_neg last]
    exact ⟨fun q _ => rfl, fun _ => ⟨rfl, Landings.getD_set_same ..⟩, fun enough => absurd enough last⟩

/-! ### Arrivals -/

/-- A packet whose handler is `arrives` has its effect where it arrives. -/
theorem delivered_of {i : Instr} {k kind : Nat} {go eff : Packet → State → State} {cond : Packet → State → Prop}
    (arm : ∀ s, exec i s = s.arrives k kind go) (effect : ∀ p s, cond p s → go p s = eff p s) : Delivered i k kind cond eff := by
  intro s p l found route first may holds
  rw [arm, arrives_of found route first may, effect _ _ holds]

/-! ### A read at its home (09 R208, 13 R283) -/

section

variable {k : Nat} {g : Integ} {a : Access} {q : Part} {s : State} {p : Packet}

/-- The doublewords of a part, and those that a packet has still to read. -/
def dwords (q : Part) : List Piece := cutPiece 8 (q.len + 1) { va := q.va, pa := q.pa, len := q.len }
def unread (p : Packet) (q : Part) : List Nat := (List.range (dwords q).length).filter fun i => !p.served.contains i

/-- What a home that serves a read does at one instant. -/
def reads (k : Nat) (g : Integ) (p : Packet) (s : State) : State :=
  match s.partOf p with
  | none => s
  | some (a, q) =>
    let (i, s) := s.pick (unread p q)
    let c := (dwords q).getD i {}
    let (bs, s) := s.homeRead a.who g c.va c.pa c.len
    let body := patch (if p.body.isEmpty then List.replicate q.len 0#8 else p.body) c.off bs
    if (unread p q).length ≤ 1 then s.performed p { p.reply with body, b := a.target }
    else s.keepPacket k { p with body, served := i :: p.served }

theorem readRequest_arrives (s : State) : exec (.readRequest k g) s = s.arrives k 0 (reads k g) := by
  show execReadRequest k g s = _
  rfl

theorem reads_last {i : Nat} (part : s.partOf p = some (a, q)) (last : unread p q = [i]) : reads k g p s =
    let c := (dwords q).getD i {}
    let r := s.homeRead a.who g c.va c.pa c.len
    r.2.performed p { p.reply with b := a.target, body := patch (if p.body.isEmpty then List.replicate q.len 0#8 else p.body) c.off r.1 } := by
  simp only [reads, part, last, State.pick]
  rfl

theorem pick_mem {l : List Nat} (some : l ≠ []) (s : State) : (s.pick l).1 ∈ l := by
  unfold State.pick
  split
  · exact List.mem_singleton_self _
  · show l.getD (Config.nextOf s.draw.1 % l.length) (l.headD 0) ∈ l
    rw [List.getD_eq_getElem _ _ (Nat.mod_lt _ (List.length_pos_iff.mpr some))]
    exact List.getElem_mem _

/-- A read of which more than one doubleword is left stands at its home, with one of them read. -/
theorem reads_more (part : s.partOf p = some (a, q)) (more : 2 ≤ (unread p q).length) : ∃ i x, i ∈ unread p q ∧
    NMap.find? (reads k g p s).packets k = some x ∧ x.served = i :: p.served ∧ x.kind = p.kind ∧ x.at' = p.dst := by
  have left : unread p q ≠ [] := fun none => by rw [none] at more; cases more
  simp only [reads, part, if_neg (Nat.not_le.mpr more)]
  exact ⟨(s.pick (unread p q)).1, _, pick_mem left s, find_set_same .., rfl, rfl, rfl⟩

end

/-! ### Atomics -/

theorem atomicStep_hbm {s : State} {id i : Nat} {a : Access} {q : Part} {g : Integ} {op : AtomOp} {n : Nat} {b c : W64}
    (hbm : isHostPa q.pa = false) : s.atomicStep id i a q g op n b c =
      (some (s.homeAtomic a.who g op n b c q.va q.pa).1, (s.homeAtomic a.who g op n b c q.va q.pa).2) := by
  simp only [State.atomicStep, hbm]
  rfl

theorem atomicStep_read {s : State} {id i : Nat} {a : Access} {q : Part} {g : Integ} {op : AtomOp} {n : Nat} {b c : W64}
    (host : isHostPa q.pa = true) (first : q.old = none) : s.atomicStep id i a q g op n b c =
      let r := s.homeRead a.who g q.va q.pa n
      let left := match atomNew op n (leNat r.1) b.toNat c.toNat with | none => [] | some v => leBytes n v
      (none, r.2.modPart id i fun x => { x with old := some (leNat r.1, left) }) := by
  simp only [State.atomicStep, host, first] <;> rfl

theorem atomicStep_write {s : State} {id i : Nat} {a : Access} {q : Part} {g : Integ} {op : AtomOp} {n : Nat} {b c : W64}
    {old : Nat} {left : List Byte} (host : isHostPa q.pa = true) (again : q.old = some (old, left)) :
    s.atomicStep id i a q g op n b c = (some old, if left = [] then s else s.homeWrite a.who .ok q.va q.pa left) := by
  simp only [State.atomicStep, host, again, List.isEmpty_iff]
  rfl

/-- Settles O51: each packet's handler is met at its arrival, by the part that the packet is for. -/
theorem remoteAccesses : Obligations.RemoteAccesses := by
  refine ⟨⟨fun s d p up => ?_, fun s d p port here there serve => ?_, fun s k p found bad => ?_⟩,
    fun s id i a p found notMst part peer ready away => ?_,
    fun k g a q i => delivered_of readRequest_arrives fun p s holds => reads_last holds.1 holds.2,
    fun s k g p l a q found route first may part more => ?_,
    fun k => delivered_of (fun _ => rfl) fun _ _ _ => rfl, fun k g a q => delivered_of (fun s => show execRemoteWrite k g s = _ from rfl) fun p s part => ?_,
    fun k => delivered_of (fun _ => rfl) fun _ _ _ => rfl,
    fun k g a q rd op n b c => delivered_of (fun s => show execAtomicRequest k g s = _ from rfl) fun p s ⟨part, purpose, hbm⟩ => ?_,
    fun k g a q rd op n b c => delivered_of (fun s => show execAtomicRequest k g s = _ from rfl) fun p s ⟨part, purpose, host, first⟩ => ?_,
    fun k g a q rd op n b c old left => delivered_of (fun s => show execAtomicRequest k g s = _ from rfl) fun p s ⟨part, purpose, host, again⟩ => ?_,
    fun k => delivered_of (fun _ => rfl) fun _ _ _ => rfl, fun s p r => find_set_same ..⟩
  · obtain ⟨others, less, last⟩ := failed_ports (d := s.die d) (p := p)
    refine ⟨_, flitReplay_counts up, fun _ => rfl, rfl, ?_⟩
    rw [die_modDie]
    exact ⟨Landings.getD_set_same .., others, fun few => ⟨(less few).1.trans up, (less few).2⟩, last⟩
  · have ran : exec (.routeReturn d p) s = _ := (if_pos (by simp [port, here, there, serve]) : execRouteReturn d p s = _)
    refine ⟨_, ran, fun _ => rfl, rfl, ?_⟩
    rw [die_modDie]
    exact ⟨(portUp_raise _ port p).trans (by simp), fun q other => (portUp_raise _ port q).trans (by simp [other])⟩
  · refine ⟨(s.dropPacket k).modDie p.at' fun d => { d with malf := d.malf + 1#64 }, ?_, fun _ => rfl, Maps.find_erase_same .., ?_, rfl⟩
    · show execMalformedPacket k s = _
      simp only [execMalformedPacket, found, if_pos bad]
    · rw [die_modDie]
      rfl
  · refine congrArg Host.Outcome.next ?_
    simp only [State.sendPart, found, part]
    exact if_pos (by simp [peer, ready, away])
  · obtain ⟨i, x, among, there, served, kind, at'⟩ := reads_more (k := k) (g := g) part more
    refine ⟨_, i, x, (readRequest_arrives s).trans (arrives_of found route first may _), among, there, served,
      kind.trans (kind_of_packet found), at'⟩
  · simp only [part]
  · simp only [part, purpose, atomicStep_hbm hbm]
  · simp only [part, purpose, atomicStep_read host first] <;> rfl
  · simp only [part, purpose, atomicStep_write host again]

end Sys2Proof.Proofs.Remote

/-!
SUPPORT. Joins, closes and muster words: the packets that every router on their way judges (13 R287, R293, R294, R300).
-/

namespace Sys2Proof.Proofs.Controls

open Sys2Proof.Machine Sys2Proof.Laws Sys2Proof.Proofs.Barriers

/-! ### Packets that every router judges (13 R287) -/

/-- What the packets of musters ask for may always be performed. -/
theorem mayApply_muster {s : State} {k kind : Nat} {p : Packet} (found : s.packet k kind = some p)
    (muster : kind = 9 ∨ kind = 10 ∨ kind = 11 ∨ kind = 14) : s.mayApply p = true := by
  have is := kind_of_packet found
  rcases muster with rfl | rfl | rfl | rfl <;> (rw [State.mayApply, is]; rfl)

section

variable {s u : State} {k kind : Nat} {p : Packet} {l : List (Nat × Nat)} {go : Packet → Group → State → State}
  (found : s.packet k kind = some p) (muster : kind = 9 ∨ kind = 10 ∨ kind = 11 ∨ kind = 14) (first : s.behind k p = false)
  (route : s.route (vcOf kind) p.at' p.dst = some l)
  (near : ((p.dst :: (l.drop 1).map (·.1)).any fun d => s.groupAway d p.vd (gwId p.a.toNat)) = false)
include found muster first route near

theorem atMuster_dropped (passes : (s.dropPacket k).passes p l = (none, u)) : s.atMuster k kind go = .next u := by
  simp only [State.atMuster, found, route, first, mayApply_muster found muster, near, passes, Bool.not_true, Bool.or_self,
    Bool.false_eq_true, if_false]

theorem atMuster_met {g : Group} (passes : (s.dropPacket k).passes p l = (some g, u)) :
    s.atMuster k kind go = .next (go p g u) := by
  simp only [State.atMuster, found, route, first, mayApply_muster found muster, near, passes, Bool.not_true, Bool.or_self,
    Bool.false_eq_true, if_false]

end

/-- A router that does not know the group drops the packet and counts it. -/
theorem judge_unknown {s : State} {p : Packet} {d : Nat} (unknown : (s.judging d p.vd p.a.toNat).groupNow d p.vd p.a.toNat = none) :
    s.judge p d = (none, (s.judging d p.vd p.a.toNat).modDie d fun x => { x with stale := x.stale + 1#64 }) := by
  rw [State.judge, unknown]

/-! ### Joins and closes (13 R294, R300) -/

section

variable {s u : State} {k close : Nat} {p : Packet} {g : Group}

theorem isControl_of (found : s.packet k 10 = some p) (is : p.b.toNat = close) : s.isControl k close = true := by
  simp only [State.isControl, found, is, decide_true]

/-- What a root does with a join. -/
def joined (p : Packet) (s : State) : State :=
  let w := p.a.toNat
  match s.round p.dst p.vd w with
  | some r => s.musterReply p (musterWord 4 0 0 0 0 r.openTag.toNat)
  | none =>
    let s := { s with rounds := NMap.erase s.rounds (roundKey p.dst p.vd (gwId w)) }
    if roundStates ≤ (s.rounds.filter fun r => r.2.die = p.dst).length then s.musterReply p (musterWord 4 Cause.muGroup 0 0 0 0)
    else (s.beginRound p).musterReply p (musterWord 4 0 0 0 0 0)

theorem musterJoin_eq (found : s.packet k 10 = some p) (is : p.b.toNat = 0) :
    exec (.musterJoin k) s = s.atMuster k 10 fun p _ s => joined p s := by
  show execMusterJoin k s = _
  rw [execMusterJoin, isControl_of found is]
  rfl

theorem joined_again {r : Round} (round : s.round p.dst p.vd p.a.toNat = some r) :
    joined p s = s.musterReply p (musterWord 4 0 0 0 0 r.openTag.toNat) := by
  simp only [joined, round]

theorem joined_first (none : s.round p.dst p.vd p.a.toNat = none) :
    let v : State := { s with rounds := NMap.erase s.rounds (roundKey p.dst p.vd (gwId p.a.toNat)) }
    (v.rounds.filter fun r => r.2.die = p.dst).length < 256 →
      joined p s = (v.beginRound p).musterReply p (musterWord 4 0 0 0 0 0) := by
  intro v room
  simp only [joined, none]
  exact if_neg (Nat.not_le.mpr room)

/-- What a root does with a close. -/
def closed (p : Packet) (g : Group) (s : State) : State :=
  let w := p.a.toNat
  let t := gwTag w
  match s.round p.dst p.vd w with
  | none => s.musterReply p (musterWord 5 Cause.muGroup 0 0 0 t)
  | some r =>
    let d := tagDiff r.openTag.toNat t
    if 1 ≤ d ∧ d ≤ 7 then s.musterReply p (musterWord 5 0 0 0 0 t)
    else if d ≤ 0 ∧ -7 ≤ d then
      let (s, r, word) := endRounds g p.gang ((-d).toNat + 1) s r 0
      (closeRounds g p.gang roundSlots s r).musterReply p word
    else s.musterReply p (musterWord 5 Cause.muLag 0 0 0 t)

theorem musterClose_eq (found : s.packet k 10 = some p) (is : p.b.toNat = 1) :
    exec (.musterClose k) s = s.atMuster k 10 closed := by
  show execMusterClose k s = _
  rw [execMusterClose, isControl_of found is]
  rfl

theorem closed_absent (none : s.round p.dst p.vd p.a.toNat = none) :
    closed p g s = s.musterReply p (musterWord 5 Cause.muGroup 0 0 0 (gwTag p.a.toNat)) := by
  simp only [closed, none]

variable {r : Round} (round : s.round p.dst p.vd p.a.toNat = some r)
include round

theorem closed_before (past : 1 ≤ tagDiff r.openTag.toNat (gwTag p.a.toNat) ∧ tagDiff r.openTag.toNat (gwTag p.a.toNat) ≤ 7) :
    closed p g s = s.musterReply p (musterWord 5 0 0 0 0 (gwTag p.a.toNat)) := by
  simp only [closed, round, if_pos past]

theorem closed_now (open' : -7 ≤ tagDiff r.openTag.toNat (gwTag p.a.toNat) ∧ tagDiff r.openTag.toNat (gwTag p.a.toNat) ≤ 0) :
    let x := endRounds g p.gang ((-tagDiff r.openTag.toNat (gwTag p.a.toNat)).toNat + 1) s r 0
    closed p g s = (closeRounds g p.gang 8 x.1 x.2.1).musterReply p x.2.2 := by
  simp only [closed, round]
  rw [if_neg (by omega), if_pos (by omega)]
  rfl

theorem closed_outside (far : tagDiff r.openTag.toNat (gwTag p.a.toNat) < -7 ∨ 7 < tagDiff r.openTag.toNat (gwTag p.a.toNat)) :
    closed p g s = s.musterReply p (musterWord 5 Cause.muLag 0 0 0 (gwTag p.a.toNat)) := by
  simp only [closed, round]
  rw [if_neg (by omega), if_neg (by omega)]

end

/-- Settles O53: a control that every router on its way knows is met at its root, by the tag's place in the window. -/
theorem musterControl : Obligations.MusterControl := by
  refine ⟨fun s p d unknown => judge_unknown unknown, fun s u k p l found first route near passes => ⟨fun is => ?_, fun is => ?_⟩,
    fun s k p g u ⟨found, is, first, l, route, near, passes⟩ => ⟨fun r round => ?_, fun none room => ?_⟩,
    fun s k p g u ⟨found, is, first, l, route, near, passes⟩ => ⟨fun none => ?_, fun r round => ⟨fun past => ?_, fun open' => ?_, fun far => ?_⟩⟩,
    fun s u k p l g a rd found route first near passes there purpose => ?_⟩
  · rw [musterJoin_eq found is, atMuster_dropped found (by simp) first route near passes]
  · rw [musterClose_eq found is, atMuster_dropped found (by simp) first route near passes]
  · rw [musterJoin_eq found is, atMuster_met found (by simp) first route near passes, joined_again round]
  · rw [musterJoin_eq found is, atMuster_met found (by simp) first route near passes, joined_first none room]
    rfl
  · rw [musterClose_eq found is, atMuster_met found (by simp) first route near passes, closed_absent none]
  · rw [musterClose_eq found is, atMuster_met found (by simp) first route near passes, closed_before round past]
  · rw [musterClose_eq found is, atMuster_met found (by simp) first route near passes, closed_now round open']
  · rw [musterClose_eq found is, atMuster_met found (by simp) first route near passes, closed_outside round far]
  · show execMusterReply k s = _
    rw [execMusterReply, atMuster_met found (by simp) first route near passes]
    simp only [there, purpose]

end Sys2Proof.Proofs.Controls

/-!
SUPPORT. Multicast stores, results, acks and contributions on their way (09 R220, 13 R287 to R291, R295 to R298). A proof that goes through a
handler's choices takes the reads of tables that they depend on as unknown functions first, so that nothing evaluates those reads.
-/

namespace Sys2Proof.Proofs.Splits

open Sys2Proof.Machine Sys2Proof.Laws Sys2Proof.Proofs.Barriers Sys2Proof.Proofs.Controls

/-! ### Deliveries to members (13 R290, 20 R448) -/

section

variable {s u : State} {k : Nat} {p : Packet} {die vdk block off n : Nat} {bs : List Byte}

/-- The block of a member as a delivery reads it. -/
def BlockRead (s : State) (die vdk block : Nat) (bs : List Byte) (u : State) : Prop :=
  s.deviceLoad { vd := some vdk, die, acc := .read } vdk (block + 24) 16 = .ok (bs, u)

theorem memberSpots_ok {l : List (Nat × PageOrd)} (read : BlockRead s die vdk block bs u) (area : (receiveArea bs).2 ≠ 0)
    (fits : off + n ≤ (receiveArea bs).2) (lines : s.lineSpots vdk die ((receiveArea bs).1 + off) n = .ok l) :
    s.memberSpots die vdk block off n = (some l, u) := by
  rw [State.memberSpots, read]
  dsimp only
  rw [if_neg (fun out => by omega), lines]

theorem memberSpots_refused (read : BlockRead s die vdk block bs u)
    (outside : (receiveArea bs).2 = 0 ∨ (receiveArea bs).2 < off + n) : s.memberSpots die vdk block off n = (none, u) := by
  rw [State.memberSpots, read]
  dsimp only
  rw [if_pos outside]

theorem deliverTo_refused
    (refused : s.memberSpots p.at' (vdKey (s.moduleOf p.at') p.vd) (p.links.getD 1 0) p.b.toNat p.body.length = (none, u)) :
    s.deliverTo k p = (.no Cause.fbNack, u.memberDone p.acc p.str) := by
  rw [State.deliverTo, refused]

variable {l : List (Nat × PageOrd)}
  (spots : s.memberSpots p.at' (vdKey (s.moduleOf p.at') p.vd) (p.links.getD 1 0) p.b.toNat p.body.length = (some l, u))
  (first : s.deliveredBefore k p = false)
include spots first

theorem deliverTo_writes (here : s.holder p.at' (vdKey (s.moduleOf p.at') p.vd) (p.links.getD 1 0) (p.links.drop 2) = none) :
    ∃ author, s.deliverTo k p =
      (.yes, (u.writeLines (blockWho (vdKey (s.moduleOf p.at') p.vd) p.at' (some author)) l p.body).memberDone p.acc p.str) := by
  rw [State.deliverTo, spots, here, first]
  exact ⟨_, rfl⟩

/-- Lines for a context that is away lie in its landing buffer, or are refused where that is full. -/
theorem deliverTo_lands {t : Nat}
    (away : s.holder p.at' (vdKey (s.moduleOf p.at') p.vd) (p.links.getD 1 0) (p.links.drop 2) = some t) :
    ∃ author, let x : Landing :=
        .write (p.links.getD 1 0) p.b.toNat p.body author { split := p.links.headD 0, member := p.str, acc := p.acc }
      ((u.intoLanding t x).1 = true → ∃ v, s.deliverTo k p = (.landed, v) ∧ v.mem = (u.intoLanding t x).2.mem ∧
        v.splits = (u.intoLanding t x).2.splits ∧ v.tasks = (u.intoLanding t x).2.tasks) ∧
      ((u.intoLanding t x).1 = false → s.deliverTo k p = (.wait p, (s.intoLanding t x).2)) := by
  rw [State.deliverTo, spots, away, first]
  obtain ⟨land, same⟩ : ∃ f, f = State.intoLanding := ⟨_, rfl⟩
  rw [← same]
  refine ⟨(p.src, match NMap.find? s.accesses p.acc with | some a => a.tid | none => 0), ?_⟩
  dsimp only
  generalize Landing.write (p.links.getD 1 0) p.b.toNat p.body _ _ = x
  rcases land u t x with ⟨_ | _, v⟩
  · exact ⟨nofun, fun _ => rfl⟩
  · exact ⟨fun _ => ⟨_, rfl, rfl, rfl, rfl⟩, nofun⟩

end

/-- A replay makes the checks of a delivery again, and then its reply follows (12 R262). -/
theorem replayOne_writes {s u : State} {uid block off : Nat} {bs : List Byte} {author : Nat × Nat} {owed : Owed} {l : List (Nat × PageOrd)}
    (spots : s.memberSpots (s.task uid).die (s.task uid).vdKey block off bs.length = (some l, u)) :
    s.replayOne uid (.write block off bs author owed) =
      (u.writeLines (blockWho (s.task uid).vdKey (s.task uid).die (some author)) l bs).replyOwed (s.task uid).die
        (s.task uid).vdKey owed true := by
  rw [State.replayOne, spots]

theorem replayOne_refused {s u : State} {uid block off : Nat} {bs : List Byte} {author : Nat × Nat} {owed : Owed}
    (refused : s.memberSpots (s.task uid).die (s.task uid).vdKey block off bs.length = (none, u)) :
    s.replayOne uid (.write block off bs author owed) = u.replyOwed (s.task uid).die (s.task uid).vdKey owed false := by
  rw [State.replayOne, refused]

/-! ### Splits (13 R287, R288, R298) -/

/-- The state in which a router that a packet stands at judges it. -/
def judgedAt (s : State) (k : Nat) (p : Packet) : State := (s.dropPacket k).judging p.at' p.vd p.a.toNat

/-- What a router does with a multicast store by the entry that it holds. -/
def storeBy (p : Packet) (s : State) : Option Group → State
  | none => s.answer p (({} : AckSum).deny p.str Cause.fbGroup)
  | some g => s.split p g fun id m s => s.deliverStore p g id m

section

variable {s : State} {k : Nat} {p : Packet} {known : Option Group}

theorem multicastStore_judged (found : s.packet k 6 = some p) (port : p.port ≠ 7) (first : s.behind k p = false)
    (may : s.mayApply p = true) (whole : p.malformed = false) (ready : s.storeWaits p = false)
    (group : (judgedAt s k p).groupNow p.at' p.vd p.a.toNat = known) :
    exec (.multicastStore k) s = .next (storeBy p (judgedAt s k p) known) := by
  show execMulticastStore k s = _
  obtain ⟨now, same⟩ : ∃ f, f = State.groupNow := ⟨_, rfl⟩
  rw [execMulticastStore, found]
  rw [← same] at group ⊢
  dsimp only
  rw [if_neg port, if_neg (by simp [first, may, whole, ready])]
  unfold judgedAt at group ⊢
  rw [group]
  cases known <;> rfl

/-- What a router does with a packet in kind-9 form: it is answered or split, by its phase (13 R298). -/
def resultBy (p : Packet) (s : State) : Option Group → Nat → State
  | none, 0 => s.answer p (({} : AckSum).deny p.str Cause.fbGroup)
  | none, _ => if p.port = 6 then s else s.answer p (({} : AckSum).deny p.str Cause.fbGroup)
  | some g, 0 => s.split p g fun _ m s => s.deliverResult p g m
  | some g, 1 => s.split p g fun _ m s => s.deliverNotice p g m
  | some g, _ => s.split p g fun _ m s => s.deliverRefusal p g m

theorem result_judged {phase : Nat} (found : s.packet k 9 = some p) (first : s.behind k p = false) (whole : p.malformed = false)
    (near : s.nearAway p.at' p.vd p.a.toNat p.str = false) (at' : p.phase = phase)
    (group : (judgedAt s k p).groupNow p.at' p.vd p.a.toNat = known) :
    exec (.result k) s = .next (resultBy p (judgedAt s k p) known phase) := by
  show execResult k s = _
  obtain ⟨now, same⟩ : ∃ f, f = State.groupNow := ⟨_, rfl⟩
  rw [execResult, found]
  rw [← same] at group ⊢
  dsimp only
  rw [if_neg (by simp [first, whole, near])]
  unfold judgedAt at group ⊢
  rw [group, at']
  rcases known with _ | g <;> rcases phase with _ | _ | _ <;> rfl

/-! ### Acks (13 R291) -/

/-- A member's own reply crosses no link. -/
theorem multicastAck_own (found : s.packet k 7 = some p) (port : p.port = 7) :
    exec (.multicastAck k) s = .next ((s.dropPacket k).mergeAck (p.links.headD 0) 7 p.sum) := by
  show execMulticastAck k s = _
  rw [execMulticastAck, found]
  exact if_pos port

/-- The state in which the router behind a link judges an ack that has crossed it. -/
def judgedBehind (s : State) (k : Nat) (p : Packet) : State :=
  ((s.dropPacket k).crossed [(p.at', p.port)]).judging (s.neighbour p.at' p.port) p.vd p.a.toNat

theorem multicastAck_crosses (found : s.packet k 7 = some p) (port : p.port ≠ 7) (up : s.linkUp p.at' p.port = true)
    (first : s.behind k p = false) (near : s.groupAway (s.neighbour p.at' p.port) p.vd (gwId p.a.toNat) = false)
    (group : ((judgedBehind s k p).groupNow (s.neighbour p.at' p.port) p.vd p.a.toNat).isSome = true) :
    exec (.multicastAck k) s = .next ((judgedBehind s k p).mergeAck (p.links.headD 0) (opposite p.port) p.sum) := by
  show execMulticastAck k s = _
  rw [execMulticastAck, found]
  dsimp only
  rw [if_neg port, if_neg (by simp [up, first, near])]
  unfold judgedBehind at group ⊢
  exact if_neg (by simp [Option.isSome_iff_ne_none.mp group])

/-- The last reply owed completes a split record; any other is kept in it. -/
theorem mergeAck_of {id port : Nat} {sum : AckSum} {r : Split} (held : NMap.find? s.splits id = some r) :
    s.mergeAck id port sum = if (r.owed.erase port).isEmpty then
      ({ s with splits := NMap.erase s.splits id } : State).answer r.pkt (r.sum.merge sum)
    else { s with splits := s.splits.set id { r with owed := r.owed.erase port, sum := r.sum.merge sum } } := by
  simp only [State.mergeAck, held]

/-! ### Contributions (13 R295 to R297) -/

/-- What becomes of the access of a contribution that is sent: it is over, or, of an MLDR, waits for its entry. -/
def awaitsEntry (id w m tag : Nat) (bf16 : Bool) (e : Nat) (s : State) : Option (Nat × Nat) → State
  | none => { s with accesses := NMap.erase s.accesses id }
  | some q => { s with accesses := s.accesses.upd id fun a => { a with purpose := .contribute w m tag bf16 e (some q) true } }

theorem awaitsEntry_mldr {id w m tag e : Nat} {bf16 : Bool} {q : Nat × Nat} {y : Access}
    (there : NMap.find? s.accesses id = some y) : NMap.find? (awaitsEntry id w m tag bf16 e (s.inject p) (some q)).accesses id =
      some { y with purpose := .contribute w m tag bf16 e (some q) true } := by
  have kept : (s.inject p).accesses = s.accesses := rfl
  simp only [awaitsEntry, Landings.find_upd, kept, there, Option.map_some]

theorem awaitsEntry_plain {id w m tag e : Nat} {bf16 : Bool} :
    NMap.find? (awaitsEntry id w m tag bf16 e s none).accesses id = none := by
  simp only [awaitsEntry, Maps.find_erase_same]

theorem awaitsEntry_packet {id w m tag e : Nat} {bf16 : Bool} {mldr : Option (Nat × Nat)} :
    NMap.find? (awaitsEntry id w m tag bf16 e (s.inject p) mldr).packets s.nextId = some p := by
  cases mldr <;> exact find_set_same ..

/-- The packet of a contribution. -/
def contribution (id w m tag : Nat) (bf16 : Bool) (e : Nat) (a : Access) (g : Group) : Packet :=
  { kind := 8, vd := a.vdk % 256, gang := a.gang, src := a.die, a := groupField w tag m, b := 1#64, hops := g.up,
    str := 2 ^ m, body := contributionPairs bf16 e a.data, at' := a.die, acc := id }

section

variable {id w m tag e : Nat} {bf16 : Bool} {mldr : Option (Nat × Nat)} {a x : Access}
  (found : NMap.find? s.accesses id = some a) (purpose : a.purpose = .contribute w m tag bf16 e mldr false)
  (done : a.parts.all (·.stat == .done) = true) (near : s.sourceAway a.die (a.vdk % 256) w m = false)
  (there : NMap.find? (s.judging a.die (a.vdk % 256) w).accesses id = some x)
include found purpose done near there

/-- A contribution that has taken its entry when its die judges it is not sent. -/
theorem mctbSend_taken {code : Nat} (taken : x.purpose = .entry code id) :
    exec (.mctbSend id) s = .next (s.judging a.die (a.vdk % 256) w) := by
  show execMctbSend id s = _
  obtain ⟨judge, same⟩ : ∃ f, f = State.judging := ⟨_, rfl⟩
  obtain ⟨away, same'⟩ : ∃ f, f = State.sourceAway := ⟨_, rfl⟩
  obtain ⟨check, same''⟩ : ∃ f, f = State.checkMember := ⟨_, rfl⟩
  rw [execMctbSend, found]
  rw [← same] at there ⊢
  rw [← same'] at near ⊢
  rw [← same'']
  dsimp only
  simp only [purpose, done, near]
  dsimp only [NMap.getD]
  simp only [Bool.not_false, Bool.and_self, if_true, there, Option.getD_some, taken]

theorem mctbSend_sends {g : Group} (same : x.purpose = a.purpose)
    (member : (s.judging a.die (a.vdk % 256) w).checkMember a.die (a.vdk % 256) w m = .ok g) :
    exec (.mctbSend id) s = .next (awaitsEntry id w m tag bf16 e
      (((s.judging a.die (a.vdk % 256) w).writeWord a.vdk a.die g m 0 (musterWord 1 0 0 0 0 tag)).inject
        (contribution id w m tag bf16 e a g)) mldr) := by
  show execMctbSend id s = _
  obtain ⟨judge, judged⟩ : ∃ f, f = State.judging := ⟨_, rfl⟩
  obtain ⟨away, away'⟩ : ∃ f, f = State.sourceAway := ⟨_, rfl⟩
  obtain ⟨check, checked⟩ : ∃ f, f = State.checkMember := ⟨_, rfl⟩
  rw [execMctbSend, found]
  rw [← judged] at there member ⊢
  rw [← away'] at near ⊢
  rw [← checked] at member ⊢
  dsimp only
  simp only [purpose, done, near]
  dsimp only [NMap.getD]
  simp only [Bool.not_false, Bool.and_self, if_true, there, Option.getD_some, same, purpose]
  rw [if_neg (by simp), member]
  cases mldr <;> rfl

end

/-- What a router does with a contribution that it judges and whose group it knows. -/
theorem contribution_judged {g : Group} (found : s.packet k 8 = some p) (first : s.behind k p = false) (whole : p.malformed = false)
    (phase : p.phase ≠ 1) (near : s.groupAway p.at' p.vd (gwId p.a.toNat) = false)
    (group : (s.judging p.at' p.vd p.a.toNat).groupNow p.at' p.vd p.a.toNat = some g) :
    exec (.contribution k) s = .next ((s.judging p.at' p.vd p.a.toNat).contributed k p g) := by
  show execContribution k s = _
  obtain ⟨now, same⟩ : ∃ f, f = State.groupNow := ⟨_, rfl⟩
  obtain ⟨entry, same'⟩ : ∃ f, f = State.group := ⟨_, rfl⟩
  rw [execContribution, found]
  rw [← same] at group ⊢
  rw [← same']
  dsimp only
  rw [if_neg (by simp [first, whole]), if_neg phase, if_neg (by simp [near]), group]

theorem contributed_forward {g : Group} (op : hopOp p.hop = 0) (up : s.linkUp p.at' (hopPort p.hop) = true)
    (clear : s.behind k { p with phase := 1 } = false) : s.contributed k p g = (s.dropPacket k).forward p := by
  rw [State.contributed, op]
  exact if_pos (by simp [up, clear])

theorem contributed_waits {g : Group} (op : hopOp p.hop = 0) (down : s.linkUp p.at' (hopPort p.hop) = false) :
    s.contributed k p g = { s with packets := s.packets.set k { p with phase := 1 } } := by
  rw [State.contributed, op]
  exact if_neg (by simp [down])

theorem contributed_reduces {g : Group} (op : hopOp p.hop = 1) : s.contributed k p g = (s.dropPacket k).reduce p g := by
  rw [State.contributed, op]
  rfl

theorem contributed_atRoot {g : Group} (op : hopOp p.hop = 2) : s.contributed k p g = (s.dropPacket k).atRoot p g := by
  rw [State.contributed, op]
  rfl

theorem contribution_waited (found : s.packet k 8 = some p) (first : s.behind k p = false) (whole : p.malformed = false)
    (phase : p.phase = 1) :
    exec (.contribution k) s = .next (if s.linkUp p.at' (hopPort p.hop) then (s.dropPacket k).forward p else s) := by
  show execContribution k s = _
  obtain ⟨now, same⟩ : ∃ f, f = State.groupNow := ⟨_, rfl⟩
  obtain ⟨entry, same'⟩ : ∃ f, f = State.group := ⟨_, rfl⟩
  rw [execContribution, found]
  rw [← same, ← same']
  dsimp only
  rw [if_neg (by simp [first, whole]), if_pos phase]

theorem combineSlotTimeout_sends {c : Combine} (found : NMap.find? s.combines k = some c)
    (late : c.opened + 100 ≤ (s.die c.die).clk.toNat) : exec (.combineSlotTimeout k) s = .next (s.sendSlot k) := by
  show execCombineSlotTimeout k s = _
  rw [execCombineSlotTimeout, found]
  exact if_pos late

theorem sendSlot_of {c : Combine} (found : NMap.find? s.combines k = some c) :
    s.sendSlot k = ({ s with combines := NMap.erase s.combines k } : State).inject
      { c.pkt with str := c.mask, b := BitVec.ofNat 64 (popcount c.mask), phase := 1 } := by
  rw [State.sendSlot, found]

/-- What a root does with a stale report, by the round it holds and its entry. -/
def staleBy (p : Packet) (s : State) (round : Option Round) (group : Option Group) : State :=
  let i := p.vd * 4096 + gwId p.a.toNat
  let soon := s.modDie p.dst fun d => { d with staleSoon := d.staleSoon.set i (min (d.staleSoon.getD i 0 + 1) staleMax) }
  match round, group with
  | some r, some g =>
    if r.gen = g.gen ∧ r.gen ≠ gwGen p.a.toNat then s.setRound { r with stale := min (r.stale + 1) staleMax } else soon
  | _, _ => soon

theorem staleReport_read {l : List (Nat × Nat)} (found : s.packet k 14 = some p) (route : s.route (vcOf 14) p.at' p.dst = some l)
    (first : s.behind k p = false) (near : s.groupAway p.dst p.vd (gwId p.a.toNat) = false) :
    let u := ((s.dropPacket k).crossed l).groupRecords p.dst p.vd (gwId p.a.toNat)
    exec (.staleReport k) s = .next (staleBy p u (NMap.find? u.rounds (roundKey p.dst p.vd (gwId p.a.toNat)))
      (u.group p.dst p.vd (gwId p.a.toNat))) := by
  intro u
  show execStaleReport k s = _
  rw [execStaleReport, if_neg (by simp [State.packetWaits, found, near]),
    arrives_of found route first (mayApply_muster found (by simp))]
  obtain ⟨read, same⟩ : ∃ f, f = State.groupRecords := ⟨_, rfl⟩
  obtain ⟨entry, same'⟩ : ∃ f, f = State.group := ⟨_, rfl⟩
  unfold u
  rw [← same, ← same']
  rfl

end

/-- Settles O52: each handler meets its packet once the entry it is judged by is known, and does then what that entry says. -/
theorem splitsAndContributions : Obligations.SplitsAndContributions := by
  refine ⟨⟨fun s k p found port => ?_, fun s s' k p bs l read area fits lines first => ⟨fun here => ?_, fun t away => ?_⟩,
    fun s s' k p bs read outside => ?_, fun s u uid block off bs author owed => ⟨fun l spots => ?_, fun refused => ?_⟩,
    fun s k p ⟨found, first, may, whole⟩ port ready => ⟨fun unknown => ?_, fun g known => ?_⟩,
    fun s k p ⟨found, first, may, whole⟩ near phase unknown => ?_,
    fun s k p g ⟨found, first, may, whole⟩ near known => ⟨fun phase => ?_, fun phase => ?_, fun phase => ?_⟩,
    fun s k p found port => ?_,
    fun s k p r found port up first near known split => ⟨fun last => ?_, fun more => ?_⟩⟩,
    fun s id a w m tag bf16 e mldr found purpose done near => ⟨fun x code there taken => ?_, fun x g there same member => ?_⟩,
    fun s k p g found first whole phase near known => ⟨fun op up clear => ?_, fun op down => ?_, fun op => ?_, fun op => ?_⟩,
    fun s k p found first whole phase => ?_, fun s k c found late => ?_,
    fun s k p l found route first near => ⟨fun r g round entry same other => ?_, fun none => ?_⟩⟩
  · show execMulticastStore k s = _
    rw [execMulticastStore, found]
    exact if_pos port
  · exact deliverTo_writes (memberSpots_ok read area fits lines) first here
  · exact deliverTo_lands (memberSpots_ok read area fits lines) first away
  · exact deliverTo_refused (memberSpots_refused read outside)
  · exact replayOne_writes spots
  · exact replayOne_refused refused
  · exact multicastStore_judged found port first may whole ready unknown
  · exact multicastStore_judged found port first may whole ready known
  · exact result_judged found first whole near phase unknown
  · exact result_judged found first whole near phase known
  · exact result_judged found first whole near phase known
  · exact result_judged found first whole near phase known
  · exact multicastAck_own found port
  · rw [multicastAck_crosses found port up first near known]
    exact congrArg Host.Outcome.next ((mergeAck_of split).trans (if_pos (List.isEmpty_iff.mpr last)))
  · rw [multicastAck_crosses found port up first near known]
    exact congrArg Host.Outcome.next ((mergeAck_of split).trans (if_neg (by simpa using more)))
  · exact mctbSend_taken found purpose done near there taken
  · refine ⟨_, mctbSend_sends found purpose done near there same member, ?_, fun plain => ?_, fun q y pending later => ?_⟩
    · exact awaitsEntry_packet
    · rw [plain]
      exact awaitsEntry_plain
    · rw [pending]
      exact awaitsEntry_mldr later
  · rw [contribution_judged found first whole phase near known, contributed_forward op up clear]
  · rw [contribution_judged found first whole phase near known, contributed_waits op down]
  · rw [contribution_judged found first whole phase near known, contributed_reduces op]
  · rw [contribution_judged found first whole phase near known, contributed_atRoot op]
  · exact contribution_waited found first whole phase
  · refine ⟨_, (combineSlotTimeout_sends found late).trans (congrArg Host.Outcome.next (sendSlot_of found)), fun _ => rfl, ?_, ?_⟩
    · exact Maps.find_erase_same ..
    · exact find_set_same ..
  · rw [staleReport_read found route first near, round, entry]
    exact congrArg Host.Outcome.next (if_pos ⟨same, other⟩)
  · rw [staleReport_read found route first near, none]
    rfl

end Sys2Proof.Proofs.Splits

/-!
SUPPORT. Reads and atomics at their homes (14 R310 to R313, 16 R349, R350).
-/

namespace Sys2Proof.Proofs.HomeReads

open Sys2Proof.Machine Sys2Proof.Laws

/-! ### Parts of reads (14 R310) -/

/-- What a step of an atomic leaves of its part: it is done once the old value is known. -/
def stepped (id i n : Nat) : Option Nat × State → State
  | (some old, s) => s.modPart id i fun p => { p with bytes := leBytes n old, stat := .done }
  | (none, s) => s

section

variable {s : State} {id i : Nat} {g : Integ} {a : Access} {p : Part} (found : NMap.find? s.accesses id = some a)
  (part : a.parts[i]? = some p) (near : s.isPeer a.die p.pa = false) (may : s.mayPerform a p = true)
include found part near may

/-- A part of a read that may be performed is served and done. -/
theorem homeReadApply_serves (notAtom : ∀ rd op n b c, a.purpose ≠ .atom rd op n b c) (read : p.write = false) :
    let r := s.homeRead a.who g p.va p.pa p.len
    exec (.homeReadApply id i g) s = .next (r.2.modPart id i fun p => { p with bytes := r.1, stat := .done }) := by
  show execHomeReadApply id i g s = _
  simp only [execHomeReadApply, found, part]
  rw [if_neg (by simp [read, near, may])]

/-- An atomic that may be performed makes its next step. -/
theorem homeWriteApply_atomic {rd : GReg} {op : AtomOp} {n : Nat} {b c : W64} (purpose : a.purpose = .atom rd op n b c) :
    exec (.homeWriteApply id i g) s = .next (stepped id i n (s.atomicStep id i a p g op n b c)) := by
  show execHomeWriteApply id i g s = _
  obtain ⟨step, same⟩ : ∃ f, f = State.atomicStep := ⟨_, rfl⟩
  rw [execHomeWriteApply, found, ← same]
  simp only [purpose, part]
  rw [if_neg (by simp [near, may])] 
  rfl

end

/-! ### What a home serves (14 R311 to R313) -/

section

variable {s : State} {w : Who} {k pa n : Nat}

/-- Bytes that no reader misses are those of memory. -/
theorem fetch_readable {vd : Option Nat} (clean : ∀ x, pa ≤ x → x < pa + n → s.unreadable vd x = false) :
    s.fetch vd pa n = s.bytes pa n := by
  refine List.map_congr_left fun i inside => ?_
  rw [clean (pa + i) (Nat.le_add_right ..) (Nat.add_lt_add_left (List.mem_range.mp inside) _)]
  rfl

theorem fetch_unreadable {vd : Option Nat} (dark : ∀ x, pa ≤ x → x < pa + n → s.unreadable vd x = true) :
    s.fetch vd pa n = List.replicate n 0#8 := by
  refine List.eq_replicate_iff.mpr ⟨by simp [State.fetch], fun b there => ?_⟩
  obtain ⟨i, inside, rfl⟩ := List.mem_map.mp there
  exact if_pos (dark (pa + i) (Nat.le_add_right ..) (Nat.add_lt_add_left (List.mem_range.mp inside) _))

/-- A line that verifies gives rise to no record. -/
theorem readNotes_clean {va : Nat} (vd : w.vd = some k) (one : pa % 64 + n ≤ 64)
    (clean : ∀ x, x / 64 = pa / 64 → s.unreadable (some k) x = false) : s.readNotes w va pa n = [] := by
  refine List.filterMap_eq_nil_iff.mpr fun l touched => ?_
  obtain ⟨i, inside, rfl⟩ := List.mem_map.mp touched
  have first : i = 0 := by have := List.mem_range.mp inside; omega
  have line : (lineOf pa + 64 * i) / 64 = pa / 64 := by rw [first, lineOf]; omega
  have readable := clean _ line
  simp only [State.unreadable, Bool.or_eq_false_iff, Option.isSome_eq_false_iff, Option.isNone_iff_eq_none] at readable
  obtain ⟨whole, alive⟩ := readable
  rw [vd, whole, alive]
  split <;> rfl

/-- What is read of a home that has no older values to show. -/
theorem homeRead_hbm {va : Nat} (served : s.tagOpen w pa = true) (hbm : isHostPa pa = false) (vd : w.vd = some k) (views : s.views = []) :
    s.homeRead w .ok va pa n = (s.fetch (some k) pa n, s.records (s.readNotes w va pa n)) := by
  have plain (bs : List Byte) : s.viewRead w pa n bs = (bs, s) := by
    simp only [State.viewRead, vd, views, List.isEmpty_nil, if_true]
  rw [State.homeRead, if_neg (by simp [served]), if_neg (by simp [hbm])]
  simp only [State.damage, plain, vd]

theorem homeRead_readable {va : Nat} (vd : w.vd = some k) (served : s.tagOpen w pa = true) (views : s.views = [])
    (one : pa % 64 + n ≤ 64) (plain : isHostPa pa = true → w.acc ≠ .atomic)
    (clean : ∀ x, x / 64 = pa / 64 → s.unreadable (some k) x = false) : s.homeRead w .ok va pa n = (s.bytes pa n, s) := by
  cases host : isHostPa pa with
  | true =>
    rw [State.homeRead, if_neg (by simp [served]), if_pos host]
    cases acc : w.acc with
    | atomic => exact absurd acc (plain host)
    | _ => rfl
  | false =>
    rw [homeRead_hbm served host vd views, readNotes_clean vd one clean, fetch_readable fun x low high => clean x (by omega)]
    rfl

theorem homeRead_closed {g : Integ} {va : Nat} (vd : w.vd = some k) (closed : s.vdOpen (s.tagAt k pa) = false) :
    s.homeRead w g va pa n = (List.replicate n 0#8, s) := by
  have tag : s.tagOpen w pa = false := by rw [State.tagOpen, vd]; exact closed
  rw [State.homeRead, if_pos (by simp [tag])]

theorem homeRead_unreadable {va : Nat} (vd : w.vd = some k) (hbm : isHostPa pa = false) (views : s.views = [])
    (dark : ∀ x, pa ≤ x → x < pa + n → s.unreadable (some k) x = true) :
    (s.homeRead w .ok va pa n).1 = List.replicate n 0#8 ∧
      (s.tagOpen w pa = true → (s.homeRead w .ok va pa n).2 = s.records (s.readNotes w va pa n)) := by
  cases served : s.tagOpen w pa with
  | true =>
    rw [homeRead_hbm served hbm vd views, fetch_unreadable dark]
    exact ⟨rfl, fun _ => rfl⟩
  | false =>
    rw [State.homeRead, if_pos (by simp [served])]
    exact ⟨rfl, nofun⟩

end

/-! ### Atomics on host memory (16 R350) -/

/-- The one atomic under way writes what it has still to write. -/
theorem finishAtomics_one {s : State} {id : Nat} {a : Access} {p : Part} {old : Nat} {left : List Byte} (only : s.accesses = [(id, a)])
    (part : a.parts = [p]) (read : p.old = some (old, left)) (length : left.length = p.len) (some : left ≠ []) :
    s.finishAtomics p.pa p.len = ({ s with accesses := [(id, { a with parts := [{ p with old := Option.some (old, []) }] })] } : State).poke p.pa left := by
  have long : 0 < left.length := List.length_pos_iff.mpr some
  have meets : p.pa < p.pa + p.len := by omega
  simp only [State.finishAtomics, only, part, List.foldl, List.zipIdx, read]
  rw [if_pos (by simp [meets, some])]
  simp [NMap.upd, updAt, part]

/-- Settles O41: a home serves what verifies and zeros for what does not, and an atomic goes on by its next step. -/
theorem homeReads : Obligations.HomeReads := by
  refine ⟨fun s id i g a p found part notAtom read near may => homeReadApply_serves found part near may notAtom read,
    fun s w k va pa n vd served views one plain clean => homeRead_readable vd served views one plain clean,
    fun s w k va pa n vd hbm views dark => homeRead_unreadable vd hbm views dark,
    fun s w k g va pa n vd closed => homeRead_closed vd closed,
    fun s id i g a p rd op n b c found part purpose near may => ⟨fun hbm => ?_, fun host first => ?_, fun old left host again => ?_⟩,
    fun s id a p old left x only part read length some wf low high => ?_⟩
  · exact (homeWriteApply_atomic found part near may purpose).trans
      (congrArg (Host.Outcome.next ∘ stepped id i n) (Remote.atomicStep_hbm hbm))
  · exact (homeWriteApply_atomic found part near may purpose).trans
      (congrArg (Host.Outcome.next ∘ stepped id i n) (Remote.atomicStep_read host first))
  · exact (homeWriteApply_atomic found part near may purpose).trans
      (congrArg (Host.Outcome.next ∘ stepped id i n) (Remote.atomicStep_write host again))
  · rw [finishAtomics_one only part read length some]
    refine ⟨?_, _, _, rfl, rfl, rfl⟩
    exact (byte_poke wf ..).trans (if_pos ⟨low, by omega⟩)

end Sys2Proof.Proofs.HomeReads

/-!
SUPPORT. The host's accesses over PCIe (14 R305, 15 R326 to R328, 01 R17).
-/

namespace Sys2Proof.Proofs.HostAccesses

open Sys2Proof.Machine Sys2Proof.Laws

/-- Who accesses when the host reads or writes the memory of a VD through a module. -/
def hostOf (s : State) (m k : Nat) (acc : AccKind) : Who := { vd := some k, die := s.dieOf m 0, acc, host := true }

/-- What a store for the host leaves, stored or refused. -/
def storeEnd (s : State) (m k : Nat) : Except TrFault State → State
  | .ok v => v
  | .error f => s.deviceFault k (s.dieOf m 0) .write f

/-- What a load for the host leaves, answered or refused. -/
def loadEnd (s : State) (m k len : Nat) : Except TrFault (List Byte × State) → State
  | .ok (bs, v) => v.complete m (.data bs)
  | .error f => (s.deviceFault k (s.dieOf m 0) .read f).complete m (.data (List.replicate len 0xFF#8))

/-! ### The memory of VDs (15 R327) -/

section

variable {s : State} {m a : Nat} {n : BitVec 8} (served : s.serving m = some true)
include served

theorem hostMemoryWrite_vd {bs : List Byte} (short : bs.length ≤ 512) (inside : a + bs.length ≤ 2 ^ 40) :
    exec (.hostMemoryWrite m (.vd n) a bs) s =
      if !(s.vd (vdKey m n.toNat)).hostOpen || !s.hostReaches m (vdKey m n.toNat) a bs.length true then .next s
      else .next (storeEnd s m (vdKey m n.toNat)
        (s.deviceStore (hostOf s m (vdKey m n.toNat) .write) (vdKey m n.toNat) a bs)) := by
  show execHostMemoryWrite m (.vd n) a bs s = _
  have fits : ¬ (true = false ∨ vdBarSize < a + bs.length) := by simp [vdBarSize]; omega
  rw [execHostMemoryWrite, served]
  dsimp only
  refine (if_neg (Nat.not_lt.2 short)).trans ((if_neg fits).trans ?_)
  congr 1
  unfold hostOf
  cases s.deviceStore _ (vdKey m n.toNat) a bs <;> rfl

theorem hostMemoryRead_vd {len : Nat} (short : len ≤ 512) (inside : a + len ≤ 2 ^ 40) :
    exec (.hostMemoryRead m (.vd n) a len) s =
      if !(s.vd (vdKey m n.toNat)).hostOpen then .next (s.complete m (.data (List.replicate len 0xFF#8)))
      else if !s.hostReaches m (vdKey m n.toNat) a len false then .next s
      else .next (loadEnd s m (vdKey m n.toNat) len
        (s.deviceLoad (hostOf s m (vdKey m n.toNat) .read) (vdKey m n.toNat) a len)) := by
  show execHostMemoryRead m (.vd n) a len s = _
  have fits : ¬ (true = false ∨ vdBarSize < a + len) := by simp [vdBarSize]; omega
  rw [execHostMemoryRead, served]
  dsimp only
  refine (if_neg (Nat.not_lt.2 short)).trans ((if_neg fits).trans ?_)
  congr 2
  unfold hostOf
  cases s.deviceLoad _ (vdKey m n.toNat) a len <;> rfl

end

/-! ### The firmware window (15 R328) -/

section

variable {s : State} {m a : Nat} {whole : Bool} (served : s.serving m = some whole)
include served

theorem hostMemoryWrite_fw {bs : List Byte} (short : bs.length ≤ 512) (inside : a + bs.length ≤ 2 ^ 20) :
    exec (.hostMemoryWrite m .fw a bs) s =
      .next ((pieces (bs.length + 1) a bs).foldl (fun s p => s.windowLine m p.1 p.2) s) := by
  show execHostMemoryWrite m .fw a bs s = _
  rw [execHostMemoryWrite, served]
  dsimp only
  exact (if_neg (Nat.not_lt.2 short)).trans (if_neg (Nat.not_lt.2 inside))

theorem hostMemoryRead_fw {len : Nat} (short : len ≤ 512) (inside : a + len ≤ 2 ^ 20) :
    exec (.hostMemoryRead m .fw a len) s =
      .next (s.complete m (.data ((List.range len).map fun i => s.windowByte m whole (a + i)))) := by
  show execHostMemoryRead m .fw a len s = _
  rw [execHostMemoryRead, served]
  dsimp only
  exact (if_neg (Nat.not_lt.2 short)).trans (if_neg (Nat.not_lt.2 inside))

/-! ### What is too long, ends beyond its BAR, or comes too early (15 R326, R333) -/

/-- An access of n bytes that no BAR takes. -/
def Beyond (whole : Bool) (w : HostWin) (a n : Nat) : Prop :=
  512 < n ∨ (w = .fw ∧ 2 ^ 20 < a + n) ∨ (w ≠ .fw ∧ (whole = false ∨ 2 ^ 40 < a + n))

theorem hostMemoryWrite_beyond {w : HostWin} {bs : List Byte} (beyond : Beyond whole w a bs.length) :
    exec (.hostMemoryWrite m w a bs) s = .next (s.unsupported m) := by
  show execHostMemoryWrite m w a bs s = _
  rw [execHostMemoryWrite, served]
  dsimp only
  by_cases long : 512 < bs.length
  · exact if_pos long
  refine (if_neg long).trans ?_
  cases w with
  | fw =>
    obtain l | ⟨_, past⟩ | ⟨other, _⟩ := beyond
    · exact absurd l long
    · exact if_pos past
    · exact absurd rfl other
  | vd n =>
    obtain l | ⟨other, _⟩ | ⟨_, past⟩ := beyond
    · exact absurd l long
    · cases other
    · exact if_pos past

theorem hostMemoryRead_beyond {w : HostWin} {len : Nat} (beyond : Beyond whole w a len) :
    exec (.hostMemoryRead m w a len) s = .next (s.unsupported m) := by
  show execHostMemoryRead m w a len s = _
  rw [execHostMemoryRead, served]
  dsimp only
  by_cases long : 512 < len
  · exact if_pos long
  refine (if_neg long).trans ?_
  cases w with
  | fw =>
    obtain l | ⟨_, past⟩ | ⟨other, _⟩ := beyond
    · exact absurd l long
    · exact if_pos past
    · exact absurd rfl other
  | vd n =>
    obtain l | ⟨other, _⟩ | ⟨_, past⟩ := beyond
    · exact absurd l long
    · cases other
    · exact if_pos past

end

/-- A VD is open to the host while it is RUNNING or STOPPED and no release of it waits (14 R305). -/
theorem hostOpen_iff (v : Vd) :
    v.hostOpen = true ↔ v.releaseWanted = false ∧ (v.state = .running ∨ v.state = .stopped) := by
  unfold Vd.hostOpen
  cases v.state <;> simp

/-- Settles O54: the result of an access of a VD's memory is that of the store or load it makes, and an access beyond its BAR is
judged before either window. -/
theorem hostAccesses : Obligations.HostAccesses := by
  refine ⟨fun s m n a bs served short inside => ⟨fun isOpen reaches => ?_, fun shut => ?_⟩,
    fun s m whole a bs served short inside => hostMemoryWrite_fw served short inside,
    fun s m n a len served short inside => ⟨fun isOpen reaches => ?_, fun shut => ?_, fun isOpen apart => ?_⟩,
    fun s m whole a len served short inside => hostMemoryRead_fw served short inside,
    fun s m whole w a bs len served => ⟨hostMemoryWrite_beyond served, hostMemoryRead_beyond served⟩, hostOpen_iff⟩
  · refine ⟨_, (hostMemoryWrite_vd served short inside).trans (if_neg (by simp [isOpen, reaches])), fun v stored => ?_,
      fun f refused => ?_⟩
    · exact congrArg (storeEnd s m _) stored
    · exact congrArg (storeEnd s m _) refused
  · rw [hostMemoryWrite_vd served short inside, if_pos (by simpa using shut)]
  · refine ⟨_, (hostMemoryRead_vd served short inside).trans ((if_neg (by simp [isOpen])).trans (if_neg (by simp [reaches]))),
      fun bs v loaded => ?_, fun f refused => ?_⟩
    · exact congrArg (loadEnd s m _ len) loaded
    · exact congrArg (loadEnd s m _ len) refused
  · rw [hostMemoryRead_vd served short inside, if_pos (by simp [shut])]
  · rw [hostMemoryRead_vd served short inside, if_neg (by simp [isOpen]), if_pos (by simp [apart])]

end Sys2Proof.Proofs.HostAccesses

/-!
SUPPORT. The frame in which commands are answered, and the life of a VD by commands (14 R304 to R306, 15 R329).
-/

namespace Sys2Proof.Proofs.VdLives

open Sys2Proof.Machine Sys2Proof.Laws

/-! ### The frame of commands (15 R329) -/

/-- The state in which a command has been answered, or still waits. -/
def answered (m op : Nat) : Answer → State
  | .done s st v => (s.popCommand m).commandAnswer m op st v none
  | .report s bs => (s.popCommand m).commandAnswer m op 0 0 (some bs)
  | .wait s => s

section

variable {i : Instr} {m op : Nat} {go : Nat → List Byte → State → Answer} {cond : Nat → List Byte → State → Prop}

/-- The command at the head of the ring is answered as its own work says. -/
theorem command_answered {s : State} {c : List Byte} (given : s.commanded m op c) :
    s.command m op go = .next (answered m op (go (vdKey m (commandVd c)) c s)) := by
  obtain ⟨head, served, rightOp, rightVd⟩ := given
  cases ring : (s.module m).cmds with
  | nil => simp [ring] at head
  | cons d rest =>
    obtain rfl : d = c := by simpa [ring] using head
    rw [State.command, ring, served]
    refine (if_neg (not_not.2 rightOp)).trans ((if_neg (by simp)).trans ((if_neg (Nat.not_lt.2 rightVd)).trans ?_))
    cases go (vdKey m (commandVd d)) d s <;> rfl

variable (runs : ∀ s, exec i s = s.command m op go)
include runs

theorem commanded_of {eff : Nat → List Byte → State → State} {value : Nat → List Byte → State → Nat}
    (does : ∀ k c s, cond k c s → go k c s = .done (eff k c s) 0 (value k c s)) : Commanded i m op cond eff value :=
  fun s c given holds => (runs s).trans ((command_answered given).trans
    (congrArg (fun a => Host.Outcome.next (answered m op a)) (does _ c s holds)))

theorem refused_of {status : Nat} (does : ∀ k c s, cond k c s → go k c s = .done s status 0) : Refused i m op status cond :=
  fun s c given holds => (runs s).trans ((command_answered given).trans
    (congrArg (fun a => Host.Outcome.next (answered m op a)) (does _ c s holds)))

end

/-! ### What stopping and releasing leave of a VD (14 R306) -/

/-- What no step of a fold changes, the fold does not change. -/
theorem foldl_keeps {α β γ : Type} (f : α → γ) (step : α → β → α) (blind : ∀ a b, f (step a b) = f a) (l : List β) (a : α) :
    f (l.foldl step a) = f a :=
  List.foldlRecOn (motive := fun r => f r = f a) l step rfl fun r same b _ => (blind r b).trans same

theorem abortSwitch_vds (s : State) (core : Nat) (p : Plan) : (s.abortSwitch core p).vds = s.vds := by
  unfold State.abortSwitch
  cases p.out with
  | none => rfl
  | some u => dsimp only; split <;> rfl

theorem cancelPlan_vds (s : State) (k core : Nat) : (s.cancelPlan k core).vds = s.vds := by
  unfold State.cancelPlan
  cases (s.core core).plan with
  | none => rfl
  | some p =>
    dsimp only
    split
    · exact abortSwitch_vds s core p
    · rfl

/-- Stopping a VD's tasks changes of the VDs only that this one is stopping. -/
theorem stopVd_vds (s : State) (k : Nat) : (s.stopVd k).vds = (s.modVd k fun v => { v with stopping := true }).vds := by
  unfold State.stopVd
  dsimp only
  refine (foldl_keeps State.vds _ ?_ _ _).trans ((foldl_keeps State.vds _ ?_ _ _).trans
    (foldl_keeps State.vds State.stopTask ?_ _ _))
  · exact fun _ _ => rfl
  · exact fun _ _ => cancelPlan_vds ..
  · exact fun _ _ => rfl

theorem vd_congr {s t : State} (same : s.vds = t.vds) (k : Nat) : s.vd k = t.vd k := congrArg (fun l => NMap.getD l k ({} : Vd)) same

theorem stopVd_stopping (s : State) (k : Nat) : ((s.stopVd k).vd k).stopping = true := by
  rw [vd_congr (stopVd_vds s k), CsrValues.vd_modVd]

theorem vd_erased (s : State) (k : Nat) : ({ s with vds := NMap.erase s.vds k } : State).vd k = {} := by
  simp [State.vd, NMap.getD, Maps.find_erase_same]

theorem releaseVd_vd (s : State) (k : Nat) : (s.releaseVd k).vd k = {} := vd_erased _ k

theorem releaseIfWanted_unwanted {s : State} {k : Nat} (unwanted : (s.vd k).releaseWanted = false) : s.releaseIfWanted k = s :=
  if_neg (by simp [unwanted])

/-! ### The commands and VD_STOPPED -/

theorem exec_configure (m : Nat) (s : State) : exec (.configure m) s = execConfigure m s := rfl

theorem exec_start (m : Nat) (s : State) : exec (.start m) s = execStart m s := rfl

theorem exec_stop (m : Nat) (s : State) : exec (.stop m) s = execStop m s := rfl

theorem exec_release (m : Nat) (s : State) : exec (.release m) s = execRelease m s := rfl

theorem vdStopped_becomes (m n : Nat) :
    Becomes (.vdStopped m n) (fun s => (s.vd (vdKey m n)).state = .running ∧ (s.vd (vdKey m n)).stopping = true ∧
      (s.vd (vdKey m n)).releaseWanted = false ∧ ∀ c, c ∈ s.copies → c.2.vdk ≠ vdKey m n) fun s =>
        s.modVd (vdKey m n) fun v => { v with state := .stopped, stopping := false } := by
  rintro s ⟨running, stopping, unwanted, copies⟩
  show execVdStopped m n s = _
  have idle : s.copies.any (fun c => c.2.vdk = vdKey m n) = false := by simpa using fun a b h => copies (a, b) h
  rw [execVdStopped]
  refine (if_neg (by simp [running, stopping, unwanted, idle])).trans (congrArg Host.Outcome.next (releaseIfWanted_unwanted ?_))
  rw [CsrValues.vd_modVd]
  exact unwanted

/-- Settles O56: each command is its own work on the VD's state, in the one frame that answers commands. -/
theorem vdCommands : Obligations.VdCommands := by
  intro m
  refine ⟨commanded_of (exec_configure m) fun k c s free => ?_, refused_of (exec_configure m) fun k c s other => ?_,
    commanded_of (exec_start m) fun k c s sound => ?_, commanded_of (exec_start m) fun k c s stopped => ?_,
    refused_of (exec_start m) fun k c s other => ?_, commanded_of (exec_stop m) fun k c s running => ?_,
    refused_of (exec_stop m) fun k c s other => ?_, commanded_of (exec_release m) fun k c s given => ?_,
    refused_of (exec_release m) fun k c s other => ?_, vdStopped_becomes m,
    fun s k => ⟨stopVd_stopping s k, releaseVd_vd s k⟩⟩
  · rw [show (s.vd k).state = .free from free]
  · cases st : (s.vd k).state <;> simp_all
  · obtain ⟨configured, zero⟩ := sound
    rw [configured]
    generalize s.startConfigured k (commandArg c 0) = r at zero ⊢
    exact congrArg (Answer.done r.2 · 0) zero
  · rw [stopped.1]
    exact if_neg (by simp [stopped.2])
  · cases st : (s.vd k).state <;> simp_all
  · rw [show (s.vd k).state = .running from running]
  · cases st : (s.vd k).state <;> simp_all
  · obtain ⟨free, configured | stopped | lost⟩ := given
    · rw [configured]; exact if_neg (by simp [free])
    · rw [stopped]; exact if_neg (by simp [free])
    · rw [lost]; exact if_neg (by simp [free])
  · cases st : (s.vd k).state <;> simp_all

end Sys2Proof.Proofs.VdLives

/-!
SUPPORT. Module commands, service requests and windows (14 R315 to R317, R319, R321, 15 R329, R339, R340).
-/

namespace Sys2Proof.Proofs.Services

open Sys2Proof.Machine Sys2Proof.Laws Sys2Proof.Proofs.VdLives

/-! ### Commands for the module (15 R329) -/

theorem exec_measure (m : Nat) (s : State) : exec (.measure m) s = execMeasure m s := rfl

theorem exec_activate (m : Nat) (ok : Bool) (s : State) : exec (.activate m ok) s = execActivate m ok s := rfl

theorem exec_power (m : Nat) (s : State) : exec (.power m) s = execPower m s := rfl

theorem exec_time (m : Nat) (s : State) : exec (.time m) s = execTime m s := rfl

theorem exec_dumpclr (m : Nat) (s : State) : exec (.dumpclr m) s = execDumpclr m s := rfl

theorem measure_answers {m : Nat} {s : State} {c : List Byte} (given : s.commanded m 10 c) :
    exec (.measure m) s =
      .next ((s.popCommand m).commandAnswer m 10 0 0 (some (s.report (vdKey m (commandVd c)) (field c 24 32)))) :=
  (exec_measure m s).trans ((command_answered given).trans (by rw [answered]))

theorem active_putInactive (x : Module) (bs : List Byte) : (x.putInactive bs).active = x.active := by
  unfold Module.active Module.putInactive
  cases x.activeB <;> simp

theorem inactive_putInactive (x : Module) (bs : List Byte) : (x.putInactive bs).inactive = bs := by
  unfold Module.inactive Module.putInactive
  cases x.activeB <;> simp

theorem running_putInactive (x : Module) (bs : List Byte) : (x.putInactive bs).running = x.running := by
  unfold Module.putInactive
  split <;> rfl

/-- A module whose inactive slot has taken an image that passed its check. -/
def stage (bs : List Byte) (x : Module) : Module :=
  { x.putInactive bs with staged := some ((Config.imageHeader bs).1.toNat, sha512 bs, (Config.imageHeader bs).2) }

theorem activate_stages {m : Nat} {s : State} {c bs : List Byte} (given : s.commanded m 11 c) (none' : (s.module m).staged = none)
    (there : s.hostBytes (commandArg c 0) (commandArg c 1) = some bs) (fits : bs.length ≤ 2 ^ 22)
    (sound : imageOk (s.module m).floor bs = true) :
    exec (.activate m true) s =
      .next ((s.modModule m fun x => x.putInactive bs).modModule m fun x =>
        { x with staged := some ((Config.imageHeader bs).1.toNat, sha512 bs, (Config.imageHeader bs).2) }) := by
  refine (exec_activate m true s).trans ((command_answered given).trans ?_)
  have short : ¬ imageSlot < bs.length := Nat.not_lt.2 fits
  dsimp only
  rw [none', there]
  dsimp only
  rw [if_neg short, if_pos sound]
  rfl

theorem module_staged (s : State) (m : Nat) (bs : List Byte) :
    ((s.modModule m fun x => x.putInactive bs).modModule m fun x =>
      { x with staged := some ((Config.imageHeader bs).1.toNat, sha512 bs, (Config.imageHeader bs).2) }).module m =
      stage bs (s.module m) := by
  rw [PowerOn.module_modModule, PowerOn.module_modModule]
  rfl

/-! ### Service requests (14 R315) -/

/-- A VD's waiting requests replaced. -/
def setRequests (s : State) (k : Nat) (l : List (List Byte)) : State := s.modVd k fun v => { v with requests := l }

/-- The request at the head of a VD's ring is served by the event that its kind belongs to. -/
theorem service_serves {m vd : Nat} {mine : Nat → Bool} {go : Nat → List Byte → State → State} {s : State} {r : List Byte}
    (head : (s.vd (vdKey m vd)).requests.head? = some r) (served : s.serving m = some true) (own : mine (requestKind r) = true)
    (may : requestKind r = 1 ∨ (s.module m).staged = none) :
    s.service m vd mine go = .next (go (vdKey m vd) r (s.popRequest (vdKey m vd))) := by
  cases ring : (s.vd (vdKey m vd)).requests with
  | nil => simp [ring] at head
  | cons q rest =>
    obtain rfl : q = r := by simpa [ring] using head
    have pop : s.popRequest (vdKey m vd) = s.modVd (vdKey m vd) fun v => { v with requests := rest } := by
      exact congrArg (fun l => setRequests s (vdKey m vd) l) (congrArg List.tail ring)
    rw [State.service, pop, ring, served]
    refine if_neg ?_
    rcases may with one | idle
    · simp [one ▸ own, one]
    · simp [own, idle]

theorem served_of {i : Instr} {m vd kind : Nat} {mine : Nat → Bool} {go eff : Nat → List Byte → State → State}
    (runs : ∀ s, exec i s = s.service m vd mine go) (own : mine kind = true)
    (does : ∀ k r s, requestKind r = kind → go k r s = eff k r s) : Served i m vd kind eff := by
  rintro s r head served rfl may
  exact (runs s).trans ((service_serves head served own may).trans (congrArg Host.Outcome.next (does _ _ _ rfl)))

theorem exec_measureRequest (m vd : Nat) (s : State) : exec (.measureRequest m vd) s = execMeasureRequest m vd s := rfl

theorem exec_wopen (m vd : Nat) (s : State) : exec (.wopen m vd) s = execWopen m vd s := rfl

theorem exec_wgrant (m vd : Nat) (s : State) : exec (.wgrant m vd) s = execWgrant m vd s := rfl

theorem wclose_waits {m vd : Nat} {s : State} (held : s.closeHeld (vdKey m vd) = true) : exec (.wclose m vd) s = .next s := by
  show execWclose m vd s = _
  exact if_pos held

theorem wclose_serves {m vd : Nat} {s : State} {r : List Byte} (head : (s.vd (vdKey m vd)).requests.head? = some r)
    (served : s.serving m = some true) (kind : requestKind r = 4) (idle : (s.module m).staged = none)
    (free : s.closeHeld (vdKey m vd) = false) :
    exec (.wclose m vd) s =
      .next ((((s.popRequest (vdKey m vd)).wclose (vdKey m vd) (dword r 2)).2).serviceReply (vdKey m vd) 4
        ((s.popRequest (vdKey m vd)).wclose (vdKey m vd) (dword r 2)).1 (dword r 2) []) := by
  show execWclose m vd s = _
  exact (if_neg (by simp [free])).trans (service_serves head served (by simp [kind]) (.inr idle))

/-! ### The keys of lines (14 R316, R317; log 28) -/

theorem find_map_values {α : Type} (m : NMap α) (k : Nat) {f : Nat × α → Nat × α} (g : Nat → α → α)
    (keyed : ∀ p, f p = (p.1, g p.1 p.2)) : NMap.find? (m.map f : NMap α) k = (NMap.find? m k).map (g k) := by
  induction m with
  | nil => rfl
  | cons c m ih =>
    obtain ⟨a, b⟩ := c
    rw [List.map_cons, keyed]
    by_cases here : a = k
    · simp [NMap.find?, here]
    · simpa [NMap.find?, here] using ih

/-- Whether a line lies in some pages. -/
def inPages (pas : List (Nat × Nat × PageOrd)) (line : Nat) : Bool :=
  pas.any fun q => q.1 ≤ line * 64 && line * 64 < q.1 + q.2.1

/-- The keys of a line after a re-encryption: new ones where there are any and the line verifies under its old ones. -/
def keysAfter (x : BitVec 256 × BitVec 256) : Bool → Option (BitVec 256 × BitVec 256) → BitVec 256 × BitVec 256
  | true, some y => y
  | _, _ => x

theorem find_rekey (s t : State) (k : Nat) (pas : List (Nat × Nat × PageOrd)) (line : Nat) :
    NMap.find? (s.rekey t k pas).sealed line = (NMap.find? t.sealed line).map fun x =>
      keysAfter x (inPages pas line && s.slotKeys (some k) (line * 64) == some x) (t.slotKeys (some k) (line * 64)) := by
  refine find_map_values t.sealed line (fun line x =>
    keysAfter x (inPages pas line && s.slotKeys (some k) (line * 64) == some x) (t.slotKeys (some k) (line * 64))) fun p => ?_
  obtain ⟨line, x⟩ := p
  change (match inPages pas line && s.slotKeys (some k) (line * 64) == some x, t.slotKeys (some k) (line * 64) with
    | true, some y => (line, y) | _, _ => (line, x)) = _
  cases inPages pas line && s.slotKeys (some k) (line * 64) == some x <;> cases t.slotKeys (some k) (line * 64) <;> rfl

section

variable {s t : State} {k line : Nat} {pas : List (Nat × Nat × PageOrd)}

theorem rekey_inside {x y : BitVec 256 × BitVec 256} (found : NMap.find? t.sealed line = some x)
    (inside : ∃ q ∈ pas, q.1 ≤ line * 64 ∧ line * 64 < q.1 + q.2.1) (old : s.slotKeys (some k) (line * 64) = some x)
    (new : t.slotKeys (some k) (line * 64) = some y) : NMap.find? (s.rekey t k pas).sealed line = some y := by
  have hit : inPages pas line = true := by simpa [inPages] using inside
  rw [find_rekey, found, Option.map_some, old, new, hit]
  simp [keysAfter]

theorem rekey_outside (outside : ∀ q ∈ pas, line * 64 < q.1 ∨ q.1 + q.2.1 ≤ line * 64) :
    NMap.find? (s.rekey t k pas).sealed line = NMap.find? t.sealed line := by
  have miss : inPages pas line = false := by
    simp only [inPages, List.any_eq_false, Bool.and_eq_true, decide_eq_true_eq, not_and, not_lt]
    intro q mem low
    have := outside q mem
    omega
  rw [find_rekey, miss]
  cases NMap.find? t.sealed line <;> rfl

end

/-! ### WOPEN (14 R316) -/

theorem window_setWindow (s : State) (wk : Nat) (w : Window) : (s.setWindow wk w).window wk = w := by
  simp [State.window, State.setWindow, NMap.getD]

/-- An opened window has a range that may be one, one of the module's numbers, and the VD for its owner. -/
theorem wopen_opens {s : State} {k base len : Nat} (opened : (s.wopen k base len).1 = 0) :
    windowRangeOk base len = true ∧ (s.wopen k base len).2.1 < 256 ∧
      ((s.wopen k base len).2.2.window (windowKey (k / 256) (s.wopen k base len).2.1)).owner = k % 256 := by
  cases range : windowRangeOk base len with
  | false =>
    rw [State.wopen, range] at opened
    cases opened
  | true =>
    refine ⟨rfl, ?_⟩
    cases pages : s.windowPages k base len with
    | none =>
      rw [State.wopen, range, pages] at opened
      cases opened
    | some pas =>
      rw [State.wopen, range, pages] at opened ⊢
      dsimp only at opened ⊢
      rw [if_neg (by simp)] at opened ⊢
      cases alien : pas.any fun q => s.foreign k q.1 with
      | true =>
        rw [alien] at opened
        cases opened
      | false =>
        rw [alien] at opened
        rw [if_neg (by simp)] at opened ⊢
        cases free : leastFrom 0 (fun i => !(s.window (windowKey (k / 256) i)).open') windowCount with
        | none =>
          rw [free] at opened
          cases opened
        | some id =>
          have low := Bells.leastFrom_lt free
          dsimp only
          generalize s.drawKeys = drawn
          obtain ⟨keys, u⟩ := drawn
          refine ⟨by simpa [windowCount] using low, ?_⟩
          exact congrArg Window.owner (window_setWindow u (windowKey (k / 256) id) _)

/-- Settles O57: commands and requests are their own work in the frames that answer them; a window's lines change keys one by one. -/
theorem firmwareServices : Obligations.FirmwareServices := by
  refine ⟨fun m => ⟨fun s c given => measure_answers given, fun s c bs given idle there fits sound => ?_,
      fun version hash raise => commanded_of (exec_activate m true) fun k c s staged => ?_,
      commanded_of (exec_power m) fun k c s within => if_pos within,
      refused_of (exec_power m) fun k c s beyond => if_neg (by omega),
      commanded_of (exec_time m) fun k c s _ => rfl, commanded_of (exec_dumpclr m) fun k c s _ => rfl⟩,
    fun m vd => ⟨served_of (exec_measureRequest m vd) rfl fun k r s kind => if_pos kind,
      served_of (exec_wopen m vd) rfl fun k r s _ => rfl, served_of (exec_wgrant m vd) rfl fun k r s _ => rfl,
      fun s r head served kind idle => ⟨wclose_waits, wclose_serves head served kind idle⟩,
      fun s t k pas line => ⟨rfl, fun x y => rekey_inside, rekey_outside⟩, fun s k base len opened => ?_⟩⟩
  · refine ⟨_, activate_stages given idle there fits sound, fun _ => rfl, ?_⟩
    rw [module_staged]
    exact ⟨rfl, inactive_putInactive (s.module m) bs, active_putInactive (s.module m) bs, running_putInactive (s.module m) bs⟩
  · dsimp only
    rw [staged]
    rfl
  · obtain ⟨range, low, owner⟩ := wopen_opens opened
    simp only [windowRangeOk, windowUnit, windowMax, Bool.and_eq_true, beq_iff_eq, decide_eq_true_eq] at range
    obtain ⟨⟨⟨⟨aligned, whole⟩, least⟩, most⟩, -⟩ := range
    exact ⟨of_decide_eq_true most, of_decide_eq_true least, aligned, whole, low, owner⟩

end Sys2Proof.Proofs.Services

/-!
SUPPORT. Migration: its commands, its messages and its waits (14 R317, R322 to R325, 15 R329).
-/

namespace Sys2Proof.Proofs.Migrations

open Sys2Proof.Machine Sys2Proof.Laws Sys2Proof.Proofs.VdLives

/-! ### What ends a migration (14 R322, R325) -/

theorem waitedOut_iff (s : State) (k : Nat) :
    s.waitedOut k = true ↔ (s.vd k).migr.since + 10 ^ 9 ≤ (s.die (s.dieOf (k / 256) 0)).clk.toNat :=
  decide_eq_true_iff

theorem waitedOut_eq_false {s : State} {k : Nat}
    (waits : ¬ (s.vd k).migr.since + 10 ^ 9 ≤ (s.die (s.dieOf (k / 256) 0)).clk.toNat) : s.waitedOut k = false :=
  Bool.eq_false_iff.2 fun past => waits ((waitedOut_iff s k).1 past)

section

variable {s : State} {k : Nat}

theorem abortVd_exporting (exporting : (s.vd k).state = .exporting) :
    s.abortVd k = s.modVd k fun v => { v with state := .stopped, migr := {} } := by
  rw [State.abortVd, exporting]

theorem abortVd_importing (importing : (s.vd k).state = .importing) : s.abortVd k = { s with vds := NMap.erase s.vds k } := by
  rw [State.abortVd, importing]

theorem importOver_of_other (other : (s.vd k).state ≠ .importing) : s.importOver k = false := by
  simp [State.importOver, other]

theorem importOver_of_waits (waits : s.waitedOut k = false) : s.importOver k = false := by
  simp [State.importOver, waits]

theorem importOver_of_waited (importing : (s.vd k).state = .importing) (manifest : (s.vd k).migr.manifest.isSome = true)
    (waited : s.waitedOut k = true) : s.importOver k = true := by
  simp [State.importOver, importing, manifest, waited]

/-- A VD that is lost (14 R325). -/
def lostVd (v : Vd) : Vd :=
  { v with state := .lost, keys := none, migr := { v.migr with blob := [], outbox := noBlobs v.migr.outbox } }

/-- The loss of a VD that no reset wants released changes that VD alone. -/
theorem loseVd_vd (unwanted : (s.vd k).releaseWanted = false) : (s.loseVd k).vd k = lostVd (s.vd k) := by
  have vd : (s.modVd k lostVd).vd k = lostVd (s.vd k) := CsrValues.vd_modVd s k lostVd
  have same : s.loseVd k = s.modVd k lostVd :=
    releaseIfWanted_unwanted (s := s.modVd k lostVd) ((congrArg Vd.releaseWanted vd).trans unwanted)
  rw [same, vd]

/-! ### Messages passed in (15 R329) -/

theorem receive_over (x : MigMsg) (past : s.importOver k = true) : s.receive k x = (3, s.abortVd k) :=
  if_pos past

/-- A manifest is kept by its hash, and the ten seconds begin with the first (14 R322, R325). -/
theorem receive_manifest (bs : List Byte) (importing : (s.vd k).state = .importing) (current : s.importOver k = false) :
    s.receive k (.manifest bs) = (0, s.modMig k fun g =>
      { g with manifest := some (sha512 bs), since := if g.manifest.isSome then g.since else s.moduleNow (k / 256) }) := by
  refine (if_neg (by simp [current])).trans ?_
  rw [importing]

theorem vd_modMig (s : State) (k : Nat) (f : Mig → Mig) : ((s.modMig k f).vd k).migr = f (s.vd k).migr :=
  congrArg Vd.migr (CsrValues.vd_modVd ..)

end

/-! ### Commands (14 R322) -/

theorem exec_importVd (m : Nat) (s : State) : exec (.importVd m) s = execImportVd m s := rfl

theorem exec_exportVd (m : Nat) (s : State) : exec (.exportVd m) s = execExportVd m s := rfl

theorem exec_abort (m : Nat) (s : State) : exec (.abort m) s = execAbort m s := rfl

theorem exec_migIn (m : Nat) (s : State) : exec (.migIn m) s = execMigIn m s := rfl

theorem exec_migOut (m : Nat) (s : State) : exec (.migOut m) s = execMigOut m s := rfl

/-- MIG_IN takes what fits the staging area and reads as a message (15 R329). -/
theorem migIn_commanded (m : Nat) (x : MigMsg) :
    Commanded (.migIn m) m 8 (fun k c s => commandArg c 0 ≤ 0xC000 ∧
        Config.readMessage (s.windowBytes m 0x34000 (commandArg c 0)) = some x ∧ (s.receive k x).1 = 0)
      (fun k _ s => (s.receive k x).2) (fun _ _ _ => 0) := by
  refine commanded_of (exec_migIn m) fun k c s given => ?_
  obtain ⟨fits, reads, zero⟩ := given
  have short : ¬ stagingBytes < commandArg c 0 := Nat.not_lt.2 fits
  have reads : Config.readMessage (s.windowBytes m stagingArea (commandArg c 0)) = some x := reads
  dsimp only
  rw [if_neg short, reads]
  dsimp only
  generalize s.receive k x = r at zero ⊢
  exact congrArg (Answer.done r.2 · 0) zero

/-- What MIG_OUT answers in the state after the wait of a SEALED VD has been judged. -/
def sent (m k : Nat) (s : State) : List MigMsg → Answer
  | [] => .done s 0 0
  | x :: rest => .done ((s.modMig k fun g => { g with outbox := rest }).putWindow m 0x34000 ((Config.writeMessage x).take 0xC000)) 0
      ((Config.writeMessage x).take 0xC000).length

/-- A SEALED VD whose ten seconds are over is lost. -/
def judged (s : State) (k : Nat) : State := if (s.vd k).state == .sealed && s.waitedOut k then s.loseVd k else s

theorem migOut_runs (m : Nat) (s : State) :
    exec (.migOut m) s = s.command m 9 fun k _ s => sent m k (judged s k) ((judged s k).vd k).migr.outbox :=
  rfl

section

variable {s : State} {k : Nat}

theorem judged_waits (waits : ¬ ((s.vd k).state = .sealed ∧ s.waitedOut k = true)) : judged s k = s :=
  if_neg (by simpa using waits)

theorem judged_lost (sealed : (s.vd k).state = .sealed) (waited : s.waitedOut k = true) : judged s k = s.loseVd k :=
  if_pos (by simp [sealed, waited])

end

/-! ### Messages taken from the inbox (14 R322, R324, R325) -/

theorem received_of {i : Instr} {m vd : Nat} {mine : MigMsg → Bool} {go : Nat → MigMsg → State → State}
    {cond : Nat → MigMsg → State → Prop} {eff : Nat → MigMsg → State → State} (runs : ∀ s, exec i s = s.message m vd mine go)
    (does : ∀ k x s, cond k x s → mine x = true ∧ go k x s = eff k x s) : Received i m vd cond eff := by
  rintro s x rest inbox served holds
  obtain ⟨own, work⟩ := does _ x _ holds
  rw [runs, State.message, inbox, served]
  exact (if_pos own).trans (congrArg Host.Outcome.next work)

theorem exec_sealedBlob (m vd : Nat) (s : State) : exec (.sealedBlob m vd) s = execSealedBlob m vd s := rfl

theorem exec_confirm (m vd : Nat) (s : State) : exec (.confirm m vd) s = execConfirm m vd s := rfl

theorem exec_releaseAck (m vd : Nat) (s : State) : exec (.releaseAck m vd) s = execReleaseAck m vd s := rfl

theorem exec_lostReply (m vd : Nat) (s : State) : exec (.lostReply m vd) s = execLostReply m vd s := rfl

/-! ### The blob (14 R322, R324) -/

section

variable {m vd : Nat}

/-- The secret part of a blob, under the key that a VD's import has with its source (14 R323). -/
def secretOf (blob : List Byte) (k : Nat) (s : State) : List Byte :=
  aesCtr (blobKey (xShared (s.vd k).migr.secret (word256 (field blob 72 32))) (s.vd k).migr.nd (word256 (field blob 40 32))) 0#128
    (field blob 104 128)

/-- What a blob does to a VD, by what its import's time and the blob's checks say. -/
def blobEnd (blob : List Byte) (key : BitVec 256) (k : Nat) (s : State) : State :=
  if s.importOver k then s.abortVd k
  else if (s.vd k).state == .importing && s.blobOk k blob key (secretOf blob k s) then
    s.unseal k (word256 (field blob 40 32)) key (secretOf blob k s)
  else s.modMig k fun g => { g with discarded := g.discarded + 1 }

theorem sealedBlob_received (blob : List Byte) (key : BitVec 256) {cond : Nat → MigMsg → State → Prop} {eff : Nat → MigMsg → State → State}
    (does : ∀ k x s, cond k x s → x = .blob blob key ∧ blobEnd blob key k s = eff k x s) :
    Received (.sealedBlob m vd) m vd cond eff := by
  refine received_of (exec_sealedBlob m vd) fun k x s holds => ?_
  obtain ⟨rfl, work⟩ := does k x s holds
  exact ⟨rfl, work⟩

end

section

variable {s : State} {k : Nat} {blob : List Byte} {key : BitVec 256}

theorem blobEnd_unseals (importing : (s.vd k).state = .importing) (waits : s.waitedOut k = false)
    (sound : s.blobOk k blob key (secretOf blob k s) = true) :
    blobEnd blob key k s = s.unseal k (word256 (field blob 40 32)) key (secretOf blob k s) :=
  (if_neg (by simp [importOver_of_waits waits])).trans (if_pos (by simp [importing, sound]))

theorem blobEnd_discards (current : s.importOver k = false)
    (unsound : (s.vd k).state ≠ .importing ∨ s.blobOk k blob key (secretOf blob k s) = false) :
    blobEnd blob key k s = s.modMig k fun g => { g with discarded := g.discarded + 1 } :=
  (if_neg (by simp [current])).trans (if_neg (by rcases unsound with other | bad <;> simp_all))

theorem blobEnd_over (importing : (s.vd k).state = .importing) (past : s.importOver k = true) :
    blobEnd blob key k s = { s with vds := NMap.erase s.vds k } :=
  (if_pos past).trans (abortVd_importing importing)

end

/-! ### Confirms and their answers (14 R322, R325) -/

/-- The answer that a VD gives to a sound confirm. -/
def answerConfirm (s : State) (k : Nat) (nd ns : BitVec 256) : VdState → Bool → State
  | .sealed, _ => (s.letGo k).send k (s.release' k nd ns)
  | .lost, _ => s.send k (s.lost' k nd ns)
  | .free, true => s.send k (s.release' k nd ns)
  | _, _ => s

/-- What a confirm does in the state after the wait of a SEALED VD has been judged. -/
def confirmEnd (s : State) (k : Nat) (nd ns : BitVec 256) (sig : BitVec 512) : State :=
  if !(s.vd k).migr.signed 0 nd ns sig then s else answerConfirm s k nd ns (s.vd k).state (s.vd k).migr.moved

section

variable {m vd : Nat} {cond : Nat → MigMsg → State → Prop} {eff : Nat → MigMsg → State → State}

theorem confirm_received (nd ns : BitVec 256) (sig : BitVec 512)
    (does : ∀ k x s, cond k x s → x = .confirm nd ns sig ∧ confirmEnd (judged s k) k nd ns sig = eff k x s) :
    Received (.confirm m vd) m vd cond eff := by
  refine received_of (exec_confirm m vd) fun k x s holds => ?_
  obtain ⟨rfl, work⟩ := does k x s holds
  exact ⟨rfl, work⟩

/-- What an ack does to a VD. -/
def ackEnd (s : State) (k : Nat) (nd ns : BitVec 256) (sig : BitVec 512) : State :=
  if (s.vd k).state == .committing && s.waitedOut k then s.loseVd k
  else if (s.vd k).state == .committing && (s.vd k).migr.signed 1 nd ns sig then
    ((s.modVd k fun v => { v with state := .stopped, mig := true }).watchRing k).releaseIfWanted k
  else s

theorem releaseAck_received (nd ns : BitVec 256) (sig : BitVec 512)
    (does : ∀ k x s, cond k x s → x = .ack nd ns sig ∧ ackEnd s k nd ns sig = eff k x s) :
    Received (.releaseAck m vd) m vd cond eff := by
  refine received_of (exec_releaseAck m vd) fun k x s holds => ?_
  obtain ⟨rfl, work⟩ := does k x s holds
  exact ⟨rfl, work⟩

end

section

variable {s : State} {k : Nat} {nd ns : BitVec 256} {sig : BitVec 512}

theorem confirmEnd_signed (signed : (s.vd k).migr.signed 0 nd ns sig = true) :
    confirmEnd s k nd ns sig = answerConfirm s k nd ns (s.vd k).state (s.vd k).migr.moved :=
  if_neg (by simp [signed])

/-- A confirm that comes too late is answered as the loss of the VD. -/
theorem confirmEnd_late (signed : (s.vd k).migr.signed 0 nd ns sig = true) (unwanted : (s.vd k).releaseWanted = false) :
    confirmEnd (s.loseVd k) k nd ns sig = (s.loseVd k).send k ((s.loseVd k).lost' k nd ns) := by
  have vd := loseVd_vd unwanted
  rw [confirmEnd_signed (by rw [vd]; exact signed), vd]
  rfl

theorem ackEnd_stops (committing : (s.vd k).state = .committing) (signed : (s.vd k).migr.signed 1 nd ns sig = true)
    (unwanted : (s.vd k).releaseWanted = false) (waits : s.waitedOut k = false) :
    ackEnd s k nd ns sig = (s.modVd k fun v => { v with state := .stopped, mig := true }).watchRing k := by
  refine (if_neg (by simp [waits])).trans ((if_pos (by simp [committing, signed])).trans (releaseIfWanted_unwanted ?_))
  rw [State.watchRing, CsrValues.vd_modVd, CsrValues.vd_modVd]
  exact unwanted

end

/-- Settles O58: each command, message and timeout is judged by the VD's state and by whether its ten seconds are over. -/
theorem migration : Obligations.Migration := by
  refine ⟨fun m => ⟨commanded_of (exec_importVd m) fun k c s free => ?_, refused_of (exec_importVd m) fun k c s other => ?_,
      commanded_of (exec_exportVd m) fun k c s given => ?_, refused_of (exec_exportVd m) fun k c s other => ?_,
      commanded_of (exec_abort m) fun k c s exporting => ?_, commanded_of (exec_abort m) fun k c s importing => ?_,
      refused_of (exec_abort m) fun k c s other => ?_, migIn_commanded m,
      commanded_of (migOut_runs m) fun k c s given => ?_, commanded_of (migOut_runs m) fun k c s given => ?_,
      fun s k x => receive_over x, fun s k bs importing current => ?_,
      fun x rest => commanded_of (migOut_runs m) fun k c s given => ?_⟩,
    fun m vd => ⟨fun blob key => ⟨sealedBlob_received blob key fun k x s holds => ?_, sealedBlob_received blob key fun k x s holds => ?_,
        sealedBlob_received blob key fun k x s holds => ?_⟩,
      fun nd ns sig => ⟨confirm_received nd ns sig fun k x s holds => ?_, confirm_received nd ns sig fun k x s holds => ?_,
        confirm_received nd ns sig fun k x s holds => ?_, confirm_received nd ns sig fun k x s holds => ?_,
        releaseAck_received nd ns sig fun k x s holds => ?_, releaseAck_received nd ns sig fun k x s holds => ?_,
        received_of (exec_lostReply m vd) fun k x s holds => ?_⟩,
      fun s holds => ?_, fun s holds => ?_, fun s holds => ?_, fun s k unwanted => ?_⟩⟩
  · rw [free]
    rfl
  · cases st : (s.vd k).state <;> simp_all
  · obtain ⟨stopped, unused, idle⟩ := given
    have landed : (s.accesses.any fun a => a.2.vdk = k && a.2.landsSoon && !a.2.parts.isEmpty) = false := by
      simpa using fun i a mem mine soon => idle (i, a) mem mine soon
    dsimp only
    rw [stopped]
    exact (if_neg (by simp [unused])).trans (if_neg (by simp only [landed, Bool.false_eq_true, not_false_eq_true]))
  · dsimp only
    cases st : (s.vd k).state with
    | stopped => exact if_pos (other.resolve_left (not_not.2 st))
    | _ => rfl
  · rw [exporting]
    exact congrArg (Answer.done · 0 0) (abortVd_exporting exporting)
  · rw [importing]
    exact congrArg (Answer.done · 0 0) (abortVd_importing importing)
  · cases st : (s.vd k).state <;> simp_all
  · obtain ⟨empty, waits⟩ := given
    rw [judged_waits waits, empty]
    rfl
  · obtain ⟨sealed, waited, empty⟩ := given
    rw [judged_lost sealed waited, empty]
    rfl
  · rw [receive_manifest bs importing current]
    dsimp only
    rw [vd_modMig]
    exact ⟨rfl, rfl, rfl⟩
  · obtain ⟨waiting, waits⟩ := given
    rw [judged_waits waits, waiting]
    rfl
  · obtain ⟨rfl, importing, waits, sound⟩ := holds
    exact ⟨rfl, blobEnd_unseals importing (waitedOut_eq_false waits) sound⟩
  · obtain ⟨rfl, other | ⟨waits, unsound⟩⟩ := holds
    · exact ⟨rfl, blobEnd_discards (importOver_of_other other) (.inl other)⟩
    · exact ⟨rfl, blobEnd_discards (importOver_of_waits (waitedOut_eq_false waits)) (.inr unsound)⟩
  · obtain ⟨rfl, importing, waited, manifest⟩ := holds
    exact ⟨rfl, blobEnd_over importing (importOver_of_waited importing manifest ((waitedOut_iff s k).2 waited))⟩
  · obtain ⟨rfl, signed, sealed, waits⟩ := holds
    refine ⟨rfl, ?_⟩
    rw [judged_waits fun late => waits ((waitedOut_iff s k).1 late.2), confirmEnd_signed signed, sealed]
    rfl
  · obtain ⟨rfl, signed, sealed, waited, unwanted⟩ := holds
    refine ⟨rfl, ?_⟩
    rw [judged_lost sealed ((waitedOut_iff s k).2 waited)]
    exact confirmEnd_late signed unwanted
  · obtain ⟨rfl, signed, free, moved⟩ := holds
    refine ⟨rfl, ?_⟩
    rw [judged_waits (by simp [free]), confirmEnd_signed signed, free, moved]
    rfl
  · obtain ⟨rfl, signed, lost⟩ := holds
    refine ⟨rfl, ?_⟩
    rw [judged_waits (by simp [lost]), confirmEnd_signed signed, lost]
    rfl
  · obtain ⟨rfl, committing, signed, unwanted, waits⟩ := holds
    exact ⟨rfl, ackEnd_stops committing signed unwanted (waitedOut_eq_false waits)⟩
  · obtain ⟨rfl, committing, waited⟩ := holds
    exact ⟨rfl, if_pos (by simp [committing, (waitedOut_iff s k).2 waited])⟩
  · obtain ⟨rfl, committing, signed⟩ := holds
    exact ⟨rfl, if_pos (by simp [committing, signed])⟩
  · obtain ⟨sealed, waited⟩ := holds
    exact congrArg Host.Outcome.next (if_pos (by simp [sealed, (waitedOut_iff s _).2 waited]))
  · obtain ⟨committing, waited⟩ := holds
    exact congrArg Host.Outcome.next (if_pos (by simp [committing, (waitedOut_iff s _).2 waited]))
  · obtain ⟨importing, manifest, waited⟩ := holds
    exact congrArg Host.Outcome.next ((if_pos (importOver_of_waited importing manifest ((waitedOut_iff s _).2 waited))).trans
      (abortVd_importing importing))
  · rw [loseVd_vd unwanted]
    exact ⟨rfl, rfl⟩

end Sys2Proof.Proofs.Migrations

/-!
SUPPORT. Fatal errors, power, heat, health and ageing (15 R335 to R340).
-/

namespace Sys2Proof.Proofs.Health

open Sys2Proof.Machine Sys2Proof.Laws

/-! ### Fatal errors (15 R337 to R339) -/

/-- Dies that a module puts into one state of service are in it. -/
theorem service_foldl (l : List Nat) (sv : Service) (s : State) {x : Nat}
    (there : x ∈ l ∨ (s.die x).service = sv) :
    ((l.foldl (fun s d => s.modDie d fun x => { x with service := sv }) s).die x).service = sv := by
  induction l generalizing s with
  | nil => exact there.resolve_left List.not_mem_nil
  | cons d l ih =>
    rw [List.foldl_cons]
    refine ih _ ?_
    by_cases here : x = d
    · right
      rw [here, TrapEvents.die_modDie]
    · rw [CsrValues.die_modDie_other s _ here]
      exact there.imp_left fun mem => (List.mem_cons.1 mem).resolve_left here

/-- The state in which every die of a module is FATAL. -/
def halted (s : State) (m : Nat) : State :=
  (s.diesOfModule m).foldl (fun s d => s.modDie d fun x => { x with service := .fatal }) s

theorem halted_keeps {α : Type} (f : State → α) (blind : ∀ s d, f (s.modDie d fun x => { x with service := .fatal }) = f s)
    (s : State) (m : Nat) : f (halted s m) = f s :=
  VdLives.foldl_keeps f _ blind _ _

theorem module_halted (s : State) (m n : Nat) : (halted s m).module n = s.module n :=
  halted_keeps (fun t => t.module n) (fun _ _ => rfl) s m

theorem mem_halted (s : State) (m : Nat) : (halted s m).mem = s.mem := halted_keeps State.mem (fun _ _ => rfl) s m

theorem service_halted {s : State} {m x : Nat} (mine : x ∈ s.diesOfModule m) : ((halted s m).die x).service = .fatal :=
  service_foldl _ .fatal s (.inl mine)

/-- The keys of a module's VDs and windows gone (15 R339). -/
def unkeyed (s : State) (m : Nat) : State :=
  { s with
    vds := s.vds.map fun (v : Nat × Vd) => if v.1 / 256 = m then (v.1, { v.2 with keys := none }) else v
    windows := s.windows.map fun (w : Nat × Window) => if w.1 / windowCount = m then (w.1, { w.2 with keys := (0, 0) }) else w }

theorem mem_unkeyed (s : State) (m : Nat) : (unkeyed s m).mem = s.mem := rfl

theorem die_unkeyed (s : State) (m x : Nat) : (unkeyed s m).die x = s.die x := rfl

theorem module_unkeyed (s : State) (m n : Nat) : (unkeyed s m).module n = s.module n := rfl

/-- A module's record of a fatal error: the dump it holds counts it, else there is a new one (15 R338, R339). -/
def dumped (dump : List Byte) (x : Module) : Module :=
  match x.dump with
  | some _ => { x with fwKeys := none, dumpMore := min (x.dumpMore + 1) 0xFFFFFFFF }
  | none => { x with fwKeys := none, dump := some dump, dumpMore := 0 }

theorem dumped_fwKeys (dump : List Byte) (x : Module) : (dumped dump x).fwKeys = none := by
  unfold dumped
  split <;> rfl

theorem dumped_new {x : Module} (dump : List Byte) (none' : x.dump = none) :
    (dumped dump x).dump = some dump ∧ (dumped dump x).dumpMore = 0 := by
  rw [dumped, none']
  exact ⟨rfl, rfl⟩

theorem dumped_held {x : Module} (dump : List Byte) (held : x.dump.isSome = true) :
    (dumped dump x).dump = x.dump ∧ (dumped dump x).dumpMore = min (x.dumpMore + 1) 0xFFFFFFFF := by
  obtain ⟨old, there⟩ := Option.isSome_iff_exists.1 held
  rw [dumped, there]
  exact ⟨rfl, rfl⟩

theorem keys_unkeyed (s : State) {m k : Nat} (mine : k / 256 = m) : ((unkeyed s m).vd k).keys = none := by
  have found := Services.find_map_values s.vds k (fun k v => if k / 256 = m then { v with keys := none } else v)
    (f := fun (v : Nat × Vd) => if v.1 / 256 = m then (v.1, { v.2 with keys := none }) else v) (fun p => by split <;> rfl)
  have here : (unkeyed s m).vd k = ((NMap.find? s.vds k).map fun v => ({ v with keys := none } : Vd)).getD {} := by
    simp only [State.vd, NMap.getD, unkeyed, found, mine, if_true]
  rw [here]
  cases NMap.find? s.vds k <;> rfl

theorem window_unkeyed (s : State) {m : Nat} {w : Nat × Window} (mem : w ∈ (unkeyed s m).windows) (mine : w.1 / 256 = m) :
    w.2.keys = (0#256, 0#256) := by
  obtain ⟨old, -, rfl⟩ := List.mem_map.1 mem
  have same : old.1 / windowCount = m := by
    split at mine
    · assumption
    · exact mine
  rw [if_pos same]
  rfl

/-- What a fatal error of a die that is out of RESET leaves. -/
theorem fatal_eq {s : State} {d : Nat} (cause : Nat) (out : (s.die d).service ≠ .reset) :
    s.fatal d cause = (unkeyed (halted s (s.moduleOf d)) (s.moduleOf d)).modModule (s.moduleOf d) (dumped (s.makeDump d cause)) :=
  if_neg (by simpa using out)

theorem mem_fatal {s : State} {d : Nat} (cause : Nat) (out : (s.die d).service ≠ .reset) : (s.fatal d cause).mem = s.mem := by
  rw [fatal_eq cause out, modModule_mem, mem_unkeyed, mem_halted]

theorem die_modModule (s : State) (m x : Nat) (f : Module → Module) : (s.modModule m f).die x = s.die x := rfl

theorem vd_modModule (s : State) (m k : Nat) (f : Module → Module) : (s.modModule m f).vd k = s.vd k := rfl

theorem service_fatal {s : State} {d x : Nat} (cause : Nat) (out : (s.die d).service ≠ .reset)
    (mine : x ∈ s.diesOfModule (s.moduleOf d)) : ((s.fatal d cause).die x).service = .fatal := by
  rw [fatal_eq cause out, die_modModule, die_unkeyed, service_halted mine]

theorem keys_fatal {s : State} {d k : Nat} (cause : Nat) (out : (s.die d).service ≠ .reset) (mine : k / 256 = s.moduleOf d) :
    ((s.fatal d cause).vd k).keys = none := by
  rw [fatal_eq cause out, vd_modModule, keys_unkeyed _ mine]

theorem window_fatal {s : State} {d : Nat} {w : Nat × Window} (cause : Nat) (out : (s.die d).service ≠ .reset)
    (mem : w ∈ (s.fatal d cause).windows) (mine : w.1 / 256 = s.moduleOf d) : w.2.keys = (0#256, 0#256) := by
  rw [fatal_eq cause out, modModule_windows] at mem
  exact window_unkeyed _ mem mine

theorem module_fatal {s : State} {d : Nat} (cause : Nat) (out : (s.die d).service ≠ .reset) :
    (s.fatal d cause).module (s.moduleOf d) = dumped (s.makeDump d cause) (s.module (s.moduleOf d)) := by
  rw [fatal_eq cause out, PowerOn.module_modModule, module_unkeyed, module_halted]

/-! ### Power and heat (15 R340) -/

theorem onDie_out {s : State} {d : Nat} (out : (s.die d).service ≠ .reset) (f : Die → Die) : s.onDie d f = s.modDie d f :=
  if_neg (by simpa using out)

theorem sum_foldl {α : Type} (l : List α) (f : α → Nat) : l.foldl (fun n d => n + f d) 0 = (l.map f).sum := by
  rw [List.sum_eq_foldl, List.foldl_map]

theorem powerShare_eq (s : State) (d : Nat) :
    s.powerShare d = (s.module (s.moduleOf d)).limit * (s.die d).demand /
      ((s.diesOfModule (s.moduleOf d)).map fun x => (s.die x).demand).sum := by
  rw [State.powerShare, sum_foldl]

/-- A die's demand is noted, and its mean power is judged against the share that follows. -/
theorem powerShareCheck_eq {s : State} {d : Nat} (out : (s.die d).service ≠ .reset) (mean demand : Nat) :
    exec (.powerShareCheck d mean demand) s =
      .next ((s.modDie d fun x => { x with demand }).modDie d fun x =>
        { x with idlePower := decide ((s.modDie d fun x => { x with demand }).powerShare d < mean) }) := by
  show execPowerShareCheck d mean demand s = _
  rw [execPowerShareCheck, onDie_out out, onDie_out]
  rw [TrapEvents.die_modDie]
  exact out

/-! ### Health and ageing (15 R335, R336) -/

/-- A die whose health record is made anew. -/
def measured (eol : BitVec 32) (tmax pw : Nat) (x : Die) : Die :=
  { x with stamp := x.stamp + 1#32, tmax := BitVec.ofNat 16 tmax, pw := BitVec.ofNat 32 pw, eol, lastRecord := x.clk.toNat }

/-- The window that shows a die's record changes no die and no memory. -/
theorem healthRecordUpdate_keeps {α : Type} (f : State → α) (blind : ∀ s m off bs, f (State.putWindow s m off bs) = f s) {s : State}
    {d : Nat} (tmax pw : Nat) (out : (s.die d).service ≠ .reset) (due : (s.die d).lastRecord + 10 ^ 7 ≤ (s.die d).clk.toNat) :
    ∃ t eol, exec (.healthRecordUpdate d tmax pw) s = .next t ∧ f t = f (s.setDie d (measured eol tmax pw (s.die d))) := by
  refine ⟨_, _, if_neg ?_, VdLives.foldl_keeps f _ (fun _ _ => blind ..) _ _⟩
  have late : ¬ (s.die d).clk.toNat < (s.die d).lastRecord + healthTicks := Nat.not_lt.2 due
  simp [out, late]

/-- A powered day's mean put behind the means before it, of which the last 90 are kept. -/
theorem kept_means (means : List Nat) (mean : Nat) :
    ((means ++ [mean]).drop (means.length + 1 - 90)).getLast? = some mean ∧
      ((means ++ [mean]).drop (means.length + 1 - 90)).length ≤ 90 := by
  rw [List.drop_append_of_le_length (by omega)]
  constructor
  · simp
  · simp
    omega

theorem die_setDie (s : State) (d : Nat) (x : Die) : (s.setDie d x).die d = x := by
  simp [State.die, State.setDie, NMap.getD]

theorem marginMeasurement_eq {s : State} {d : Nat} (slack : Nat) (full : (s.die d).service = .full)
    (due : (s.die d).lastMargin + 3600 * 10 ^ 8 ≤ (s.die d).clk.toNat) :
    exec (.marginMeasurement d slack) s = .next (s.modDie d fun x =>
      { x with marg := BitVec.ofNat 32 slack, margins := x.margins ++ [slack], lastMargin := x.clk.toNat }) := by
  have late : ¬ (s.die d).clk.toNat < (s.die d).lastMargin + hourTicks := Nat.not_lt.2 due
  exact if_neg (by simp [full, late])

/-- A die whose powered day ends. -/
def dayEnded (mean : Nat) (x : Die) : Die :=
  { x with means := (x.means ++ [mean]).drop (x.means.length + 1 - 90), margins := x.margins.drop 24
           left := predict ((x.means ++ [mean]).drop (x.means.length + 1 - 90)) }

theorem dailyMarginMean_eq {s : State} {d : Nat} (day : 24 ≤ (s.die d).margins.length) :
    ∃ t, exec (.dailyMarginMean d) s = .next t ∧ t.mem = s.mem ∧
      t.die d = dayEnded (((s.die d).margins.take 24).sum / 24) (s.die d) := by
  refine ⟨_, if_neg (Nat.not_lt.2 day), rfl, ?_⟩
  rw [TrapEvents.die_modDie, List.sum_eq_foldl]
  rfl

/-- Settles O60: a fatal error in the order of its steps, each then read off by itself; the other events change one die. -/
theorem fatalErrorsAndHealth : Obligations.FatalErrorsAndHealth := by
  refine ⟨fun i d which s out => ?_, fun s d out => ⟨⟨_, congrArg Host.Outcome.next (onDie_out out _), fun _ => rfl, ?_⟩,
    ⟨_, congrArg Host.Outcome.next (onDie_out out _), fun _ => rfl, ?_⟩,
    fun mean demand => ⟨_, powerShareCheck_eq out mean demand, fun _ => rfl, ?_, ?_⟩, powerShare_eq s d,
    fun tmax pw due => ?_, fun slack full due => ⟨_, marginMeasurement_eq slack full due, fun _ => rfl, ?_⟩, fun day => ?_⟩⟩
  · obtain ⟨cause, runs⟩ : ∃ cause, exec i s = .next (s.fatal d cause) := by
      obtain rfl | rfl | rfl | rfl := which
      · exact ⟨1, rfl⟩
      · exact ⟨2, rfl⟩
      · exact ⟨3, rfl⟩
      · exact ⟨4, rfl⟩
    have new := module_fatal cause out
    refine ⟨_, runs, Landings.keepsMemory_of_mem (mem_fatal cause out), fun x => service_fatal cause out,
      fun k => keys_fatal cause out, ?_, fun w => window_fatal cause out, fun none' => ?_, fun held => ?_⟩
    · rw [new, dumped_fwKeys]
    · rw [new, (dumped_new _ none').1]
      exact ⟨rfl, (dumped_new _ none').2⟩
    · rw [new]
      exact dumped_held _ held
  · rw [TrapEvents.die_modDie]
  · rw [TrapEvents.die_modDie]
  · rw [TrapEvents.die_modDie, TrapEvents.die_modDie]
  · rw [TrapEvents.die_modDie]
    exact decide_eq_true_iff
  · obtain ⟨t, eol, runs, same⟩ := healthRecordUpdate_keeps (fun s => (s.die d, s.mem)) (fun _ _ _ _ => rfl) tmax pw out due
    obtain ⟨die, mem⟩ := Prod.mk.inj same
    rw [die_setDie] at die
    refine ⟨t, runs, Landings.keepsMemory_of_mem mem, ?_⟩
    rw [die]
    exact ⟨rfl, rfl, rfl, rfl⟩
  · rw [TrapEvents.die_modDie]
    exact ⟨rfl, rfl, rfl⟩
  · obtain ⟨t, runs, mem, die⟩ := dailyMarginMean_eq day
    obtain ⟨last, few⟩ := kept_means (s.die d).means (((s.die d).margins.take 24).sum / 24)
    refine ⟨t, runs, Landings.keepsMemory_of_mem mem, ?_⟩
    rw [die]
    exact ⟨rfl, last, fun _ => few⟩

end Sys2Proof.Proofs.Health
